-- ==== Sys2Proof/Word.lean ====
section
/-! DEFINITION. The words of the block: the native 48-bit word (R20), 32-bit registers, bytes, and the access types of R5. -/

namespace Sys2Proof

/-- The native word of engines, registers, timers and the sequencer datapath: 48 bits (R20). -/
abbrev Word := BitVec 48

/-- A register or a microword: 32 bits. -/
abbrev Word32 := BitVec 32

/-- A byte. -/
abbrev Byte := BitVec 8

/-- The access type of a register field (R5). -/
inductive Acc where
  | rw | ro | wo | w1c | w1s | rc
  deriving DecidableEq, Repr

/-- A memory-mapped register field: the block-relative address of its register, its lowest bit, its width,
its access type, its reset value, and whether the configuration image supplies its value at start-up (R5, R7 and
the chapter "Registers" of file 00). -/
structure Fld where
  addr : Nat
  lo : Nat
  w : Nat
  acc : Acc
  rst : Nat
  img : Bool
  deriving DecidableEq, Repr

end Sys2Proof
end

