-- ==== Sys2Proof/Syntax.lean ====
section
/-! DEFINITION. The commands of the block: one constructor per row of the opcode table, with the row's operands. -/

namespace Sys2Proof

/-- A network port P0A to P3B by its index (R13). -/
abbrev Port := Fin 8

/-- A port cluster C0 to C3. -/
abbrev Clu := Fin 4

/-- An engine by its index (R12): ME0 0, ME1 1, CnEm 2 + 3n + m. -/
abbrev Eng := Fin 14

/-- The boot pins at the release of a reset: BOOT_SEL (set: the host boots) and BOOT_DIV (R368). -/
structure Straps where
  sel : Bool
  div : BitVec 2
  deriving DecidableEq, Repr

/-- What the flash answers at start-up beside its array: its SFDP space from the first byte, and its two status
registers (R369). -/
structure FlashSpace where
  sfdp : List Byte
  regs : List Byte
  deriving DecidableEq, Repr

/-- Whether a frame's byte 0 reached the receive interface before the last write of PX.CTRL.EN of its own port took effect, and
before the last one of the partner's (R86, R87). -/
structure Before where
  own : Bool
  partner : Bool
  deriving DecidableEq, Repr

/-- A beat of a transmitter: the port, and the interpolator tap the beat falls on (R105). -/
structure Beat where
  port : Port
  tap : Nat
  deriving DecidableEq, Repr

/-- The commands of the block. -/
inductive Instr where
  /-- POWER_ON_RESET: AON_RST_N asserted resets everything, the always-on island included. (R391) -/
  | powerOnReset
  /-- RST_N_ASSERT: RST_N asserted drives the block outputs to their reset values and holds the block in reset. (R410) -/
  | rstNAssert (ns : Nat)
  /-- BLOCK_RESET: A block reset resets MGMT and CL0–CL3, keeps the always-on fields and leads into start-up. (R391) -/
  | blockReset (cause : Fin 4)
  /-- START_UP: After the block reset is released, the ROM loader is copied in and ME0 starts with the other engines parked. (R378) -/
  | startUp (host : Straps) (answers : Bool) (sfdp : FlashSpace) (record : List Bool) (fid : BitVec 64)
  /-- BOOT_GO: A secure write of GLB.BOOT.CTRL.GO starts the copy of a host image into the staging area. (R381) -/
  | bootGo
  /-- CLRFAIL: A write of CLRFAIL clears FAILA and FAILB. (R380) -/
  | clrfail
  /-- IMAGE_STAGED: Once the whole image is staged, the acceptance checks run and the REGSET, LOAD and CSPKG records are applied, or the slot fails. (R377) -/
  | imageStaged (bytes : List Byte) (err : Bool) (keyHash : BitVec 256) (mono : BitVec 32)
  /-- IMAGE_START: After the loads and the held-back fields, the loader sends each START entry and jumps ME0 to its ENTRY. (R378) -/
  | imageStart
  /-- ENGINE_RESET: An engine reset clears the engine's registers, EDB, message queue, first-level TLBs and instruction cache, and leaves it stopped. (R391) -/
  | engineReset (e : Eng)
  /-- CLUSTER_RESET: A cluster reset by command drains the ports, resets the cluster and reapplies its part of the staged image. (R392) -/
  | clusterReset (n : Clu) (keyHash : BitVec 256)
  /-- GRAIN_AVAILABLE: A received grain becomes available to the sequencer; grain 0 starts the frame's program. (R25) -/
  | grainAvailable (p : Port) (bytes : List Byte) (last thru : Bool) (before : Before) (age tap : Nat)
  /-- FRAME_START: The program for a frame starts: RUN and WPBANK are sampled, the flags and stack are cleared, and NXW fetches wire op 0. (R39) -/
  | frameStart (p : Port)
  /-- RELEASE_POINT: The release point of the current grain comes, and the grain is released to the transmit path. (R52) -/
  | releasePoint (p : Port)
  /-- FCS_VERDICT: The FCS verdict of a frame becomes known two ENG_CLK edges after its last grain becomes available. (R22) -/
  | fcsVerdict (p : Port)
  /-- BUFFER_COMMIT: One cycle after an armed CMT and a good verdict, FILL and READY swap, or the commit is refused for poison. (R73) -/
  | bufferCommit (p : Port)
  /-- RX_QUEUE_VISIBLE: A queued frame's entry becomes visible once its end, verdict and program end are known, and WR advances. (R78) -/
  | rxQueueVisible (p : Port)
  /-- UDF: UDF records the wire op in WSQ.UNDEF, sets UNDEF, cancels CMT and ends the program with the frame left intact. (R42) -/
  | udf (p : Port)
  /-- ILLEGAL_MICROWORD: An illegal microword or stack fault is recorded, cancels CMT, ends the program and stomps the frame. (R43) -/
  | illegalMicroword (p : Port)
  /-- NOP: Micro-op NOP does nothing for one cycle. (R37) -/
  | uNop (p : Port)
  /-- ALU: Micro-op ALU computes d from s and t with function fn. (R37) -/
  | uAlu (p : Port)
  /-- ALUI: Micro-op ALUI computes d from s and a zero-extended imm18. (R37) -/
  | uAlui (p : Port)
  /-- LDI: Micro-op LDI loads a zero-extended imm24 into d. (R37) -/
  | uLdi (p : Port)
  /-- LDIH: Micro-op LDIH loads imm24 into d bits [47:24]. (R37) -/
  | uLdih (p : Port)
  /-- MOVS: Micro-op MOVS reads a special register into r. (R35) -/
  | uMovs (p : Port)
  /-- MOVT: Micro-op MOVT writes r to a writable special register. (R35) -/
  | uMovt (p : Port)
  /-- EXT: Micro-op EXT reads a frame field into r, stalling for bytes not yet arrived. (R33) -/
  | uExt (p : Port)
  /-- DEP: Micro-op DEP deposits the low bytes of r into the frame. (R33) -/
  | uDep (p : Port)
  /-- INCF: Micro-op INCF adds x to a frame field modulo its width. (R37) -/
  | uIncf (p : Port)
  /-- FADD: Micro-op FADD adds sign-extended r to an 8-byte frame field. (R37) -/
  | uFadd (p : Port)
  /-- CPY: Micro-op CPY copies frame bytes into cluster memory through the write buffer. (R37) -/
  | uCpy (p : Port)
  /-- FIL: Micro-op FIL copies cluster-memory bytes into the frame. (R37) -/
  | uFil (p : Port)
  /-- LDM: Micro-op LDM loads cluster-memory bytes into r in the next port-0 turn. (R35) -/
  | uLdm (p : Port)
  /-- STM: Micro-op STM stores the low bytes of r to cluster memory through the write buffer. (R35) -/
  | uStm (p : Port)
  /-- ATM: Micro-op ATM atomically adds r to a cluster-memory field. (R37) -/
  | uAtm (p : Port)
  /-- CMPR: Micro-op CMPR sets a comparator's reference, mask and mode. (R37) -/
  | uCmpr (p : Port)
  /-- CMP: Micro-op CMP compares a register and latches the result. (R37) -/
  | uCmp (p : Port)
  /-- CMPF: Micro-op CMPF compares a frame field and latches the result. (R37) -/
  | uCmpf (p : Port)
  /-- BR: Micro-op BR jumps to tgt when the sampled condition equals pol. (R38) -/
  | uBr (p : Port)
  /-- JMP: Micro-op JMP jumps to tgt. (R37) -/
  | uJmp (p : Port)
  /-- CALL: Micro-op CALL pushes the return address and jumps; a fifth entry is a stack fault. (R37) -/
  | uCall (p : Port)
  /-- RET: Micro-op RET pops the return address; an empty stack is a stack fault. (R37) -/
  | uRet (p : Port)
  /-- NXW: Micro-op NXW fetches the wire op at WPC, loads WOP and dispatches through the table. (R39) -/
  | uNxw (p : Port)
  /-- WJMP: Micro-op WJMP sets WPC and then dispatches as NXW. (R37) -/
  | uWjmp (p : Port)
  /-- NXG: Micro-op NXG releases the current grain and makes the next grain current. (R34) -/
  | uNxg (p : Port)
  /-- SKTO: Micro-op SKTO releases every grain below the one holding an offset and makes that grain current. (R34) -/
  | uSkto (p : Port)
  /-- ENDF: Micro-op ENDF ends the program for the frame. (R40) -/
  | uEndf (p : Port)
  /-- CMT: Micro-op CMT arms the commit of the filling input buffer. (R37) -/
  | uCmt (p : Port)
  /-- DISC: Micro-op DISC discards the frame, before TXSTART unsent and after it stomped. (R54) -/
  | uDisc (p : Port)
  /-- WAIT: Micro-op WAIT stalls until its condition equals pol. (R38) -/
  | uWait (p : Port)
  /-- TSI: Micro-op TSI deposits a receive or transmit timestamp in the chosen format. (R37) -/
  | uTsi (p : Port)
  /-- SETF: Micro-op SETF sets F0 or F1 to a value. (R37) -/
  | uSetf (p : Port)
  /-- QUE: Micro-op QUE copies the frame into a receive queue of the owning engine, or drops it when the queue is full. (R78) -/
  | uQue (p : Port)
  /-- SIG: Micro-op SIG posts an event record into the event ring. (R79) -/
  | uSig (p : Port)
  /-- END: Wire op END ends the program. (R66) -/
  | wEnd (p : Port)
  /-- DROP: Wire op DROP discards the frame. (R66) -/
  | wDrop (p : Port)
  /-- WIRE_JMP: Wire op JMP continues at a wire-op index. (R66) -/
  | wJmp (p : Port)
  /-- JF: Wire op JF continues at an index when the flag is set. (R66) -/
  | wJf (p : Port)
  /-- WIRE_NOP: Wire op NOP does nothing. (R66) -/
  | wNop (p : Port)
  /-- COMMIT: Wire op COMMIT arms the commit. (R66) -/
  | wCommit (p : Port)
  /-- SIGNAL: Wire op SIGNAL posts event code 0x01 with its operand. (R66) -/
  | wSignal (p : Port)
  /-- SEEK: Wire op SEEK sets the cursor. (R66) -/
  | wSeek (p : Port)
  /-- ADV: Wire op ADV advances the cursor. (R66) -/
  | wAdv (p : Port)
  /-- SKIP: Wire op SKIP sets the cursor and releases the grains below it. (R66) -/
  | wSkip (p : Port)
  /-- TAGSKIP: Wire op TAGSKIP skips a VLAN tag at the cursor. (R66) -/
  | wTagskip (p : Port)
  /-- ADDW: Wire op ADDW adds to a 2-byte frame field. (R66) -/
  | wAddw (p : Port)
  /-- ADDL: Wire op ADDL adds to a 4-byte frame field. (R66) -/
  | wAddl (p : Port)
  /-- WIRE_SETF: Wire op SETF sets F0 or F1. (R66) -/
  | wSetf (p : Port)
  /-- MATET: Wire op MATET ends the program unless the EtherType matches. (R66) -/
  | wMatet (p : Port)
  /-- MATDA: Wire op MATDA ends the program unless the destination matches entry 0 or 1. (R66) -/
  | wMatda (p : Port)
  /-- MATCH: Wire op MATCH ends the program unless 6 bytes match a match entry. (R66) -/
  | wMatch (p : Port)
  /-- TEST: Wire op TEST sets F0 to the outcome of a match. (R66) -/
  | wTest (p : Port)
  /-- AGE: Wire op AGE deposits the output buffer's age. (R66) -/
  | wAge (p : Port)
  /-- RDB: Wire op RDBn copies 1 to 3 frame bytes into the input buffer. (R66) -/
  | wRdb (p : Port)
  /-- WRB: Wire op WRBn copies 1 to 3 output bytes into the frame. (R66) -/
  | wWrb (p : Port)
  /-- RD: Wire op RDn copies 4 to 64 frame bytes into the input buffer. (R66) -/
  | wRd (p : Port)
  /-- WR: Wire op WRn copies 4 to 64 output bytes into the frame. (R66) -/
  | wWr (p : Port)
  /-- TSRX: Wire op TSRX deposits the receive timestamp. (R66) -/
  | wTsrx (p : Port)
  /-- TSTX: Wire op TSTX deposits the transmit timestamp. (R66) -/
  | wTstx (p : Port)
  /-- TSIN: Wire op TSIN writes RXTS into the input buffer. (R66) -/
  | wTsin (p : Port)
  /-- CORR: Wire op CORR adds DELAY to an 8-byte correction field. (R66) -/
  | wCorr (p : Port)
  /-- WAITT: Wire op WAITT waits for TMR0 or TMR1. (R66) -/
  | wWaitt (p : Port)
  /-- WAITG: Wire op WAITG waits for GATE. (R66) -/
  | wWaitg (p : Port)
  /-- WAITW: Wire op WAITW waits for TTWIN. (R66) -/
  | wWaitw (p : Port)
  /-- QUEUE: Wire op QUEUE queues the frame and continues. (R66) -/
  | wQueue (p : Port)
  /-- QEND: Wire op QEND queues the frame and ends. (R66) -/
  | wQend (p : Port)
  /-- SINK: Wire op SINK queues the frame and discards it. (R66) -/
  | wSink (p : Port)
  /-- SEQCHK: Wire op SEQCHK applies IEEE 802.1CB recovery and discards rejected frames. (R85) -/
  | wSeqchk (p : Port)
  /-- SEQGEN: Wire op SEQGEN writes the stream's next sequence number. (R85) -/
  | wSeqgen (p : Port)
  /-- HSRCHK: Wire op HSRCHK applies HSR duplicate handling. (R85) -/
  | wHsrchk (p : Port)
  /-- PRPCHK: Wire op PRPCHK checks the PRP trailer and records the pair. (R85) -/
  | wPrpchk (p : Port)
  /-- TLHDR: Tiller op TLHDR checks the header, applies stale, claim, scout and forwarding rules, and handles non-SHEAF frames. (R148) -/
  | wTlhdr (p : Port)
  /-- TLSYNC: Tiller op TLSYNC stores the sync record, adds LINK and DELAY to CORR and posts event 0x40. (R148) -/
  | wTlsync (p : Port)
  /-- TLSUM: Tiller op TLSUM adds the node's contribution to a summation word. (R148) -/
  | wTlsum (p : Port)
  /-- TLREAD: Tiller op TLREAD copies a slot to the input buffer and applies the epoch checks. (R148) -/
  | wTlread (p : Port)
  /-- TLSLOT: Tiller op TLSLOT writes the node's own slot, unless a newer epoch fences it. (R148) -/
  | wTlslot (p : Port)
  /-- TLBUILD: Tiller op TLBUILD rewrites the launched frame's header and ages and writes the master's slot. (R153) -/
  | wTlbuild (p : Port)
  /-- TLCARRY: Tiller op TLCARRY copies the returned SHEAF into the carry buffer and checks word 0. (R153) -/
  | wTlcarry (p : Port)
  /-- TWCHK: Twin op TWCHK sets F1 to SBY. (R174) -/
  | wTwchk (p : Port)
  /-- CSLD_GO: A write of GO starts a control-store load, which first asks for its permit, or is refused with RESULT 3. (R48) -/
  | csldGo (p : Port)
  /-- CSLD_FIRST_PASS_DONE: The first pass ends its reading and checks; the second pass starts or the load fails. (R48) -/
  | csldFirstPassDone (p : Port) (keyHash : BitVec 256) (ext : List Byte) (err : Bool)
  /-- CSLD_SECOND_PASS_DONE: The second pass ends; the load reports its RESULT and DONE. (R48) -/
  | csldSecondPassDone (p : Port) (ext : List Byte) (err : Bool)
  /-- CSLD_ABORT: A write of ABORT ends a waiting or first-pass load with RESULT 5. (R48) -/
  | csldAbort (p : Port)
  /-- WPM_DATA_WRITE: A write of WSQ.WPM.DATA writes a wire op in the inactive bank and increments IDX. (R44) -/
  | wpmDataWrite (p : Port) (v : BitVec 32)
  /-- CS_ECC_WRITEBACK: A corrected control-store word is written back in the next idle cycle. (R49) -/
  | csEccWriteback (p : Port)
  /-- PORT_ENABLE: A write of 1 to PX.CTRL.EN samples LP.CFG and enables the port. (R87) -/
  | portEnable (p : Port)
  /-- PORT_DISABLE: A write of 0 to PX.CTRL.EN disables the port at its next frame boundary. (R86) -/
  | portDisable (p : Port)
  /-- PORT_DRAIN_DONE: The draining port has finished its frame and flushed its descriptors, and ENACT clears. (R86) -/
  | portDrainDone (p : Port)
  /-- TAKE: A write of PI.TAKE swaps HELD and READY when NEW is set. (R73) -/
  | take (p : Port)
  /-- PUBLISH: A write of PI.PUB swaps output FILL and READY and sets NEW. (R73) -/
  | publish (p : Port)
  /-- TX_DESCRIPTOR_START: The transmit MAC selects a queued descriptor by gate and class and starts its frame. (R82) -/
  | txDescriptorStart (p : Port) (tap : Nat)
  /-- TX_LAUNCH: A LAUNCH descriptor's LTIME becomes due, and its frame starts at the next beat or is refused as late-slot. (R105) -/
  | txLaunch (p : Port) (tap : Nat)
  /-- THRU_LAUNCH: A THRU frame enters the lauter pipeline, ending any received frame that still occupies the interface. (R81) -/
  | thruLaunch (p : Beat)
  /-- TX_COMPLETE: The block finishes a descriptor, writes STATUS and the stamp, clears OWN, advances HEAD and may post a completion record. (R81) -/
  | txComplete (p : Port)
  /-- TX_PREEMPT: A preemptable frame is preempted or ended early when a forwarded or express frame is due. (R84) -/
  | txPreempt (p : Port) (sent : Nat) (fwd : Bool)
  /-- GCL_CHANGE: A write of GCL.CTRL.CHANGE makes the administrative bank pending or sets CFGERR. (R83) -/
  | gclChange (p : Port)
  /-- GCL_ACTIVATE: The pending bank becomes operational at its cycle start. (R83) -/
  | gclActivate (p : Port)
  /-- GATE_INTERVAL_END: A gate-list entry's interval expires and the next entry's gate states apply. (R83) -/
  | gateIntervalEnd (p : Port)
  /-- STREAM_RESET_TIMER: A stream with no accepted frame for RESETMS returns to TakeAny. (R85) -/
  | streamResetTimer (n : Clu) (i : Fin 512)
  /-- DUP_FORGET: A duplicate-table entry is forgotten after FORGET milliseconds. (R85) -/
  | dupForget (n : Clu)
  /-- MI_LINK_UP: MIp_LINK rises and the port samples its rate. (R420) -/
  | miLinkUp (p : Fin 9) (rate : BitVec 3)
  /-- MI_LINK_DOWN: MIp_LINK falls and frames in progress on the port are ended. (R422) -/
  | miLinkDown (p : Fin 9)
  /-- TRANSMIT_SLIP: The transmit crossing finds the locking requirement broken and stomps the frame in flight. (R423) -/
  | transmitSlip (p : Port)
  /-- TIME_SET: A write of TU.Dd.CMD.SET loads the domain's time, or sets SETERR. (R94) -/
  | timeSet (d : Fin 4)
  /-- TIME_STEP: A write of TU.Dd.CMD.STEP adds the signed step to the domain's time. (R94) -/
  | timeStep (d : Fin 4)
  /-- ADJ_WRITE: A write of ADJ_H applies the 48-bit rate word, clamped if needed. (R93) -/
  | adjWrite (d : Fin 4) (v : BitVec 16)
  /-- CALIBRATION_ROUND: A calibration period expires and a calibration round asks for its permit. (R102) -/
  | calibrationRound
  /-- PORT_CALIBRATED: A port's calibration ends and its tap table is replaced. (R102) -/
  | portCalibrated (p : Fin 9)
  /-- CALSTALE: A port's count since calibration reaches 4 × CALPER and sets CALSTALE. (R102) -/
  | calstale (p : Fin 9)
  /-- PPS_PULSE: A domain's nanosecond field reaches OFFS and the PPS output starts a pulse. (R110) -/
  | ppsPulse (k : Fin 4)
  /-- PPS_PULSE_END: The PPS pulse ends after WIDTH. (R110) -/
  | ppsPulseEnd (k : Fin 4)
  /-- COMPARE_WRITE: A write of CMP_H applies the compare value and arms the channel. (R112) -/
  | compareWrite (n : Clu) (c : Fin 8) (v : BitVec 16)
  /-- DISARM: A write of DISARM disarms a compare channel. (R112) -/
  | disarm (n : Clu) (c : Fin 8)
  /-- COMPARE_MATCH: An armed compare channel is passed and fires: MATCH, pin action, reload and tick events. (R112) -/
  | compareMatch (n : Clu) (c : Fin 8)
  /-- COUNTER_WRAP: TMR.CNT wraps to 0, sets OVF and performs the overflow pin action. (R111) -/
  | counterWrap (n : Clu)
  /-- CAPTURE: A capture edge or event writes CAP, increments SEQ and sets FULL or CAPOVR. (R117) -/
  | capture (n : Clu) (i : Fin 4) (src : Nat) (rising : Bool) (age : Nat)
  /-- CAPTURE_READ: A read of CAP_H clears FULL. (R117) -/
  | captureRead (n : Clu) (i : Fin 4)
  /-- TMO_SET: A write of TU.TMO.SET sets TMO pins. (R115) -/
  | tmoSet (v : BitVec 32)
  /-- TMO_CLEAR: A write of TU.TMO.CLR clears TMO pins. (R115) -/
  | tmoClear (v : BitVec 32)
  /-- TMO_TOGGLE: A write of TU.TMO.TGL toggles TMO pins. (R115) -/
  | tmoToggle (v : BitVec 32)
  /-- WINDOW_PERIOD_START: A window table's period start comes and the line samples its table. (R106) -/
  | windowPeriodStart (n : Clu) (l : Fin 4)
  /-- DOMAIN_RESTART: A sleeping domain's clocks run again, and TIME and the counters are made up for the sleep. (R120) -/
  | domainRestart (dom : Fin 5) (n : BitVec 32)
  /-- RING_ENABLE: A write of TIL.RINGr.CTRL.EN sets the ring to LISTEN or OFF. (R139) -/
  | ringEnable (r : Clu) (en : Bool)
  /-- RENUM: A write of RENUM makes the master send a numbering scout. (R145) -/
  | renum (r : Clu)
  /-- CHECK: A write of CHECK makes the master send a check scout. (R145) -/
  | check (r : Clu)
  /-- RELISTEN: A write of RELISTEN returns the ring to LISTEN. (R139) -/
  | relisten (r : Clu)
  /-- LISTEN_EXPIRY: LISTEN microseconds pass with no SHEAF or CLAIM, and the ring claims or keeps claiming. (R140) -/
  | listenExpiry (r : Clu)
  /-- SHEAF_LOSS: No valid SHEAF for LOSS periods raises LOSS and returns a member to LISTEN. (R141) -/
  | sheafLoss (r : Clu)
  /-- SHEAF_LAUNCH: At each cycle start the master launches the SHEAF as a LAUNCH and THRU descriptor. (R151) -/
  | sheafLaunch (r : Clu)
  /-- CHECK_SCOUT_TIMER: Every 1,024 cycles the master sends a check scout. (R145) -/
  | checkScoutTimer (r : Clu)
  /-- LAYOUT_TIMEOUT: Word 1 has not reached NODES 1,024 cycles after the first LAYOUT frame, so the change is abandoned. (R147) -/
  | layoutTimeout (r : Clu)
  /-- ECHOREQ: Every ECHOPER microseconds port A sends an echo request upstream. (R155) -/
  | echoreq (r : Clu)
  /-- ROUTED_FORWARD: A router's firmware forwards or drops a ROUTED frame addressed to it. (R163) -/
  | routedForward (r : Clu) (body : List Byte)
  /-- TWIN_LEVEL_WRITE: A write of TWN.CTRL.LEVEL sets the twin level and starts or ends pairing. (R166) -/
  | twinLevelWrite (v : BitVec 2)
  /-- HELLO_SEND: A unit in SEEK sends HELLO every 100 µs. (R168) -/
  | helloSend
  /-- HELLO_RECEIVE: A received HELLO pairs the units into PUSH and PULL, or is refused. (R170) -/
  | helloReceive (f : List Byte)
  /-- SEEK_TIMEOUT: SEEKMS passes in SEEK; the unit raises SEEKTO and may enter SOLO. (R170) -/
  | seekTimeout
  /-- HEARTBEAT_SEND: A unit sends a HEARTBEAT on PT every 10 µs while alive or held. (R178) -/
  | heartbeatSend
  /-- HEARTBEAT_RECEIVE: A received heartbeat is checked, restarts the failure timer and may fence the unit. (R179) -/
  | heartbeatReceive (f : List Byte)
  /-- ALIVE_KICK: A write of TWN.ALIVE.KICK restarts the ALIVE interval. (R178) -/
  | aliveKick
  /-- ALIVE_EXPIRY: The ALIVE interval ends without a kick and heartbeats stop. (R178) -/
  | aliveExpiry
  /-- PARTNER_TIMEOUT: 30.5 µs pass without a valid heartbeat and the partner is declared failed. (R179) -/
  | partnerTimeout
  /-- PT_LINK_DOWN_TIMEOUT: PT reports link down for 2 µs and the partner is declared failed. (R179) -/
  | ptLinkDownTimeout
  /-- GONE_RECEIVE: A received GONE declares the partner failed. (R179) -/
  | goneReceive (f : List Byte)
  /-- CUT: At each TWN.CUTNS period start the active sends CUT with the cut count. (R176) -/
  | cut
  /-- CUT_RECEIVE: The standby applies the batch of region writes that precedes a received CUT. (R177) -/
  | cutReceive (f : List Byte)
  /-- PUBLISH_FRAME: A received whole publication is written into the standby's output FILL buffer and published. (R177) -/
  | publishFrame (f : List Byte)
  /-- WRITE_FRAME: A received region write is held until its CUT. (R177) -/
  | writeFrame (f : List Byte)
  /-- IMAGE_FRAME: A received IMAGE frame is written into the puller's memory. (R187) -/
  | imageFrame (f : List Byte)
  /-- RESYNC_SEND: On its permit the pusher sends the image, resends marked pages and ends at a cut with PAIRED. (R187) -/
  | resyncSend
  /-- DESYNC_RECEIVE: A received DESYNC sends the active to PUSH and the standby to PULL, or restarts the image. (R192) -/
  | desyncReceive (f : List Byte)
  /-- PT_FRAME_LOSS: A gap in SEQ or a bad FCS discards the incomplete batch and sends DESYNC. (R192) -/
  | ptFrameLoss (f : List Byte)
  /-- TWN_HANDOVER: A write of TWN.CTRL.HANDOVER schedules a planned handover at the next cut, or raises HOFAIL. (R186) -/
  | twnHandover
  /-- HANDOVER_FRAME: A received HANDOVER makes the standby answer with ACK. (R186) -/
  | handoverFrame (f : List Byte)
  /-- ACK_RECEIVE: A received ACK confirms the handover. (R186) -/
  | ackReceive (f : List Byte)
  /-- HANDOVER_ACK_TIMEOUT: No ACK has arrived 5 µs before cut c+1, so the handover is abandoned. (R186) -/
  | handoverAckTimeout
  /-- TWN_RESYNC: A write of TWN.CTRL.RESYNC on the active forces a full resynchronization. (R166) -/
  | twnResync
  /-- DELTAOVF: The capture buffer overflows, DESYNC is sent and the pair resynchronizes. (R176) -/
  | deltaovf
  /-- DUAL_MOVE: A dual-move bundle issues and performs its two moves. (R202) -/
  | dualMove (e : Eng)
  /-- LONG_IMMEDIATE: A long-immediate bundle moves a sign-extended 37-bit immediate to a port. (R205) -/
  | longImmediate (e : Eng)
  /-- COMPARE_AND_BRANCH: A compare-and-branch bundle tests two sources and branches after its delay bundle. (R206) -/
  | compareAndBranch (e : Eng)
  /-- REPEAT_PREFIX: A repeat prefix issues the following bundle c times. (R217) -/
  | repeatPrefix (e : Eng)
  /-- TRAP: TRAP #n raises the exception of vector 32 + n after it retires. (R207) -/
  | trap (e : Eng)
  /-- INTERRUPT_ENTRY: At an eligible boundary the highest enabled pending source above MASK is entered. (R268) -/
  | interruptEntry (e : Eng)
  /-- IMPRECISE_REPORT: A pending imprecise arithmetic or bus-error report is entered at an eligible boundary. (R276) -/
  | impreciseReport (e : Eng)
  /-- WATCHDOG_WARNING_ENTRY: A pending watchdog warning enters vector 12 at an eligible boundary, or escalates. (R281) -/
  | watchdogWarningEntry (e : Eng)
  /-- ENGINE_WATCHDOG_EXPIRY: The engine watchdog expires: the first time the warning becomes pending, the second time the engine is reset. (R281) -/
  | engineWatchdogExpiry (e : Eng)
  /-- ALU_ADD: ALU trigger ADD computes A + B and sets carry. (R234) -/
  | aluAdd (e : Eng) (u : Fin 2) (b : Word)
  /-- ALU_ADDC: ALU trigger ADDC computes A + B + C. (R234) -/
  | aluAddc (e : Eng) (u : Fin 2) (b : Word)
  /-- ALU_SUB: ALU trigger SUB computes A − B. (R234) -/
  | aluSub (e : Eng) (u : Fin 2) (b : Word)
  /-- ALU_SUBC: ALU trigger SUBC computes A − B − C. (R234) -/
  | aluSubc (e : Eng) (u : Fin 2) (b : Word)
  /-- ALU_RSUB: ALU trigger RSUB computes B − A. (R234) -/
  | aluRsub (e : Eng) (u : Fin 2) (b : Word)
  /-- ALU_AND: ALU trigger AND. (R234) -/
  | aluAnd (e : Eng) (u : Fin 2) (b : Word)
  /-- ALU_OR: ALU trigger OR. (R234) -/
  | aluOr (e : Eng) (u : Fin 2) (b : Word)
  /-- ALU_XOR: ALU trigger XOR. (R234) -/
  | aluXor (e : Eng) (u : Fin 2) (b : Word)
  /-- ALU_ANDN: ALU trigger ANDN computes A AND NOT B. (R234) -/
  | aluAndn (e : Eng) (u : Fin 2) (b : Word)
  /-- ALU_MIN: ALU trigger MIN gives the signed minimum. (R234) -/
  | aluMin (e : Eng) (u : Fin 2) (b : Word)
  /-- ALU_MAX: ALU trigger MAX gives the signed maximum. (R234) -/
  | aluMax (e : Eng) (u : Fin 2) (b : Word)
  /-- ALU_MINU: ALU trigger MINU gives the unsigned minimum. (R234) -/
  | aluMinu (e : Eng) (u : Fin 2) (b : Word)
  /-- ALU_MAXU: ALU trigger MAXU gives the unsigned maximum. (R234) -/
  | aluMaxu (e : Eng) (u : Fin 2) (b : Word)
  /-- ALU_ABS: ALU trigger ABS gives |B|. (R234) -/
  | aluAbs (e : Eng) (u : Fin 2) (b : Word)
  /-- ALU_NEG: ALU trigger NEG gives −B. (R234) -/
  | aluNeg (e : Eng) (u : Fin 2) (b : Word)
  /-- ALU_SEQ: ALU trigger SEQ gives 1 if A = B. (R234) -/
  | aluSeq (e : Eng) (u : Fin 2) (b : Word)
  /-- ALU_SLT: ALU trigger SLT gives 1 if A < B, signed. (R234) -/
  | aluSlt (e : Eng) (u : Fin 2) (b : Word)
  /-- ALU_SLTU: ALU trigger SLTU gives 1 if A < B, unsigned. (R234) -/
  | aluSltu (e : Eng) (u : Fin 2) (b : Word)
  /-- ALU_ADDS: ALU trigger ADDS gives the saturated sum. (R234) -/
  | aluAdds (e : Eng) (u : Fin 2) (b : Word)
  /-- ALU_SUBS: ALU trigger SUBS gives the saturated difference. (R234) -/
  | aluSubs (e : Eng) (u : Fin 2) (b : Word)
  /-- ALU_PASS: ALU trigger PASS gives B. (R234) -/
  | aluPass (e : Eng) (u : Fin 2) (b : Word)
  /-- MUL_MULS: Multiplier trigger MULS starts a signed product. (R236) -/
  | mulMuls (e : Eng) (b : Word)
  /-- MUL_MULU: Multiplier trigger MULU starts an unsigned product. (R236) -/
  | mulMulu (e : Eng) (b : Word)
  /-- MUL_MULSU: Multiplier trigger MULSU starts a mixed-sign product. (R236) -/
  | mulMulsu (e : Eng) (b : Word)
  /-- MUL_MAC: Multiplier trigger MAC starts a multiply-accumulate. (R237) -/
  | mulMac (e : Eng) (b : Word)
  /-- MUL_MSU: Multiplier trigger MSU starts a multiply-subtract. (R237) -/
  | mulMsu (e : Eng) (b : Word)
  /-- MUL_COMPLETE: A multiplier operation completes 4 cycles after its trigger and writes PH:PL. (R237) -/
  | mulComplete (e : Eng)
  /-- DIV_DIVS: Divider trigger DIVS starts a signed divide. (R238) -/
  | divDivs (e : Eng) (b : Word)
  /-- DIV_DIVU: Divider trigger DIVU starts an unsigned divide. (R238) -/
  | divDivu (e : Eng) (b : Word)
  /-- DIV_COMPLETE: The divide completes after 26 cycles with Q and REM. (R238) -/
  | divComplete (e : Eng)
  /-- SH_SHL: Shifter trigger SHL. (R239) -/
  | shShl (e : Eng) (b : Word)
  /-- SH_SHR: Shifter trigger SHR. (R239) -/
  | shShr (e : Eng) (b : Word)
  /-- SH_SAR: Shifter trigger SAR. (R239) -/
  | shSar (e : Eng) (b : Word)
  /-- SH_ROL: Shifter trigger ROL. (R239) -/
  | shRol (e : Eng) (b : Word)
  /-- SH_ROR: Shifter trigger ROR. (R239) -/
  | shRor (e : Eng) (b : Word)
  /-- SH_EXTU: Shifter trigger EXTU extracts a zero-extended field. (R239) -/
  | shExtu (e : Eng) (b : Word)
  /-- SH_EXTS: Shifter trigger EXTS extracts a sign-extended field. (R239) -/
  | shExts (e : Eng) (b : Word)
  /-- SH_INS: Shifter trigger INS inserts SH.I into a field. (R239) -/
  | shIns (e : Eng) (b : Word)
  /-- SH_CLZ: Shifter trigger CLZ counts leading zeros. (R239) -/
  | shClz (e : Eng) (b : Word)
  /-- SH_CTZ: Shifter trigger CTZ counts trailing zeros. (R239) -/
  | shCtz (e : Eng) (b : Word)
  /-- SH_POPC: Shifter trigger POPC counts set bits. (R239) -/
  | shPopc (e : Eng) (b : Word)
  /-- SH_BREV: Shifter trigger BREV reverses the bits. (R239) -/
  | shBrev (e : Eng) (b : Word)
  /-- SH_BSWAP: Shifter trigger BSWAP reverses 6 bytes. (R239) -/
  | shBswap (e : Eng) (b : Word)
  /-- SH_BSWAP4: Shifter trigger BSWAP4 reverses 4 bytes. (R239) -/
  | shBswap4 (e : Eng) (b : Word)
  /-- SH_BSWAP2: Shifter trigger BSWAP2 reverses 2 bytes. (R239) -/
  | shBswap2 (e : Eng) (b : Word)
  /-- AG_LD: Address-generator trigger LD loads at BANK:ADDR and post-updates. (R223) -/
  | agLd (e : Eng) (n : Fin 4) (w : Fin 9)
  /-- AG_LDX: Address-generator trigger LDX loads at an indexed address. (R223) -/
  | agLdx (e : Eng) (n : Fin 4) (v : Word) (w : Fin 9)
  /-- AG_ST: Address-generator trigger ST stores at BANK:ADDR and post-updates. (R223) -/
  | agSt (e : Eng) (n : Fin 4) (v : Word) (w : Fin 9)
  /-- AG_LR: Address-generator trigger LR loads and sets the reservation. (R227) -/
  | agLr (e : Eng) (n : Fin 4) (w : Fin 9)
  /-- AG_SC: Address-generator trigger SC stores only under the reservation and reports in SCR. (R228) -/
  | agSc (e : Eng) (n : Fin 4) (v : Word) (w : Fin 9)
  /-- AG_SYNC: Address-generator trigger SYNC stalls until earlier stores complete. (R223) -/
  | agSync (e : Eng) (n : Fin 4)
  /-- LOAD_COMPLETE: A load's data arrives in LDD, or SC's result in SCR. (R225) -/
  | loadComplete (e : Eng) (n : Fin 4)
  /-- STORE_COMPLETE: A posted store completes at its target. (R225) -/
  | storeComplete (e : Eng) (i : Nat)
  /-- BUS_ERROR_RESPONSE: An error response to an address-generator access makes an imprecise bus error pending. (R277) -/
  | busErrorResponse (e : Eng) (n : Fin 4) (store : Bool)
  /-- ICACHE_FILL: An instruction-cache line fill completes. (R242) -/
  | icacheFill (e : Eng) (which : Fin 5) (data : List Byte) (err : Bool) (evict : Nat)
  /-- TABLE_WALK: In walker mode a TLB miss starts a three-level table walk. (R328) -/
  | tableWalk (e : Eng)
  /-- WALK_READ_DONE: A descriptor read returns and the walk checks it, goes on, marks, installs or faults. (R328) -/
  | walkReadDone (e : Eng) (data : BitVec 64) (err : Bool)
  /-- BR_JMP: A move to BR.JMP jumps after one delay bundle. (R212) -/
  | brJmp (e : Eng) (v : Word)
  /-- BR_CALL: A move to BR.CALL writes BR.LINK and jumps after one delay bundle. (R212) -/
  | brCall (e : Eng) (v : Word)
  /-- IC_INV: A move to IC.INV invalidates one instruction-cache line. (R242) -/
  | icInv (e : Eng) (v : Word)
  /-- IC_INVALL: A move to IC.INVALL invalidates the whole instruction cache. (R242) -/
  | icInvall (e : Eng)
  /-- LOOP_CNT_WRITE: A move to LOOP.CNT sets or clears the loop-active bit. (R215) -/
  | loopCntWrite (e : Eng) (v : Word)
  /-- EXC_RET: A move to EXC.RET restores PC and SR and reloads the frame registers. (R275) -/
  | excRet (e : Eng)
  /-- EXC_SWI: A move to EXC.SWI raises or clears SWI0 and SWI1. (R267) -/
  | excSwi (e : Eng) (v : Word)
  /-- EXC_WDKICK: A move to EXC.WDKICK reloads the engine watchdog. (R280) -/
  | excWdkick (e : Eng)
  /-- EXC_SR_WRITE: A move to EXC.SR changes the status at the next bundle boundary. (R264) -/
  | excSrWrite (e : Eng) (v : Word)
  /-- SEM_TAKE: An engine read of SEM.TAKE tries to acquire semaphore SEM.IDX. (R295) -/
  | semTake (e : Eng) (d : Fin 64)
  /-- SEM_GIVE: An engine move to SEM.GIVE frees a semaphore it holds. (R295) -/
  | semGive (e : Eng) (v : Word)
  /-- EDB_RING: A move to EDB.RING rings bits in a target engine's doorbell. (R245) -/
  | edbRing (e : Eng) (v : Word)
  /-- EDB_CLR: A move to EDB.CLR clears bits of the engine's own doorbell. (R245) -/
  | edbClr (e : Eng) (v : Word)
  /-- MSG_SEND: A move to MSG.SEND appends a value to a target engine's inbound queue. (R245) -/
  | msgSend (e : Eng) (v : Word)
  /-- MSG_DELIVER: A SEND or RING reaches its target 4 or 8 cycles later, or fails; a parked engine starts at the message value. (R246) -/
  | msgDeliver (src tgt : Eng)
  /-- MSG_RECV: A read of MSG.RECV removes and returns the oldest entry. (R245) -/
  | msgRecv (e : Eng) (d : Fin 64)
  /-- HDB_RING: A move to HDB.RING rings host-bound doorbells after earlier B2H stores complete. (R247) -/
  | hdbRing (m : Fin 2) (v : Word)
  /-- HDB_CLR: A move to HDB.CLR clears block-bound doorbells. (R247) -/
  | hdbClr (m : Fin 2) (v : Word)
  /-- SQ_RXPOP: A move to SQ.RXPOP advances a receive queue's RD. (R248) -/
  | sqRxpop (c : Fin 12) (v : Word)
  /-- SQ_EVPOP: A move to SQ.EVPOP advances EVRD. (R248) -/
  | sqEvpop (c : Fin 12) (v : Word)
  /-- SQ_CMDPUSH: A move to SQ.CMDPUSH advances CMDWR after earlier stores complete. (R248) -/
  | sqCmdpush (c : Fin 12)
  /-- CRC_D1: A move to CRC.D1 feeds one byte to the CRC. (R249) -/
  | crcD1 (e : Eng) (v : Word)
  /-- CRC_D2: A move to CRC.D2 feeds two bytes. (R249) -/
  | crcD2 (e : Eng) (v : Word)
  /-- CRC_D4: A move to CRC.D4 feeds four bytes. (R249) -/
  | crcD4 (e : Eng) (v : Word)
  /-- CRC_D6: A move to CRC.D6 feeds six bytes. (R249) -/
  | crcD6 (e : Eng) (v : Word)
  /-- TM_HI: A read of TM.HId returns a domain's TIME_HI. (R251) -/
  | tmHi (e : Eng) (k : Fin 4) (d : Fin 64)
  /-- TM_LO: A read of TM.LOd returns a domain's TIME_LO. (R251) -/
  | tmLo (e : Eng) (k : Fin 4) (d : Fin 64)
  /-- TM_ADJ_READ: A read of TM.ADJd returns a domain's rate word. (R251) -/
  | tmAdjRead (e : Eng) (k : Fin 4) (d : Fin 64)
  /-- TM_ADJ_WRITE: A move to TM.ADJd applies a domain's 48-bit rate word. (R251) -/
  | tmAdjWrite (e : Eng) (k : Fin 4) (v : Word)
  /-- TM_CMP: A move to TM.CMP writes and arms compare channel c. (R250) -/
  | tmCmp (c : Fin 12) (v : Word)
  /-- TM_CAP: A read of TM.CAP reads capture i and clears FULL. (R250) -/
  | tmCap (c : Fin 12) (d : Fin 64)
  /-- TRC_NOTE: A move to TRC.NOTEt emits a NOTE packet. (R252) -/
  | trcNote (e : Eng) (t : Fin 32) (v : Word)
  /-- TLB_WI: TLB.WI writes an entry into the instruction TLB. (R321) -/
  | tlbWi (e : Eng) (d : Fin 64)
  /-- TLB_WD: TLB.WD writes an entry into the data TLB. (R321) -/
  | tlbWd (e : Eng) (d : Fin 64)
  /-- TLB_W2: TLB.W2 writes an entry into the second-level TLB. (R321) -/
  | tlbW2 (e : Eng) (d : Fin 64)
  /-- TLB_PROBE: TLB.PROBE looks up G62 and returns the entry. (R323) -/
  | tlbProbe (e : Eng) (d : Fin 64)
  /-- TLB_INVVA: TLB.INVVA invalidates the own entries covering G62. (R253) -/
  | tlbInvva (e : Eng) (d : Fin 64)
  /-- TLB_INVALL: TLB.INVALL invalidates the own first-level TLBs. (R253) -/
  | tlbInvall (e : Eng) (d : Fin 64)
  /-- TLB_INV2: TLB.INV2 invalidates second-level entries covering G62. (R253) -/
  | tlbInv2 (e : Eng) (d : Fin 64)
  /-- TLB_INV2ALL: TLB.INV2ALL invalidates the whole second-level TLB. (R253) -/
  | tlbInv2all (e : Eng) (d : Fin 64)
  /-- HUSK_WRITE: A move to a husk port starts a write transaction on the husk interface. (R256) -/
  | huskWrite (e : Eng)
  /-- HUSK_READ: A move from a husk port starts a read transaction. (R256) -/
  | huskRead (e : Eng)
  /-- HSK_ACK: The licensee's HSK_ACK completes the transaction, or HSK_ERR gives a bus error, or a stray ACK is counted. (R256) -/
  | hskAck (data : Word) (err : Bool)
  /-- HUSK_TIMEOUT: No ACK by cycle 128: HSK_ABORT is sent and the engine takes the husk timeout. (R257) -/
  | huskTimeout
  /-- HSK_INT: A change of HSK_INT[i] changes engine i's HSK source. (R266) -/
  | hskInt (e : Eng) (level : Bool)
  /-- SP_OWNER_WRITE: A write of SPi.OWNER begins a scratchpad handover or sets OWNBUSY. (R292) -/
  | spOwnerWrite (i : Eng) (v : BitVec 2)
  /-- SP_HANDOVER_DONE: The old owner's accepted accesses complete, PEND falls and the new owner is admitted. (R292) -/
  | spHandoverDone (i : Eng)
  /-- SET_ALIAS_WRITE: A write through the set alias ORs the value into memory atomically. (R293) -/
  | setAliasWrite (req : Fin 21) (a : BitVec 27) (bs : List Byte)
  /-- CLEAR_ALIAS_WRITE: A write through the clear alias clears the value's bits atomically. (R293) -/
  | clearAliasWrite (req : Fin 21) (a : BitVec 27) (bs : List Byte)
  /-- SEM_TAKE_READ: A host read of SEM.TAKEk tries to acquire the semaphore. (R316) -/
  | semTakeRead (k : Fin 64)
  /-- SEM_GIVE_WRITE: A host write of SEM.GIVE gives a semaphore as requester 14. (R316) -/
  | semGiveWrite (k : Fin 64)
  /-- SEM_FORCE: A write of SEM.FORCE frees semaphores whoever holds them. (R297) -/
  | semForce (m : BitVec 64)
  /-- ECC_WRITEBACK: A corrected codeword is written back in the bank's next cycle. (R298) -/
  | eccWriteback (k : Nat)
  /-- GRANARY_TEST_START: A granary test starts after GAPMS or a GRAN command and asks for its copy permit. (R309) -/
  | granaryTestStart
  /-- GRANARY_COPY_DONE: The copy ends and the mapping swaps logical bank L to the spare. (R306) -/
  | granaryCopyDone
  /-- GRANARY_MARCH_DONE: The march ends: the bank becomes the spare, or is retired on a mismatch. (R307) -/
  | granaryMarchDone (bad : Option (BitVec 15))
  /-- MEMT_GRAN: A write of MEMT.CMD.GRAN requests one granary test under SCHEDULED. (R310) -/
  | memtGran
  /-- MEMT_SP: A write of MEMT.CMD.SP requests one scratchpad loan offer under SCHEDULED. (R310) -/
  | memtSp (i : BitVec 4)
  /-- SCRATCHPAD_LOAN: With its permit the tester lends a stopped engine's scratchpad to itself and tests it. (R311) -/
  | scratchpadLoan
  /-- LOAN_END: The loan test ends, ownership returns and held wake events are served. (R313) -/
  | loanEnd (mismatch : Bool)
  /-- SHOOTDOWN_GO: A write of SD.CTRL.GO removes entries from the named TLBs and sets BUSY. (R333) -/
  | shootdownGo (eng : BitVec 14) (l2 : BitVec 5) (all ic : Bool)
  /-- SHOOTDOWN_DONE: Accesses under removed entries complete and BUSY falls. (R333) -/
  | shootdownDone
  /-- H2B_WRITE: A host write of H2B writes the mailbox, or is refused with BUSY while HFULL is set. (R345) -/
  | h2bWrite (sec : Bool) (c : Fin 4) (w : BitVec 8) (v : BitVec 32)
  /-- BB_RING: A host W1S of DB.BB rings block-bound doorbells. (R342) -/
  | bbRing (sec : Bool) (c : Fin 4) (v : BitVec 32)
  /-- HB_CLEAR: A host W1C of DB.HB clears host-bound doorbells; clearing MSG rings FREED. (R342) -/
  | hbClear (sec : Bool) (c : Fin 4) (v : BitVec 32)
  /-- CROSSING: Both mailboxes stay full for XUS microseconds and CROSS is raised. (R347) -/
  | crossing (c : Fin 4)
  /-- COMMAND_CONSUME: The firmware consumes a command from H2B, checks it, clears CMD and rings TAKEN. (R350) -/
  | commandConsume (c : Fin 4)
  /-- REPLY_POST: A reply or event waiting for BFULL = 0 is written to B2H and MSG rings. (R352) -/
  | replyPost (c : Fin 4)
  /-- COUNTER_POLL: At least every 100 ms the firmware reads the RC counters into its accumulators. (R355) -/
  | counterPoll
  /-- HOST_NOP: Command NOP tests liveness. (R354) -/
  | hostNop (c : Fin 4) (tag : BitVec 16)
  /-- ABORT: Command ABORT withdraws an outstanding command or reports it late. (R358) -/
  | abort (c : Fin 4)
  /-- INFO: Command INFO returns the part, release, image and factory ID. (R354) -/
  | info (c : Fin 4) (tag : BitVec 16)
  /-- RESET: Command RESET replies and then resets the block, a cluster or an engine. (R354) -/
  | reset (c : Fin 4) (tag : BitVec 16)
  /-- RESET_TAKE_EFFECT: The reset ordered by RESET occurs when MSG is cleared or 1 ms after the reply. (R354) -/
  | resetTakeEffect
  /-- ENGSTART: Command ENGSTART frees the engine's semaphores and releases it at ENTRY. (R359) -/
  | engstart (c : Fin 4) (tag : BitVec 16)
  /-- ENGSTOP: Command ENGSTOP holds an engine out of running. (R354) -/
  | engstop (c : Fin 4) (tag : BitVec 16)
  /-- EVENTS: Command EVENTS sets the channel's event groups. (R353) -/
  | events (c : Fin 4) (tag : BitVec 16)
  /-- IMGINFO: Command IMGINFO reports a slot's image. (R354) -/
  | imginfo (c : Fin 4) (tag : BitVec 16) (flash : List Byte)
  /-- IMGWRITE: Command IMGWRITE programs flash from memory. (R354) -/
  | imgwrite (c : Fin 4) (tag : BitVec 16) (ext : List Byte) (err fail late : Bool)
  /-- IMGVERIFY: Command IMGVERIFY applies the acceptance checks to a slot. (R377) -/
  | imgverify (c : Fin 4) (tag : BitVec 16) (flash : List Byte) (keyHash : BitVec 256) (mono : BitVec 32) (late : Bool)
  /-- IMGSELECT: Command IMGSELECT sets PREF and clears the failure bits. (R380) -/
  | imgselect (c : Fin 4) (tag : BitVec 16)
  /-- PORTEN: Command PORTEN enables or disables a port and replies when ENACT matches. (R354) -/
  | porten (c : Fin 4) (tag : BitVec 16) (late : Bool)
  /-- PORTCFG: Command PORTCFG sets a disabled port's depth, egress, mode and owner. (R354) -/
  | portcfg (c : Fin 4) (tag : BitVec 16)
  /-- PORTSTAT: Command PORTSTAT reports a port's accumulated counters. (R355) -/
  | portstat (c : Fin 4) (tag : BitVec 16)
  /-- CSLOAD: Command CSLOAD runs a control-store load. (R354) -/
  | csload (c : Fin 4) (tag : BitVec 16) (late : Bool)
  /-- WPWRITE: Command WPWRITE writes wire ops into the inactive bank. (R354) -/
  | wpwrite (c : Fin 4) (tag : BitVec 16)
  /-- WPSWITCH: Command WPSWITCH switches the wire-program bank. (R354) -/
  | wpswitch (c : Fin 4) (tag : BitVec 16) (late : Bool)
  /-- WPREAD: Command WPREAD returns wire ops. (R354) -/
  | wpread (c : Fin 4) (tag : BitVec 16)
  /-- TIMEGET: Command TIMEGET returns a consistent reading of a domain's time. (R354) -/
  | timeget (c : Fin 4) (tag : BitVec 16)
  /-- TIMESET: Command TIMESET sets a domain's time. (R354) -/
  | timeset (c : Fin 4) (tag : BitVec 16)
  /-- TIMEADJ: Command TIMEADJ writes ADJ and issues a STEP. (R354) -/
  | timeadj (c : Fin 4) (tag : BitVec 16)
  /-- PTPCFG: Command PTPCFG starts or stops time-protocol firmware on ports. (R357) -/
  | ptpcfg (c : Fin 4) (tag : BitVec 16)
  /-- RINGCTL: Command RINGCTL switches a ring or orders RELISTEN, RENUM or CHECK. (R354) -/
  | ringctl (c : Fin 4) (tag : BitVec 16)
  /-- RINGSTAT: Command RINGSTAT reports a ring's state. (R354) -/
  | ringstat (c : Fin 4) (tag : BitVec 16)
  /-- ROUTESET: Command ROUTESET writes routing-table entries. (R354) -/
  | routeset (c : Fin 4) (tag : BitVec 16)
  /-- SLOTREQ: Command SLOTREQ sets the requested slot length. (R354) -/
  | slotreq (c : Fin 4) (tag : BitVec 16)
  /-- TWINSTAT: Command TWINSTAT reports the twin state. (R354) -/
  | twinstat (c : Fin 4) (tag : BitVec 16)
  /-- HANDOVER: Command HANDOVER orders a planned handover and replies at the cut. (R354) -/
  | handover (c : Fin 4) (tag : BitVec 16) (late : Bool)
  /-- RESYNC: Command RESYNC forces a resynchronization and replies at PAIRED. (R354) -/
  | resync (c : Fin 4) (tag : BitVec 16) (late : Bool)
  /-- TWINLEVEL: Command TWINLEVEL sets the twin level and rings. (R354) -/
  | twinlevel (c : Fin 4) (tag : BitVec 16)
  /-- MTPOLICY: Command MTPOLICY sets the memory-test policy. (R354) -/
  | mtpolicy (c : Fin 4) (tag : BitVec 16)
  /-- MTSTATUS: Command MTSTATUS reports the memory tester. (R354) -/
  | mtstatus (c : Fin 4) (tag : BitVec 16)
  /-- SPOWNER: Command SPOWNER hands a scratchpad over. (R354) -/
  | spowner (c : Fin 4) (tag : BitVec 16)
  /-- SEMFREE: Command SEMFREE forces semaphores free. (R354) -/
  | semfree (c : Fin 4) (tag : BitVec 16)
  /-- MODE: Command MODE changes power modes of domains in R10 order. (R396) -/
  | mode (c : Fin 4) (tag : BitVec 16) (late : Bool)
  /-- GRIST: Command GRIST sets one grist setting. (R405) -/
  | grist (c : Fin 4) (tag : BitVec 16)
  /-- GRISTGET: Command GRISTGET reads one grist setting. (R405) -/
  | gristget (c : Fin 4) (tag : BitVec 16)
  /-- PERMITSTAT: Command PERMITSTAT reports the permit budget and queue. (R354) -/
  | permitstat (c : Fin 4) (tag : BitVec 16)
  /-- COUNTERS: Command COUNTERS reports and may clear accumulated counters. (R356) -/
  | counters (c : Fin 4) (tag : BitVec 16)
  /-- FAULTLOG: Command FAULTLOG reports the fault records. (R354) -/
  | faultlog (c : Fin 4) (tag : BitVec 16)
  /-- ECHO: Command ECHO returns its parameter bytes. (R354) -/
  | echo (c : Fin 4) (tag : BitVec 16)
  /-- DMA_GO: A write of DMA GO starts a channel's register transfer or chain. (R364) -/
  | dmaGo (c : Fin 4) (sec : Bool)
  /-- DMA_DESCRIPTOR_READ: A channel reads a descriptor whole before moving its bytes. (R365) -/
  | dmaDescriptorRead (c : Fin 4) (ext : List Byte) (err : Bool)
  /-- DMA_CHUNK: A channel moves one chunk and, after the last, writes status and notifies. (R364) -/
  | dmaChunk (c : Fin 4) (ext : List Byte) (err werr : Bool)
  /-- DMA_ABORT: A write of DMA ABORT stops the channel after the chunk in progress. (R365) -/
  | dmaAbort (c : Fin 4)
  /-- CRY_SHA256: A crypto job with OP 0 computes a SHA-256 digest. (R385) -/
  | crySha256 (ext : List Byte) (err : Bool)
  /-- CRY_HMAC: A crypto job with OP 1 computes HMAC-SHA-256. (R385) -/
  | cryHmac (ext : List Byte) (err : Bool)
  /-- CRY_VERIFY: A crypto job with OP 2 verifies an ECDSA P-256 signature. (R385) -/
  | cryVerify (ext : List Byte) (err : Bool)
  /-- CRY_ENCRYPT: A crypto job with OP 3 performs AES-GCM encryption. (R385) -/
  | cryEncrypt (ext aad : List Byte) (err werr : Bool)
  /-- CRY_DECRYPT: A crypto job with OP 4 performs AES-GCM decryption and zeroes the output on tag failure. (R385) -/
  | cryDecrypt (ext aad : List Byte) (err werr : Bool)
  /-- CRY_RESERVED_OP: A crypto job with a reserved OP ends with RESULT PARAM. (R385) -/
  | cryReservedOp
  /-- CRY_DONE: A firmware crypto job ends, sets DONE and RESULT and may notify an engine. (R385) -/
  | cryDone
  /-- CRY_ABORT: A write of CRY ABORT ends the job after the block in progress. (R385) -/
  | cryAbort
  /-- POWER_REQUEST: A write of PWR.REQ.GO requests a domain's mode change, or is refused. (R396) -/
  | powerRequest (d m : Fin 8)
  /-- PCH_ACK: PCH_ACK rises and the domain is in its new mode. (R397) -/
  | pchAck (keyHash : BitVec 256)
  /-- PCH_TIMEOUT: PCH_ACK has not risen 1 ms after PCH_REQ: PCTO is set and the domain stays in its old mode. (R397) -/
  | pchTimeout
  /-- PCH_WAKE: PCH_WAKE rises and wakes the selected sleeping domains. (R399) -/
  | pchWake
  /-- WAKE_TIMER: The wake timer expires and wakes the selected domains. (R398) -/
  | wakeTimer
  /-- ENGINE_PARK: A write of PWR.EIDLE parks engines at their next boundary and gates their clocks. (R395) -/
  | enginePark (m : BitVec 14)
  /-- ENGINE_WAKE: A wake condition takes a parked engine out of IDLE. (R395) -/
  | engineWake (e : Eng)
  /-- BLOCK_WATCHDOG_EXPIRY: The block watchdog expires, sends GONE if paired and resets the block. (R393) -/
  | blockWatchdogExpiry
  /-- GLB_WDOG_KICK: A write of GLB.WDOG.KICK reloads the block watchdog. (R393) -/
  | glbWdogKick
  /-- PERMIT_REQUEST: A requester asks for a permit and joins the queue or is set aside. (R404) -/
  | permitRequest (r : Fin 13) (op : Nat)
  /-- PERMIT_GRANT: The head of the queue fits the available budget and is granted. (R404) -/
  | permitGrant
  /-- PERMIT_RELEASE: A requester releases its permit. (R402) -/
  | permitRelease (r : Fin 13)
  /-- BUDGET_CHANGE: BUDGET is recomputed and requests are set aside or rejoin the queue. (R403) -/
  | budgetChange
  /-- SLAVE_ACCESS: A slave-port command to a memory window or alias is served, or refused with an error status. (R415) -/
  | slaveAccess (write : Bool) (cnt : Fin 16) (sz : Fin 8) (wrap : Bool) (tag : BitVec 8) (sec : Bool) (addr : BitVec 27) (beats : List (BitVec 128 × BitVec 16)) (credit : Bool)
  /-- REGISTER_WRITE: A write to a register with no row of its own applies its access type. (R5) -/
  | registerWrite (sec : Bool) (a : BitVec 22) (v : BitVec 32)
  /-- MASTER_RESPONSE: A read beat or write completion returns on the master port to its requester. (R419) -/
  | masterResponse (e : Eng) (wr : Bool) (data : List Byte) (err credit : Bool)
  /-- BL_TXD: A write of BL.TXD queues a character or bit group in the transmit FIFO. (R425) -/
  | blTxd (k : Fin 8) (v : BitVec 32)
  /-- BL_TRANSMIT_START: A bit line starts its occupancy, raising DE and sending queued entries. (R426) -/
  | blTransmitStart (k : Fin 8)
  /-- BL_TRANSMIT_END: The transmit FIFO empties and DE falls after LAG. (R426) -/
  | blTransmitEnd (k : Fin 8) (lost : Option Nat)
  /-- BL_RECEIVE: A received character or 16-bit group enters BL.RXD, or is dropped. (R425) -/
  | blReceive (k : Fin 8) (data : List Bool) (err par : Bool)
  /-- BL_RXD_READ: A read of BL.RXD removes the oldest entry. (R428) -/
  | blRxdRead (k : Fin 8)
  /-- BL_TSTART: A write of BL.TSTART_H arms a timed start. (R427) -/
  | blTstart (k : Fin 8) (v : BitVec 16)
  /-- TIMED_START_DUE: The armed start time is due and the line starts or is refused as late. (R427) -/
  | timedStartDue (k : Fin 8)
  /-- BL_DISARM: A write of BL.DISARM disarms a timed start. (R428) -/
  | blDisarm (k : Fin 8)
  /-- DEBUG_UNLOCK: An accepted unlock request halts, stops and erases the block. (R446) -/
  | debugUnlock (v : BitVec 32)
  /-- UNLOCK_ERASE_DONE: The erase completes, ERASING clears and OPEN is set. (R446) -/
  | unlockEraseDone
  /-- TAP_ACCESS: An Update-DR under ACCESS issues one register access. (R449) -/
  | tapAccess (a : BitVec 27) (write active : Bool) (v : BitVec 32)
  /-- TAP_IDENT: A Capture-DR under IDENT loads the identification word. (R448) -/
  | tapIdent
  /-- HALT_REQUEST: A write of DBG.HALTREQ requests engines to halt. (R450) -/
  | haltRequest (m : BitVec 14)
  /-- ENGINE_HALT: An engine halts, records PC, NPC and cause, and loses its reservation. (R451) -/
  | engineHalt (e : Eng)
  /-- HG_GO: A write of HG.CTRL.GO makes a halt group act. (R455) -/
  | hgGo (g : Fin 4)
  /-- HG_RESUME: A write of HG.CTRL.RESUME resumes the group's STOP engines. (R455) -/
  | hgResume (g : Fin 4)
  /-- DEBUG_RESUME: A write of DBG.RESUME restarts halted engines. (R453) -/
  | debugResume (m : BitVec 14)
  /-- DEBUG_STEP: A write of DBG.STEP runs one bundle and halts again. (R453) -/
  | debugStep (m : BitVec 14)
  /-- DEBUG_PC_WRITE: A write of PC_H sets a halted engine's PC and clears DS. (R453) -/
  | debugPcWrite (e : Eng) (v : BitVec 16)
  /-- PDATA_READ: A read of PDATA_L reads a port of a halted engine, quietly or actively. (R454) -/
  | pdataRead (e : Eng)
  /-- PDATA_WRITE: A write of PDATA_H moves a value to a port of a halted engine. (R454) -/
  | pdataWrite (e : Eng) (v : BitVec 16)
  /-- TRACE_ENABLE: A write of TRC.CTRL.EN starts trace with a SYNC, or empties the FIFO. (R462) -/
  | traceEnable (on : Bool)
  /-- TRACE_SYNC: SYNCPER × 256 words or 32,768 idle cycles pass and a SYNC packet is emitted. (R462) -/
  | traceSync
  /-- SCAN_MODE: SCAN_MODE rises, the block erases as for an unlock and connects the scan chains. (R442) -/
  | scanMode
  /-- PCH_ACK_FALL: The chip lowers PCH_ACK after the block lowered PCH_REQ, completing the four-phase handshake so the next domain's handshake may begin. (R397) -/
  | pchAckFall
  /-- RC_READ: A read of an RC register or field returns its value and clears it, with the same-cycle rule of R7 for counters. (R5) -/
  | rcRead (sec : Bool) (a : BitVec 22)
  /-- CREDIT_GRANT: A credit pulse on a CRD input of the slave or master port grants the block one credit for that lane. (R413) -/
  | creditGrant (lane : Fin 4)
  /-- TAP_RESET: TRST_N or the Test-Logic-Reset state resets the debug TAP and selects IDENT. (R448) -/
  | tapReset
  /-- IEEE_802_3BR_VERIFICATION: The IEEE 802.3br verification exchange of the MAC merge sublayer succeeds and sets GCL.STAT.VERIFIED, activating preemption. (R84) -/
  | ieee8023brVerification (p : Port)
  deriving DecidableEq, Repr

end Sys2Proof
end

