-- ==== Sys2Proof/Decode.lean ====
section
/-! DEFINITION. The command that a word of the opcode table spells. -/

namespace Sys2Proof

/-- The opcode table names the block's commands and gives none of its rows any bits, so no word spells a command (log entry
40). The encodings that the manual does give, of microwords, wire ops and bundles, are decoded in Machine/Microword.lean,
Machine/Tun.lean and Machine/Bundle.lean. -/
def decodeTableWord (_nbits _w : Nat) : Option Instr := none

end Sys2Proof
end

