-- ==== Sys2Proof/Machine/Microword.lean ====
section
/-! DEFINITION. Microwords: the micro-ops of R37 with their operands, the decoder of R36 and R37, and the encoder. -/

namespace Sys2Proof.Machine

/-- The micro-ops of R37, UDF apart, with the fields of their formats (R36). -/
inductive UOp where
  | nop
  | alu (d s t : BitVec 2) (fn : BitVec 4)
  | alui (d s : BitVec 2) (fn : BitVec 4) (imm : BitVec 18)
  | ldi (d : BitVec 2) (imm : BitVec 24)
  | ldih (d : BitVec 2) (imm : BitVec 24)
  | movs (r : BitVec 2) (spec : BitVec 6)
  | movt (r : BitVec 2) (spec : BitVec 6)
  | ext (r s : BitVec 2) (e : Bool) (len : BitVec 3) (disp : BitVec 12)
  | dep (r s : BitVec 2) (e : Bool) (len : BitVec 3) (disp : BitVec 12)
  | incf (s : BitVec 2) (e : Bool) (len : BitVec 3) (disp : BitVec 12) (x : BitVec 6)
  | fadd (r s : BitVec 2) (disp : BitVec 12)
  | cpy (t s b : BitVec 2) (n : BitVec 6) (disp : BitVec 12)
  | fil (t s b : BitVec 2) (n : BitVec 6) (disp : BitVec 12)
  | ldm (r s b : BitVec 2) (len : BitVec 3) (disp : BitVec 15)
  | stm (r s b : BitVec 2) (len : BitVec 3) (disp : BitVec 15)
  | atm (r s b : BitVec 2) (len : BitVec 3) (disp : BitVec 15)
  | cmpr (c s t mode : BitVec 2)
  | cmp (c s : BitVec 2)
  | cmpf (c s : BitVec 2) (e : Bool) (len : BitVec 3) (disp : BitVec 12)
  | br (cond : BitVec 5) (pol : Bool) (tgt : BitVec 14)
  | jmp (tgt : BitVec 14)
  | call (tgt : BitVec 14)
  | ret
  | nxw
  | wjmp (src : Bool) (s : BitVec 2) (widx : BitVec 10)
  | nxg
  | skto (s : BitVec 2) (disp : BitVec 12)
  | endf
  | cmt
  | disc
  | wait (cond : BitVec 5) (pol : Bool)
  | tsi (dom s : BitVec 2) (point : Bool) (fmt : BitVec 2) (disp : BitVec 12)
  | setf (flag value : Bool)
  | que (q : BitVec 2)
  | sig (code : BitVec 8)
  deriving DecidableEq, Repr

/-- What a microword is: UDF, an illegal microword, or a micro-op (R36). -/
inductive UWord where
  | udf
  | illegal
  | op (u : UOp)
  deriving DecidableEq, Repr

/-- A field of a microword. -/
def ufield (w : Word32) (lo len : Nat) : BitVec len := w.extractLsb' lo len

/-- A one-bit field. -/
def ubit (w : Word32) (i : Nat) : Bool := w.getLsbD i

/-- Field widths of a frame field or a memory field: 1 to 6 bytes (R36). -/
def lenOk (l : BitVec 3) : Bool := l != 0 && l != 7

/-- The micro-op, or an illegal microword, under a condition on the fields. -/
def uIf (c : Bool) (u : UOp) : UWord := if c then .op u else .illegal

/-- The decoder of microwords (R36, R37). A word whose code is 0x00 is UDF whatever its other bits hold. In WJMP the
bits that neither its own entry nor format F9 names are ignored (log entry 11). -/
def decodeU (w : Word32) : UWord :=
  let f25 := ufield w 24 2
  let f23 := ufield w 22 2
  let f21 := ufield w 20 2
  let e := ubit w 21
  let len5 := ufield w 18 3
  let disp5 := ufield w 6 12
  let x := ufield w 0 6
  let n6 := ufield w 14 6
  let disp6 := ufield w 2 12
  let len7 := ufield w 17 3
  let disp7 := ufield w 2 15
  let low2 := ufield w 0 2
  let all0 := ufield w 0 26 == 0
  let cond := ufield w 21 5
  let pol := ubit w 20
  let z9 := ufield w 14 6 == 0
  let tgt := ufield w 0 14
  match (ufield w 26 6).toNat with
  | 0x00 => .udf
  | 0x01 => uIf all0 .nop
  | 0x02 => uIf (ufield w 0 16 == 0 && (ufield w 16 4).ult 12) (.alu f25 f23 f21 (ufield w 16 4))
  | 0x03 => uIf ((ufield w 18 4).ult 12) (.alui f25 f23 (ufield w 18 4) (ufield w 0 18))
  | 0x04 => .op (.ldi f25 (ufield w 0 24))
  | 0x05 => .op (.ldih f25 (ufield w 0 24))
  | 0x06 => uIf (ufield w 6 18 == 0 && x.ult 8) (.movs f25 x)
  | 0x07 => uIf (ufield w 6 18 == 0 && x == 1) (.movt f25 x)
  | 0x08 => uIf (lenOk len5 && x == 0) (.ext f25 f23 e len5 disp5)
  | 0x09 => uIf (lenOk len5 && x == 0) (.dep f25 f23 e len5 disp5)
  | 0x0B => uIf (lenOk len5 && f25 == 0) (.incf f23 e len5 disp5 x)
  | 0x0C => uIf (!e && len5 == 0 && x == 0) (.fadd f25 f23 disp5)
  | 0x0D => uIf (low2 == 0) (.cpy f25 f23 f21 n6 disp6)
  | 0x0E => uIf (low2 == 0) (.fil f25 f23 f21 n6 disp6)
  | 0x0F => uIf (lenOk len7 && low2 == 0) (.ldm f25 f23 f21 len7 disp7)
  | 0x10 => uIf (lenOk len7 && low2 == 0) (.stm f25 f23 f21 len7 disp7)
  | 0x11 => uIf (lenOk len7 && low2 == 0) (.atm f25 f23 f21 len7 disp7)
  | 0x12 => uIf (ufield w 0 18 == 0) (.cmpr f25 f23 f21 (ufield w 18 2))
  | 0x13 => uIf (ufield w 0 22 == 0) (.cmp f25 f23)
  | 0x14 => uIf (lenOk len5 && x == 0) (.cmpf f25 f23 e len5 disp5)
  | 0x18 => uIf z9 (.br cond pol tgt)
  | 0x19 => uIf (z9 && cond == 0 && !pol) (.jmp tgt)
  | 0x1A => uIf (z9 && cond == 0 && !pol) (.call tgt)
  | 0x1B => uIf all0 .ret
  | 0x1C => uIf all0 .nxw
  | 0x1D => uIf z9 (.wjmp (ubit w 25) f23 (ufield w 0 10))
  | 0x20 => uIf all0 .nxg
  | 0x21 => uIf (f25 == 0 && !e && len5 == 0 && x == 0) (.skto f23 disp5)
  | 0x22 => uIf all0 .endf
  | 0x23 => uIf all0 .cmt
  | 0x24 => uIf all0 .disc
  | 0x25 => uIf (z9 && tgt == 0) (.wait cond pol)
  | 0x26 => uIf (ufield w 19 2 != 3 && !(ubit w 18) && x == 0) (.tsi f25 f23 e (ufield w 19 2) disp5)
  | 0x27 => uIf (ufield w 0 24 == 0) (.setf (ubit w 25) (ubit w 24))
  | 0x28 => uIf (ufield w 0 24 == 0) (.que f25)
  | 0x29 => uIf (ufield w 8 18 == 0) (.sig (ufield w 0 8))
  | _ => .illegal

/-- One bit of a field. -/
def b1 (b : Bool) : BitVec 1 := BitVec.ofBool b

/-- The encoder of micro-ops (R36, R37). -/
def encodeU : UOp → Word32
  | .nop => 0x01#6 ++ 0#26
  | .alu d s t fn => 0x02#6 ++ d ++ s ++ t ++ fn ++ 0#16
  | .alui d s fn imm => 0x03#6 ++ d ++ s ++ fn ++ imm
  | .ldi d imm => 0x04#6 ++ d ++ imm
  | .ldih d imm => 0x05#6 ++ d ++ imm
  | .movs r spec => 0x06#6 ++ r ++ 0#18 ++ spec
  | .movt r spec => 0x07#6 ++ r ++ 0#18 ++ spec
  | .ext r s e len disp => 0x08#6 ++ r ++ s ++ b1 e ++ len ++ disp ++ 0#6
  | .dep r s e len disp => 0x09#6 ++ r ++ s ++ b1 e ++ len ++ disp ++ 0#6
  | .incf s e len disp x => 0x0B#6 ++ 0#2 ++ s ++ b1 e ++ len ++ disp ++ x
  | .fadd r s disp => 0x0C#6 ++ r ++ s ++ 0#4 ++ disp ++ 0#6
  | .cpy t s b n disp => 0x0D#6 ++ t ++ s ++ b ++ n ++ disp ++ 0#2
  | .fil t s b n disp => 0x0E#6 ++ t ++ s ++ b ++ n ++ disp ++ 0#2
  | .ldm r s b len disp => 0x0F#6 ++ r ++ s ++ b ++ len ++ disp ++ 0#2
  | .stm r s b len disp => 0x10#6 ++ r ++ s ++ b ++ len ++ disp ++ 0#2
  | .atm r s b len disp => 0x11#6 ++ r ++ s ++ b ++ len ++ disp ++ 0#2
  | .cmpr c s t mode => 0x12#6 ++ c ++ s ++ t ++ mode ++ 0#18
  | .cmp c s => 0x13#6 ++ c ++ s ++ 0#22
  | .cmpf c s e len disp => 0x14#6 ++ c ++ s ++ b1 e ++ len ++ disp ++ 0#6
  | .br cond pol tgt => 0x18#6 ++ cond ++ b1 pol ++ 0#6 ++ tgt
  | .jmp tgt => 0x19#6 ++ 0#12 ++ tgt
  | .call tgt => 0x1A#6 ++ 0#12 ++ tgt
  | .ret => 0x1B#6 ++ 0#26
  | .nxw => 0x1C#6 ++ 0#26
  | .wjmp src s widx => 0x1D#6 ++ b1 src ++ 0#1 ++ s ++ 0#12 ++ widx
  | .nxg => 0x20#6 ++ 0#26
  | .skto s disp => 0x21#6 ++ 0#2 ++ s ++ 0#4 ++ disp ++ 0#6
  | .endf => 0x22#6 ++ 0#26
  | .cmt => 0x23#6 ++ 0#26
  | .disc => 0x24#6 ++ 0#26
  | .wait cond pol => 0x25#6 ++ cond ++ b1 pol ++ 0#20
  | .tsi dom s point fmt disp => 0x26#6 ++ dom ++ s ++ b1 point ++ fmt ++ 0#1 ++ disp ++ 0#6
  | .setf flag value => 0x27#6 ++ b1 flag ++ b1 value ++ 0#24
  | .que q => 0x28#6 ++ q ++ 0#24
  | .sig code => 0x29#6 ++ 0#18 ++ code

/-- The operand values that an encoding admits (R36, R37): field widths of 1 to 6 bytes, ALU functions that are not
reserved, readable and writable special registers, TSI formats that are not reserved. -/
def UOp.wf : UOp → Bool
  | .alu _ _ _ fn => fn.ult 12
  | .alui _ _ fn _ => fn.ult 12
  | .movs _ spec => spec.ult 8
  | .movt _ spec => spec == 1
  | .ext _ _ _ len _ => lenOk len
  | .dep _ _ _ len _ => lenOk len
  | .incf _ _ len _ _ => lenOk len
  | .ldm _ _ _ len _ => lenOk len
  | .stm _ _ _ len _ => lenOk len
  | .atm _ _ _ len _ => lenOk len
  | .cmpf _ _ _ len _ => lenOk len
  | .tsi _ _ _ fmt _ => fmt != 3
  | _ => true

end Sys2Proof.Machine
end

