-- ==== Sys2Proof/Machine/Crc.lean ====
section
/-! DEFINITION. Cyclic redundancy codes: the IEEE 802.3 frame check sequence (R30, R53) and the CRC-16 of the repair
record (R301). -/

namespace Sys2Proof.Machine

/-- One bit step of the reflected CRC-32 of IEEE 802.3. -/
def crcStep (c : BitVec 32) : BitVec 32 := if c.getLsbD 0 then (c >>> 1) ^^^ 0xEDB88320#32 else c >>> 1

/-- `n` bit steps. -/
def crcSteps : Nat → BitVec 32 → BitVec 32
  | 0, c => c
  | n + 1, c => crcSteps n (crcStep c)

/-- One byte enters the register. -/
def crcByte (c : BitVec 32) (b : BitVec 8) : BitVec 32 := crcSteps 8 (c ^^^ b.zeroExtend 32)

/-- The frame check sequence of some bytes, as a number whose low byte is transmitted first. -/
def fcs (l : List (BitVec 8)) : BitVec 32 := (l.foldl crcByte 0xFFFFFFFF#32) ^^^ 0xFFFFFFFF#32

/-- One bit step of a CRC-16 with polynomial 0x1021, highest bit first. -/
def crc16Step (c : BitVec 16) (b : Bool) : BitVec 16 :=
  if c.getLsbD 15 != b then (c <<< 1) ^^^ 0x1021#16 else c <<< 1

end Sys2Proof.Machine
end

