-- ==== Sys2Proof/Config.lean ====
section
/-! DEFINITION. What the manual leaves open and the model keeps open: the free values. -/

namespace Sys2Proof.Config

/-- A free value of `w` bits: the `n`-th value that the manual leaves open in a run. It has no body, so nothing can
be proved about any of its values; a statement that mentions it holds whatever the hardware shows (log entry 2). -/
opaque freeValue (w n : Nat) : BitVec w

/-- Of a pair that is one node, port A of this unit faces ring `r`; if not, it faces the partner. The cabling is the integrator's, and
no register tells it: it is left free (R173; log entry 71). -/
opaque facesRing (r : Nat) : Bool

end Sys2Proof.Config
end

