-- ==== Sys2Proof/Machine/Regs.lean ====
section
/-! DEFINITION. Every memory-mapped register field of the manual, under the manual's own name, with its address, bits, access type, reset value and whether the configuration image supplies it (R5, R55-R62, R89, R90, R122-R124, R164, R193, R260, R285, R314-R316, R337, R338, R366, R367, R386, R387, R406, R407, R428, R443, R464-R472). -/



namespace Sys2Proof.Machine.Reg

/-- The register windows (R467, R470, R471). -/
def glbBase : Nat := 0x000000
/-- Mailbox channel c (R339). -/
def mbBase (c : Nat) : Nat := 0x010000 + 0x4000 * c
def tuBase : Nat := 0x020000
def tilBase : Nat := 0x030000
/-- Cluster window n (R470). -/
def cluBase (n : Nat) : Nat := 0x040000 + 0x10000 * n
/-- The wire sequencer of port p (R55). -/
def wsqBase (p : Nat) : Nat := cluBase (p / 2) + 0x2000 + 0x1000 * (p % 2)
/-- The extension registers of port p (R89). -/
def pxBase (p : Nat) : Nat := cluBase (p / 2) + 0x4000 + 0x1000 * (p % 2)
/-- Window table l of cluster n (R124). -/
def ttwBase (n l : Nat) : Nat := cluBase n + 0x7400 + 0x80 * l
/-- Bit line k (R428). -/
def blBase (k : Nat) : Nat := cluBase (k / 2) + 0x7800 + 0x80 * (k % 2)
/-- The management cluster's window (R471). -/
def mgtBase : Nat := 0x080000
/-- The translation registers of engine e (R337). -/
def xlBase (e : Nat) : Nat := if e < 2 then mgtBase + 0xA000 + 0x20 * e else cluBase ((e - 2) / 3) + 0x8000 + 0x20 * ((e - 2) % 3)
/-- DMA channel c (R366). -/
def dmaBase (c : Nat) : Nat := mgtBase + 0xB000 + 0x40 * c
def dbgBase : Nat := 0x090000
/-- The debug registers of engine i (R465). -/
def dbgEBase (i : Nat) : Nat := dbgBase + 0x1000 + 0x200 * i

/-- WSQ.CTRL.RUN (R56, spec/02). -/
def WSQ.CTRL.RUN (p : Nat) : Fld := Fld.mk (wsqBase p + 0x0) (0) 1 .rw (0) true
/-- WSQ.CTRL.SAF (R56, spec/02). -/
def WSQ.CTRL.SAF (p : Nat) : Fld := Fld.mk (wsqBase p + 0x0) (1) 1 .rw (0) true
/-- WSQ.CTRL.EGR (R56, spec/02). -/
def WSQ.CTRL.EGR (p : Nat) : Fld := Fld.mk (wsqBase p + 0x0) (2) 2 .rw (0) true
/-- WSQ.CTRL.WPBANK (R56, spec/02). -/
def WSQ.CTRL.WPBANK (p : Nat) : Fld := Fld.mk (wsqBase p + 0x0) (4) 1 .rw (0) false
/-- WSQ.CTRL.SLACKMIN (R56, spec/02). -/
def WSQ.CTRL.SLACKMIN (p : Nat) : Fld := Fld.mk (wsqBase p + 0x0) (8) 8 .rw (16) false
/-- WSQ.CTRL.TSEL0 (R56, spec/02). -/
def WSQ.CTRL.TSEL0 (p : Nat) : Fld := Fld.mk (wsqBase p + 0x0) (16) 3 .rw (0) false
/-- WSQ.CTRL.TSEL1 (R56, spec/02). -/
def WSQ.CTRL.TSEL1 (p : Nat) : Fld := Fld.mk (wsqBase p + 0x0) (19) 3 .rw (0) false
/-- WSQ.CTRL.GCLS (R56, spec/02). -/
def WSQ.CTRL.GCLS (p : Nat) : Fld := Fld.mk (wsqBase p + 0x0) (22) 3 .rw (0) false
/-- WSQ.STAT.RUNACT (R57, spec/02). -/
def WSQ.STAT.RUNACT (p : Nat) : Fld := Fld.mk (wsqBase p + 0x4) (0) 1 .ro (0) false
/-- WSQ.STAT.INFRAME (R57, spec/02). -/
def WSQ.STAT.INFRAME (p : Nat) : Fld := Fld.mk (wsqBase p + 0x4) (1) 1 .ro (0) false
/-- WSQ.STAT.LOADING (R57, spec/02). -/
def WSQ.STAT.LOADING (p : Nat) : Fld := Fld.mk (wsqBase p + 0x4) (2) 1 .ro (0) false
/-- WSQ.STAT.WPBANKACT (R57, spec/02). -/
def WSQ.STAT.WPBANKACT (p : Nat) : Fld := Fld.mk (wsqBase p + 0x4) (3) 1 .ro (0) false
/-- WSQ.STAT.STKDEPTH (R57, spec/02). -/
def WSQ.STAT.STKDEPTH (p : Nat) : Fld := Fld.mk (wsqBase p + 0x4) (4) 3 .ro (0) false
/-- WSQ.STAT.UPC (R57, spec/02). -/
def WSQ.STAT.UPC (p : Nat) : Fld := Fld.mk (wsqBase p + 0x4) (16) 14 .ro (0) false
/-- WSQ.ERR.UNDEF (R58, spec/02). -/
def WSQ.ERR.UNDEF (p : Nat) : Fld := Fld.mk (wsqBase p + 0x8) (0) 1 .w1c (0) false
/-- WSQ.ERR.ILLUW (R58, spec/02). -/
def WSQ.ERR.ILLUW (p : Nat) : Fld := Fld.mk (wsqBase p + 0x8) (1) 1 .w1c (0) false
/-- WSQ.ERR.OVR (R58, spec/02). -/
def WSQ.ERR.OVR (p : Nat) : Fld := Fld.mk (wsqBase p + 0x8) (2) 1 .w1c (0) false
/-- WSQ.ERR.WIN (R58, spec/02). -/
def WSQ.ERR.WIN (p : Nat) : Fld := Fld.mk (wsqBase p + 0x8) (3) 1 .w1c (0) false
/-- WSQ.ERR.STK (R58, spec/02). -/
def WSQ.ERR.STK (p : Nat) : Fld := Fld.mk (wsqBase p + 0x8) (4) 1 .w1c (0) false
/-- WSQ.ERR.CSUE (R58, spec/02). -/
def WSQ.ERR.CSUE (p : Nat) : Fld := Fld.mk (wsqBase p + 0x8) (5) 1 .w1c (0) false
/-- WSQ.ERR.RATE (R58, spec/02). -/
def WSQ.ERR.RATE (p : Nat) : Fld := Fld.mk (wsqBase p + 0x8) (6) 1 .w1c (0) false
/-- WSQ.ERR.EGRCOL (R58, spec/02). -/
def WSQ.ERR.EGRCOL (p : Nat) : Fld := Fld.mk (wsqBase p + 0x8) (7) 1 .w1c (0) false
/-- WSQ.ERR.LOADFAIL (R58, spec/02). -/
def WSQ.ERR.LOADFAIL (p : Nat) : Fld := Fld.mk (wsqBase p + 0x8) (8) 1 .w1c (0) false
/-- WSQ.CHAFF.CNT (R59, spec/02). -/
def WSQ.CHAFF.CNT (p : Nat) : Fld := Fld.mk (wsqBase p + 0x10) (0) 32 .rc (0) false
/-- WSQ.RXBAD.CNT (R59, spec/02). -/
def WSQ.RXBAD.CNT (p : Nat) : Fld := Fld.mk (wsqBase p + 0x14) (0) 32 .rc (0) false
/-- WSQ.SAFDROP.CNT (R59, spec/02). -/
def WSQ.SAFDROP.CNT (p : Nat) : Fld := Fld.mk (wsqBase p + 0x18) (0) 32 .rc (0) false
/-- WSQ.CSCE.CNT (R59, spec/02). -/
def WSQ.CSCE.CNT (p : Nat) : Fld := Fld.mk (wsqBase p + 0x1C) (0) 16 .rc (0) false
/-- WSQ.CSCE.ADDR (R59, spec/02). -/
def WSQ.CSCE.ADDR (p : Nat) : Fld := Fld.mk (wsqBase p + 0x1C) (16) 14 .ro (0) false
/-- WSQ.CSCE.DISP (R59, spec/02). -/
def WSQ.CSCE.DISP (p : Nat) : Fld := Fld.mk (wsqBase p + 0x1C) (30) 1 .ro (0) false
/-- LP.CFG.DEPTH (R60, spec/02). -/
def LP.CFG.DEPTH (p : Nat) : Fld := Fld.mk (wsqBase p + 0x20) (0) 8 .rw (16) true
/-- LP.STAT.DEPTHACT (R60, spec/02). -/
def LP.STAT.DEPTHACT (p : Nat) : Fld := Fld.mk (wsqBase p + 0x24) (0) 8 .ro (16) false
/-- LP.STAT.RATE (R60, spec/02). -/
def LP.STAT.RATE (p : Nat) : Fld := Fld.mk (wsqBase p + 0x24) (8) 3 .ro (5) false
/-- LP.STAT.CFGERR (R60, spec/02). -/
def LP.STAT.CFGERR (p : Nat) : Fld := Fld.mk (wsqBase p + 0x24) (11) 1 .w1c (0) false
/-- LP.DELAY.PS (R60, spec/02). -/
def LP.DELAY.PS (p : Nat) : Fld := Fld.mk (wsqBase p + 0x28) (0) 32 .ro (243550) false
/-- WSQ.OVR.UADDR (R61, spec/02). -/
def WSQ.OVR.UADDR (p : Nat) : Fld := Fld.mk (wsqBase p + 0x2C) (0) 14 .ro (0) false
/-- WSQ.OVR.GRAIN (R61, spec/02). -/
def WSQ.OVR.GRAIN (p : Nat) : Fld := Fld.mk (wsqBase p + 0x2C) (16) 11 .ro (0) false
/-- WSQ.UNDEF.UADDR (R61, spec/02). -/
def WSQ.UNDEF.UADDR (p : Nat) : Fld := Fld.mk (wsqBase p + 0x30) (0) 14 .ro (0) false
/-- WSQ.UNDEF.WIDX (R61, spec/02). -/
def WSQ.UNDEF.WIDX (p : Nat) : Fld := Fld.mk (wsqBase p + 0x30) (14) 10 .ro (0) false
/-- WSQ.UNDEF.OPC (R61, spec/02). -/
def WSQ.UNDEF.OPC (p : Nat) : Fld := Fld.mk (wsqBase p + 0x30) (24) 8 .ro (0) false
/-- WSQ.WPM.IDX.IDX (R62, spec/02). -/
def WSQ.WPM.IDX.IDX (p : Nat) : Fld := Fld.mk (wsqBase p + 0x34) (0) 10 .rw (0) false
/-- WSQ.WPM.IDX.BANK (R62, spec/02). -/
def WSQ.WPM.IDX.BANK (p : Nat) : Fld := Fld.mk (wsqBase p + 0x34) (10) 1 .rw (0) false
/-- WSQ.WPM.DATA.OP (R62, spec/02). -/
def WSQ.WPM.DATA.OP (p : Nat) : Fld := Fld.mk (wsqBase p + 0x38) (0) 32 .rw (0) false
/-- WSQ.CSLD.ADDR_LO.ADDR (R62, spec/02). -/
def WSQ.CSLD.ADDR_LO.ADDR (p : Nat) : Fld := Fld.mk (wsqBase p + 0x40) (0) 32 .rw (0) false
/-- WSQ.CSLD.ADDR_HI.ADDR (R62, spec/02). -/
def WSQ.CSLD.ADDR_HI.ADDR (p : Nat) : Fld := Fld.mk (wsqBase p + 0x44) (0) 8 .rw (0) false
/-- WSQ.CSLD.CTRL.GO (R62, spec/02). -/
def WSQ.CSLD.CTRL.GO (p : Nat) : Fld := Fld.mk (wsqBase p + 0x48) (0) 1 .wo (0) false
/-- WSQ.CSLD.CTRL.ABORT (R62, spec/02). -/
def WSQ.CSLD.CTRL.ABORT (p : Nat) : Fld := Fld.mk (wsqBase p + 0x48) (1) 1 .wo (0) false
/-- WSQ.CSLD.STAT.BUSY (R62, spec/02). -/
def WSQ.CSLD.STAT.BUSY (p : Nat) : Fld := Fld.mk (wsqBase p + 0x4C) (0) 1 .ro (0) false
/-- WSQ.CSLD.STAT.DONE (R62, spec/02). -/
def WSQ.CSLD.STAT.DONE (p : Nat) : Fld := Fld.mk (wsqBase p + 0x4C) (1) 1 .w1c (0) false
/-- WSQ.CSLD.STAT.RESULT (R62, spec/02). -/
def WSQ.CSLD.STAT.RESULT (p : Nat) : Fld := Fld.mk (wsqBase p + 0x4C) (4) 3 .ro (0) false
/-- WSQ.DISP.UADDR (R62, spec/02). -/
def WSQ.DISP.UADDR (p : Nat) (n : Nat) : Fld := Fld.mk (wsqBase p + 0x400 + 4 * n) (0) 14 .ro (0) false
/-- PX.CTRL.EN (R89, spec/03). -/
def PX.CTRL.EN (p : Nat) : Fld := Fld.mk (pxBase p + 0x000) (0) 1 .rw (0) true
/-- PX.CTRL.OWNER (R89, spec/03). -/
def PX.CTRL.OWNER (p : Nat) : Fld := Fld.mk (pxBase p + 0x000) (1) 2 .rw (0) true
/-- PX.CTRL.TDOM (R89, spec/03). -/
def PX.CTRL.TDOM (p : Nat) : Fld := Fld.mk (pxBase p + 0x000) (3) 2 .rw (0) false
/-- PX.CTRL.KEEPBAD (R89, spec/03). -/
def PX.CTRL.KEEPBAD (p : Nat) : Fld := Fld.mk (pxBase p + 0x000) (5) 1 .rw (0) false
/-- PX.STAT.ENACT (R89, spec/03). -/
def PX.STAT.ENACT (p : Nat) : Fld := Fld.mk (pxBase p + 0x004) (0) 1 .ro (0) false
/-- PX.STAT.DRAIN (R89, spec/03). -/
def PX.STAT.DRAIN (p : Nat) : Fld := Fld.mk (pxBase p + 0x004) (1) 1 .ro (0) false
/-- PX.PRIVBASE.BASE (R89, spec/03). -/
def PX.PRIVBASE.BASE (p : Nat) : Fld := Fld.mk (pxBase p + 0x008) (4) 15 .rw (0) true
/-- PX.PRIVSIZE.SIZE (R89, spec/03). -/
def PX.PRIVSIZE.SIZE (p : Nat) : Fld := Fld.mk (pxBase p + 0x00C) (4) 15 .rw (0) true
/-- PI.INBASE.BASE (R89, spec/03). -/
def PI.INBASE.BASE (p : Nat) : Fld := Fld.mk (pxBase p + 0x010) (6) 13 .rw (0) true
/-- PI.INSIZE.SIZE (R89, spec/03). -/
def PI.INSIZE.SIZE (p : Nat) : Fld := Fld.mk (pxBase p + 0x014) (0) 19 .rw (0) true
/-- PI.OUTBASE.BASE (R89, spec/03). -/
def PI.OUTBASE.BASE (p : Nat) : Fld := Fld.mk (pxBase p + 0x018) (6) 13 .rw (0) true
/-- PI.OUTSIZE.SIZE (R89, spec/03). -/
def PI.OUTSIZE.SIZE (p : Nat) : Fld := Fld.mk (pxBase p + 0x01C) (0) 19 .rw (0) true
/-- PI.CFG.ITICK (R89, spec/03). -/
def PI.CFG.ITICK (p : Nat) : Fld := Fld.mk (pxBase p + 0x020) (0) 4 .rw (15) false
/-- PI.CFG.OTICK (R89, spec/03). -/
def PI.CFG.OTICK (p : Nat) : Fld := Fld.mk (pxBase p + 0x020) (4) 4 .rw (15) false
/-- PI.INROLE.FILL (R89, spec/03). -/
def PI.INROLE.FILL (p : Nat) : Fld := Fld.mk (pxBase p + 0x024) (0) 2 .ro (0) false
/-- PI.INROLE.READY (R89, spec/03). -/
def PI.INROLE.READY (p : Nat) : Fld := Fld.mk (pxBase p + 0x024) (2) 2 .ro (1) false
/-- PI.INROLE.HELD (R89, spec/03). -/
def PI.INROLE.HELD (p : Nat) : Fld := Fld.mk (pxBase p + 0x024) (4) 2 .ro (2) false
/-- PI.INROLE.NEW (R89, spec/03). -/
def PI.INROLE.NEW (p : Nat) : Fld := Fld.mk (pxBase p + 0x024) (8) 1 .ro (0) false
/-- PI.INROLE.HVALID (R89, spec/03). -/
def PI.INROLE.HVALID (p : Nat) : Fld := Fld.mk (pxBase p + 0x024) (9) 1 .ro (0) false
/-- PI.INROLE.POISON (R89, spec/03). -/
def PI.INROLE.POISON (p : Nat) : Fld := Fld.mk (pxBase p + 0x024) (10) 1 .ro (0) false
/-- PI.TAKE.TAKE (R89, spec/03). -/
def PI.TAKE.TAKE (p : Nat) : Fld := Fld.mk (pxBase p + 0x028) (0) 1 .wo (0) false
/-- PI.OUTROLE.FILL (R89, spec/03). -/
def PI.OUTROLE.FILL (p : Nat) : Fld := Fld.mk (pxBase p + 0x02C) (0) 2 .ro (0) false
/-- PI.OUTROLE.READY (R89, spec/03). -/
def PI.OUTROLE.READY (p : Nat) : Fld := Fld.mk (pxBase p + 0x02C) (2) 2 .ro (1) false
/-- PI.OUTROLE.CUR (R89, spec/03). -/
def PI.OUTROLE.CUR (p : Nat) : Fld := Fld.mk (pxBase p + 0x02C) (4) 2 .ro (2) false
/-- PI.OUTROLE.NEW (R89, spec/03). -/
def PI.OUTROLE.NEW (p : Nat) : Fld := Fld.mk (pxBase p + 0x02C) (8) 1 .ro (0) false
/-- PI.OUTROLE.CVALID (R89, spec/03). -/
def PI.OUTROLE.CVALID (p : Nat) : Fld := Fld.mk (pxBase p + 0x02C) (9) 1 .ro (0) false
/-- PI.PUB.PUB (R89, spec/03). -/
def PI.PUB.PUB (p : Nat) : Fld := Fld.mk (pxBase p + 0x030) (0) 1 .wo (0) false
/-- PI.ERR.BOUND (R89, spec/03). -/
def PI.ERR.BOUND (p : Nat) : Fld := Fld.mk (pxBase p + 0x034) (0) 1 .w1c (0) false
/-- PI.ERR.MISS (R89, spec/03). -/
def PI.ERR.MISS (p : Nat) : Fld := Fld.mk (pxBase p + 0x034) (1) 1 .w1c (0) false
/-- PI.ERR.REPEAT (R89, spec/03). -/
def PI.ERR.REPEAT (p : Nat) : Fld := Fld.mk (pxBase p + 0x034) (2) 1 .w1c (0) false
/-- PI.ERR.POISON (R89, spec/03). -/
def PI.ERR.POISON (p : Nat) : Fld := Fld.mk (pxBase p + 0x034) (3) 1 .w1c (0) false
/-- PI.ERR.EVOVF (R89, spec/03). -/
def PI.ERR.EVOVF (p : Nat) : Fld := Fld.mk (pxBase p + 0x034) (4) 1 .w1c (0) false
/-- PI.ERR.RXQDROP (R89, spec/03). -/
def PI.ERR.RXQDROP (p : Nat) : Fld := Fld.mk (pxBase p + 0x034) (5) 1 .w1c (0) false
/-- PI.IRQEN.EN (R89, spec/03). -/
def PI.IRQEN.EN (p : Nat) : Fld := Fld.mk (pxBase p + 0x038) (0) 6 .rw (63) false
/-- PI.MISSCNT.CNT (R89, spec/03). -/
def PI.MISSCNT.CNT (p : Nat) : Fld := Fld.mk (pxBase p + 0x03C) (0) 32 .rc (0) false
/-- PI.REPCNT.CNT (R89, spec/03). -/
def PI.REPCNT.CNT (p : Nat) : Fld := Fld.mk (pxBase p + 0x040) (0) 32 .rc (0) false
/-- PQ.DROPCNT.CNT (R89, spec/03). -/
def PQ.DROPCNT.CNT (p : Nat) : Fld := Fld.mk (pxBase p + 0x044) (0) 32 .rc (0) false
/-- PQ.RX.BASE.BASE (R89, spec/03). -/
def PQ.RX.BASE.BASE (p : Nat) (q : Nat) : Fld := Fld.mk (pxBase p + 0x100 + 0x10 * q) (4) 15 .rw (0) false
/-- PQ.RX.CFG.SLOTS (R89, spec/03). -/
def PQ.RX.CFG.SLOTS (p : Nat) (q : Nat) : Fld := Fld.mk (pxBase p + 0x100 + 0x10 * q + 0x4) (0) 13 .rw (0) false
/-- PQ.RX.CFG.SLOTSZ (R89, spec/03). -/
def PQ.RX.CFG.SLOTSZ (p : Nat) (q : Nat) : Fld := Fld.mk (pxBase p + 0x100 + 0x10 * q + 0x4) (16) 4 .rw (11) false
/-- PQ.RX.WR.WR (R89, spec/03). -/
def PQ.RX.WR.WR (p : Nat) (q : Nat) : Fld := Fld.mk (pxBase p + 0x100 + 0x10 * q + 0x8) (0) 16 .ro (0) false
/-- PQ.RX.RD.RD (R89, spec/03). -/
def PQ.RX.RD.RD (p : Nat) (q : Nat) : Fld := Fld.mk (pxBase p + 0x100 + 0x10 * q + 0xC) (0) 16 .rw (0) false
/-- PQ.TX.BASE.BASE (R89, spec/03). -/
def PQ.TX.BASE.BASE (p : Nat) (c : Nat) : Fld := Fld.mk (pxBase p + 0x200 + 0x10 * c) (4) 15 .rw (0) false
/-- PQ.TX.CFG.COUNT (R89, spec/03). -/
def PQ.TX.CFG.COUNT (p : Nat) (c : Nat) : Fld := Fld.mk (pxBase p + 0x200 + 0x10 * c + 0x4) (0) 13 .rw (0) false
/-- PQ.TX.HEAD.HEAD (R89, spec/03). -/
def PQ.TX.HEAD.HEAD (p : Nat) (c : Nat) : Fld := Fld.mk (pxBase p + 0x200 + 0x10 * c + 0x8) (0) 13 .ro (0) false
/-- PQ.TX.TAIL.TAIL (R89, spec/03). -/
def PQ.TX.TAIL.TAIL (p : Nat) (c : Nat) : Fld := Fld.mk (pxBase p + 0x200 + 0x10 * c + 0xC) (0) 13 .rw (0) false
/-- GCL.CTRL.CHANGE (R89, spec/03). -/
def GCL.CTRL.CHANGE (p : Nat) : Fld := Fld.mk (pxBase p + 0x300) (0) 1 .wo (0) false
/-- GCL.CTRL.PREEN (R89, spec/03). -/
def GCL.CTRL.PREEN (p : Nat) : Fld := Fld.mk (pxBase p + 0x300) (1) 1 .rw (0) false
/-- GCL.CTRL.VERIFY (R89, spec/03). -/
def GCL.CTRL.VERIFY (p : Nat) : Fld := Fld.mk (pxBase p + 0x300) (2) 1 .rw (1) false
/-- GCL.CTRL.FRAG (R89, spec/03). -/
def GCL.CTRL.FRAG (p : Nat) : Fld := Fld.mk (pxBase p + 0x300) (3) 2 .rw (0) false
/-- GCL.CTRL.TDOM (R89, spec/03). -/
def GCL.CTRL.TDOM (p : Nat) : Fld := Fld.mk (pxBase p + 0x300) (5) 2 .rw (0) false
/-- GCL.CTRL.GATEEN (R89, spec/03). -/
def GCL.CTRL.GATEEN (p : Nat) : Fld := Fld.mk (pxBase p + 0x300) (7) 1 .rw (0) false
/-- GCL.STAT.OPERBANK (R89, spec/03). -/
def GCL.STAT.OPERBANK (p : Nat) : Fld := Fld.mk (pxBase p + 0x304) (0) 1 .ro (0) false
/-- GCL.STAT.PENDING (R89, spec/03). -/
def GCL.STAT.PENDING (p : Nat) : Fld := Fld.mk (pxBase p + 0x304) (1) 1 .ro (0) false
/-- GCL.STAT.CFGERR (R89, spec/03). -/
def GCL.STAT.CFGERR (p : Nat) : Fld := Fld.mk (pxBase p + 0x304) (2) 1 .w1c (0) false
/-- GCL.STAT.VERIFIED (R89, spec/03). -/
def GCL.STAT.VERIFIED (p : Nat) : Fld := Fld.mk (pxBase p + 0x304) (3) 1 .ro (0) false
/-- GCL.IDX.ENTRY (R89, spec/03). -/
def GCL.IDX.ENTRY (p : Nat) : Fld := Fld.mk (pxBase p + 0x308) (0) 10 .rw (0) false
/-- GCL.IDX.WORD (R89, spec/03). -/
def GCL.IDX.WORD (p : Nat) : Fld := Fld.mk (pxBase p + 0x308) (10) 1 .rw (0) false
/-- GCL.IDX.BANK (R89, spec/03). -/
def GCL.IDX.BANK (p : Nat) : Fld := Fld.mk (pxBase p + 0x308) (11) 1 .rw (0) false
/-- GCL.DATA.DATA (R89, spec/03). -/
def GCL.DATA.DATA (p : Nat) : Fld := Fld.mk (pxBase p + 0x30C) (0) 32 .rw (0) false
/-- GCL.CYCLE.NS (R89, spec/03). -/
def GCL.CYCLE.NS (p : Nat) : Fld := Fld.mk (pxBase p + 0x310) (0) 32 .rw (0) false
/-- GCL.EXT.NS (R89, spec/03). -/
def GCL.EXT.NS (p : Nat) : Fld := Fld.mk (pxBase p + 0x314) (0) 32 .rw (0) false
/-- GCL.BTNS.NS (R89, spec/03). -/
def GCL.BTNS.NS (p : Nat) : Fld := Fld.mk (pxBase p + 0x318) (0) 30 .rw (0) false
/-- GCL.BTS_LO.S (R89, spec/03). -/
def GCL.BTS_LO.S (p : Nat) : Fld := Fld.mk (pxBase p + 0x31C) (0) 32 .rw (0) false
/-- GCL.BTS_HI.S (R89, spec/03). -/
def GCL.BTS_HI.S (p : Nat) : Fld := Fld.mk (pxBase p + 0x320) (0) 16 .rw (0) false
/-- GCL.LEN.LEN (R89, spec/03). -/
def GCL.LEN.LEN (p : Nat) : Fld := Fld.mk (pxBase p + 0x324) (0) 11 .rw (0) false
/-- GCL.PRE.PRE (R89, spec/03). -/
def GCL.PRE.PRE (p : Nat) : Fld := Fld.mk (pxBase p + 0x328) (0) 8 .rw (0) false
/-- FRER.CFG.RESETMS (R90, spec/03). -/
def FRER.CFG.RESETMS (n : Nat) : Fld := Fld.mk (cluBase n + 0x6000) (0) 12 .rw (0) true
/-- FRER.IDX.STREAM (R90, spec/03). -/
def FRER.IDX.STREAM (n : Nat) : Fld := Fld.mk (cluBase n + 0x6004) (0) 9 .rw (0) false
/-- FRER.IDX.WORD (R90, spec/03). -/
def FRER.IDX.WORD (n : Nat) : Fld := Fld.mk (cluBase n + 0x6004) (9) 3 .rw (0) false
/-- FRER.DATA.DATA (R90, spec/03). -/
def FRER.DATA.DATA (n : Nat) : Fld := Fld.mk (cluBase n + 0x6008) (0) 32 .rw (0) false
/-- DUP.CFG.FORGET (R90, spec/03). -/
def DUP.CFG.FORGET (n : Nat) : Fld := Fld.mk (cluBase n + 0x600C) (0) 16 .rw (400) false
/-- DUP.STAT.DUPS (R90, spec/03). -/
def DUP.STAT.DUPS (n : Nat) : Fld := Fld.mk (cluBase n + 0x6010) (0) 16 .rc (0) false
/-- DUP.STAT.EVICT (R90, spec/03). -/
def DUP.STAT.EVICT (n : Nat) : Fld := Fld.mk (cluBase n + 0x6010) (16) 16 .rc (0) false
/-- TU.D.HI_L.SEC (R122, spec/04). -/
def TU.D.HI_L.SEC (d : Nat) : Fld := Fld.mk (tuBase + 0x000 + 0x40 * d) (0) 32 .ro (0) false
/-- TU.D.HI_H.SEC (R122, spec/04). -/
def TU.D.HI_H.SEC (d : Nat) : Fld := Fld.mk (tuBase + 0x000 + 0x40 * d + 0x04) (0) 16 .ro (0) false
/-- TU.D.LO_L.LO (R122, spec/04). -/
def TU.D.LO_L.LO (d : Nat) : Fld := Fld.mk (tuBase + 0x000 + 0x40 * d + 0x08) (0) 32 .ro (0) false
/-- TU.D.LO_H.LO (R122, spec/04). -/
def TU.D.LO_H.LO (d : Nat) : Fld := Fld.mk (tuBase + 0x000 + 0x40 * d + 0x0C) (0) 16 .ro (0) false
/-- TU.D.ADJ_L.ADJ (R122, spec/04). -/
def TU.D.ADJ_L.ADJ (d : Nat) : Fld := Fld.mk (tuBase + 0x000 + 0x40 * d + 0x10) (0) 32 .rw (0) false
/-- TU.D.ADJ_H.ADJ (R122, spec/04). -/
def TU.D.ADJ_H.ADJ (d : Nat) : Fld := Fld.mk (tuBase + 0x000 + 0x40 * d + 0x14) (0) 16 .rw (0) false
/-- TU.D.SETS_L.SEC (R122, spec/04). -/
def TU.D.SETS_L.SEC (d : Nat) : Fld := Fld.mk (tuBase + 0x000 + 0x40 * d + 0x18) (0) 32 .rw (0) false
/-- TU.D.SETS_H.SEC (R122, spec/04). -/
def TU.D.SETS_H.SEC (d : Nat) : Fld := Fld.mk (tuBase + 0x000 + 0x40 * d + 0x1C) (0) 16 .rw (0) false
/-- TU.D.SETL_L.LO (R122, spec/04). -/
def TU.D.SETL_L.LO (d : Nat) : Fld := Fld.mk (tuBase + 0x000 + 0x40 * d + 0x20) (0) 32 .rw (0) false
/-- TU.D.SETL_H.LO (R122, spec/04). -/
def TU.D.SETL_H.LO (d : Nat) : Fld := Fld.mk (tuBase + 0x000 + 0x40 * d + 0x24) (0) 16 .rw (0) false
/-- TU.D.STEP_L.STEP (R122, spec/04). -/
def TU.D.STEP_L.STEP (d : Nat) : Fld := Fld.mk (tuBase + 0x000 + 0x40 * d + 0x28) (0) 32 .rw (0) false
/-- TU.D.STEP_H.STEP (R122, spec/04). -/
def TU.D.STEP_H.STEP (d : Nat) : Fld := Fld.mk (tuBase + 0x000 + 0x40 * d + 0x2C) (0) 16 .rw (0) false
/-- TU.D.CMD.SET (R122, spec/04). -/
def TU.D.CMD.SET (d : Nat) : Fld := Fld.mk (tuBase + 0x000 + 0x40 * d + 0x30) (0) 1 .wo (0) false
/-- TU.D.CMD.STEP (R122, spec/04). -/
def TU.D.CMD.STEP (d : Nat) : Fld := Fld.mk (tuBase + 0x000 + 0x40 * d + 0x30) (1) 1 .wo (0) false
/-- TU.D.STAT.UNSYNC (R122, spec/04). -/
def TU.D.STAT.UNSYNC (d : Nat) : Fld := Fld.mk (tuBase + 0x000 + 0x40 * d + 0x34) (0) 1 .w1c (1) false
/-- TU.D.STAT.STEPPED (R122, spec/04). -/
def TU.D.STAT.STEPPED (d : Nat) : Fld := Fld.mk (tuBase + 0x000 + 0x40 * d + 0x34) (1) 1 .w1c (0) false
/-- TU.D.STAT.RATECLAMP (R122, spec/04). -/
def TU.D.STAT.RATECLAMP (d : Nat) : Fld := Fld.mk (tuBase + 0x000 + 0x40 * d + 0x34) (2) 1 .w1c (0) false
/-- TU.D.STAT.SETERR (R122, spec/04). -/
def TU.D.STAT.SETERR (d : Nat) : Fld := Fld.mk (tuBase + 0x000 + 0x40 * d + 0x34) (3) 1 .w1c (0) false
/-- TU.P.RXLAT.PS (R122, spec/04). -/
def TU.P.RXLAT.PS (p : Nat) : Fld := Fld.mk (tuBase + 0x100 + 0x10 * p) (0) 20 .rw (0) true
/-- TU.P.TXLAT.PS (R122, spec/04). -/
def TU.P.TXLAT.PS (p : Nat) : Fld := Fld.mk (tuBase + 0x100 + 0x10 * p + 0x4) (0) 20 .rw (0) true
/-- TU.CTRL.FINE (R122, spec/04). -/
def TU.CTRL.FINE : Fld := Fld.mk (tuBase + 0x200) (0) 1 .rw (1) true
/-- TU.CTRL.CALEN (R122, spec/04). -/
def TU.CTRL.CALEN : Fld := Fld.mk (tuBase + 0x200) (1) 1 .rw (1) false
/-- TU.CTRL.CALPER (R122, spec/04). -/
def TU.CTRL.CALPER : Fld := Fld.mk (tuBase + 0x200) (8) 8 .rw (1) false
/-- TU.STAT.CALOK (R122, spec/04). -/
def TU.STAT.CALOK : Fld := Fld.mk (tuBase + 0x204) (0) 9 .ro (0) false
/-- TU.STAT.CALSTALE (R122, spec/04). -/
def TU.STAT.CALSTALE : Fld := Fld.mk (tuBase + 0x204) (16) 9 .w1c (0) false
/-- TU.IEN.UNSYNC (R122, spec/04). -/
def TU.IEN.UNSYNC : Fld := Fld.mk (tuBase + 0x208) (0) 1 .rw (0) false
/-- TU.IEN.STEPPED (R122, spec/04). -/
def TU.IEN.STEPPED : Fld := Fld.mk (tuBase + 0x208) (1) 1 .rw (0) false
/-- TU.IEN.RATECLAMP (R122, spec/04). -/
def TU.IEN.RATECLAMP : Fld := Fld.mk (tuBase + 0x208) (2) 1 .rw (0) false
/-- TU.IEN.SETERR (R122, spec/04). -/
def TU.IEN.SETERR : Fld := Fld.mk (tuBase + 0x208) (3) 1 .rw (0) false
/-- TU.IEN.CALSTALE (R122, spec/04). -/
def TU.IEN.CALSTALE : Fld := Fld.mk (tuBase + 0x208) (4) 1 .rw (0) false
/-- TU.SLEEP.TICKS (R122, spec/04). -/
def TU.SLEEP.TICKS : Fld := Fld.mk (tuBase + 0x20C) (0) 32 .ro (0) false
/-- TU.PPS.CTRL.EN (R122, spec/04). -/
def TU.PPS.CTRL.EN (k : Nat) : Fld := Fld.mk (tuBase + 0x280 + 0x10 * k) (0) 1 .rw (0) true
/-- TU.PPS.CTRL.DOM (R122, spec/04). -/
def TU.PPS.CTRL.DOM (k : Nat) : Fld := Fld.mk (tuBase + 0x280 + 0x10 * k) (1) 2 .rw (0) true
/-- TU.PPS.CTRL.GATEU (R122, spec/04). -/
def TU.PPS.CTRL.GATEU (k : Nat) : Fld := Fld.mk (tuBase + 0x280 + 0x10 * k) (3) 1 .rw (1) false
/-- TU.PPS.CTRL.POL (R122, spec/04). -/
def TU.PPS.CTRL.POL (k : Nat) : Fld := Fld.mk (tuBase + 0x280 + 0x10 * k) (4) 1 .rw (0) false
/-- TU.PPS.OFFS.NS (R122, spec/04). -/
def TU.PPS.OFFS.NS (k : Nat) : Fld := Fld.mk (tuBase + 0x280 + 0x10 * k + 0x4) (0) 30 .rw (0) false
/-- TU.PPS.WIDTH.NS (R122, spec/04). -/
def TU.PPS.WIDTH.NS (k : Nat) : Fld := Fld.mk (tuBase + 0x280 + 0x10 * k + 0x8) (0) 30 .rw (100000000) false
/-- TU.TMO.SET.LVL (R122, spec/04). -/
def TU.TMO.SET.LVL : Fld := Fld.mk (tuBase + 0x300) (0) 32 .w1s (0) true
/-- TU.TMO.CLR.LVL (R122, spec/04). -/
def TU.TMO.CLR.LVL : Fld := Fld.mk (tuBase + 0x304) (0) 32 .w1c (0) true
/-- TU.TMO.TGL.TGL (R122, spec/04). -/
def TU.TMO.TGL.TGL : Fld := Fld.mk (tuBase + 0x308) (0) 32 .wo (0) false
/-- TMR.CNT_L.CNT (R123, spec/04). -/
def TMR.CNT_L.CNT (n : Nat) : Fld := Fld.mk (cluBase n + 0x7000) (0) 32 .ro (0) false
/-- TMR.CNT_H.CNT (R123, spec/04). -/
def TMR.CNT_H.CNT (n : Nat) : Fld := Fld.mk (cluBase n + 0x7004) (0) 16 .ro (0) false
/-- TMR.STAT.OVF (R123, spec/04). -/
def TMR.STAT.OVF (n : Nat) : Fld := Fld.mk (cluBase n + 0x7008) (0) 1 .w1c (0) false
/-- TMR.STAT.MAKEUP (R123, spec/04). -/
def TMR.STAT.MAKEUP (n : Nat) : Fld := Fld.mk (cluBase n + 0x7008) (1) 1 .w1c (0) false
/-- TMR.SLEEP.TICKS (R123, spec/04). -/
def TMR.SLEEP.TICKS (n : Nat) : Fld := Fld.mk (cluBase n + 0x700C) (0) 32 .ro (0) false
/-- TMR.OVFACT.ACT (R123, spec/04). -/
def TMR.OVFACT.ACT (n : Nat) : Fld := Fld.mk (cluBase n + 0x7010) (0) 2 .rw (0) false
/-- TMR.OVFACT.PIN (R123, spec/04). -/
def TMR.OVFACT.PIN (n : Nat) : Fld := Fld.mk (cluBase n + 0x7010) (2) 5 .rw (0) false
/-- TMR.CSTAT.MATCH (R123, spec/04). -/
def TMR.CSTAT.MATCH (n : Nat) : Fld := Fld.mk (cluBase n + 0x7014) (0) 8 .w1c (0) false
/-- TMR.CSTAT.LAG (R123, spec/04). -/
def TMR.CSTAT.LAG (n : Nat) : Fld := Fld.mk (cluBase n + 0x7014) (8) 8 .w1c (0) false
/-- TMR.CSTAT.CAPOVR (R123, spec/04). -/
def TMR.CSTAT.CAPOVR (n : Nat) : Fld := Fld.mk (cluBase n + 0x7014) (16) 4 .w1c (0) false
/-- TMR.IEN.MATCH (R123, spec/04). -/
def TMR.IEN.MATCH (n : Nat) (m : Nat) : Fld := Fld.mk (cluBase n + 0x7018 + 4 * m) (0) 8 .rw (0) false
/-- TMR.IEN.CAP (R123, spec/04). -/
def TMR.IEN.CAP (n : Nat) (m : Nat) : Fld := Fld.mk (cluBase n + 0x7018 + 4 * m) (8) 4 .rw (0) false
/-- TMR.IEN.CAPOVR (R123, spec/04). -/
def TMR.IEN.CAPOVR (n : Nat) (m : Nat) : Fld := Fld.mk (cluBase n + 0x7018 + 4 * m) (12) 4 .rw (0) false
/-- TMR.IEN.OVF (R123, spec/04). -/
def TMR.IEN.OVF (n : Nat) (m : Nat) : Fld := Fld.mk (cluBase n + 0x7018 + 4 * m) (16) 1 .rw (0) false
/-- TMR.IEN.MAKEUP (R123, spec/04). -/
def TMR.IEN.MAKEUP (n : Nat) (m : Nat) : Fld := Fld.mk (cluBase n + 0x7018 + 4 * m) (17) 1 .rw (0) false
/-- TMR.CH.CMP_L.CMP (R123, spec/04). -/
def TMR.CH.CMP_L.CMP (n : Nat) (c : Nat) : Fld := Fld.mk (cluBase n + 0x7040 + 0x10 * c) (0) 32 .rw (0) false
/-- TMR.CH.CMP_H.CMP (R123, spec/04). -/
def TMR.CH.CMP_H.CMP (n : Nat) (c : Nat) : Fld := Fld.mk (cluBase n + 0x7040 + 0x10 * c + 0x4) (0) 16 .rw (0) false
/-- TMR.CH.PER.PER (R123, spec/04). -/
def TMR.CH.PER.PER (n : Nat) (c : Nat) : Fld := Fld.mk (cluBase n + 0x7040 + 0x10 * c + 0x8) (0) 32 .rw (0) false
/-- TMR.CH.CTRL.ARMED (R123, spec/04). -/
def TMR.CH.CTRL.ARMED (n : Nat) (c : Nat) : Fld := Fld.mk (cluBase n + 0x7040 + 0x10 * c + 0xC) (0) 1 .ro (0) false
/-- TMR.CH.CTRL.ACT (R123, spec/04). -/
def TMR.CH.CTRL.ACT (n : Nat) (c : Nat) : Fld := Fld.mk (cluBase n + 0x7040 + 0x10 * c + 0xC) (1) 2 .rw (0) false
/-- TMR.CH.CTRL.PIN (R123, spec/04). -/
def TMR.CH.CTRL.PIN (n : Nat) (c : Nat) : Fld := Fld.mk (cluBase n + 0x7040 + 0x10 * c + 0xC) (3) 5 .rw (0) false
/-- TMR.CH.CTRL.DISARM (R123, spec/04). -/
def TMR.CH.CTRL.DISARM (n : Nat) (c : Nat) : Fld := Fld.mk (cluBase n + 0x7040 + 0x10 * c + 0xC) (8) 1 .wo (0) false
/-- TMR.CAP.CTRL.EDGE (R123, spec/04). -/
def TMR.CAP.CTRL.EDGE (n : Nat) (i : Nat) : Fld := Fld.mk (cluBase n + 0x70C0 + 0x10 * i) (0) 2 .rw (0) false
/-- TMR.CAP.CTRL.SRC (R123, spec/04). -/
def TMR.CAP.CTRL.SRC (n : Nat) (i : Nat) : Fld := Fld.mk (cluBase n + 0x70C0 + 0x10 * i) (2) 4 .rw (0) false
/-- TMR.CAP.CAP_L.VAL (R123, spec/04). -/
def TMR.CAP.CAP_L.VAL (n : Nat) (i : Nat) : Fld := Fld.mk (cluBase n + 0x70C0 + 0x10 * i + 0x4) (0) 32 .ro (0) false
/-- TMR.CAP.CAP_H.VAL (R123, spec/04). -/
def TMR.CAP.CAP_H.VAL (n : Nat) (i : Nat) : Fld := Fld.mk (cluBase n + 0x70C0 + 0x10 * i + 0x8) (0) 16 .ro (0) false
/-- TMR.CAP.CAP_H.SEQ (R123, spec/04). -/
def TMR.CAP.CAP_H.SEQ (n : Nat) (i : Nat) : Fld := Fld.mk (cluBase n + 0x70C0 + 0x10 * i + 0x8) (16) 4 .ro (0) false
/-- TMR.CAP.CAP_H.FULL (R123, spec/04). -/
def TMR.CAP.CAP_H.FULL (n : Nat) (i : Nat) : Fld := Fld.mk (cluBase n + 0x70C0 + 0x10 * i + 0x8) (24) 1 .rc (0) false
/-- TTW.CTRL.EN (R124, spec/04). -/
def TTW.CTRL.EN (n : Nat) (l : Nat) : Fld := Fld.mk (ttwBase n l + 0x00) (0) 1 .rw (0) true
/-- TTW.CTRL.DOM (R124, spec/04). -/
def TTW.CTRL.DOM (n : Nat) (l : Nat) : Fld := Fld.mk (ttwBase n l + 0x00) (1) 2 .rw (0) true
/-- TTW.PERIOD.NS (R124, spec/04). -/
def TTW.PERIOD.NS (n : Nat) (l : Nat) : Fld := Fld.mk (ttwBase n l + 0x04) (0) 30 .rw (0) true
/-- TTW.PHASE.NS (R124, spec/04). -/
def TTW.PHASE.NS (n : Nat) (l : Nat) : Fld := Fld.mk (ttwBase n l + 0x08) (0) 30 .rw (0) true
/-- TTW.GUARD.NS (R124, spec/04). -/
def TTW.GUARD.NS (n : Nat) (l : Nat) : Fld := Fld.mk (ttwBase n l + 0x0C) (0) 16 .rw (0) true
/-- TTW.STAT.CFGERR (R124, spec/04). -/
def TTW.STAT.CFGERR (n : Nat) (l : Nat) : Fld := Fld.mk (ttwBase n l + 0x10) (0) 1 .w1c (0) false
/-- TTW.STAT.OPEN (R124, spec/04). -/
def TTW.STAT.OPEN (n : Nat) (l : Nat) : Fld := Fld.mk (ttwBase n l + 0x10) (1) 1 .ro (0) false
/-- TTW.LATE.CNT (R124, spec/04). -/
def TTW.LATE.CNT (n : Nat) (l : Nat) : Fld := Fld.mk (ttwBase n l + 0x14) (0) 32 .rc (0) false
/-- TTW.W.OPEN.NS (R124, spec/04). -/
def TTW.W.OPEN.NS (n : Nat) (l : Nat) (w : Nat) : Fld := Fld.mk (ttwBase n l + 0x20 + 0x8 * w) (0) 30 .rw (0) true
/-- TTW.W.LEN.NS (R124, spec/04). -/
def TTW.W.LEN.NS (n : Nat) (l : Nat) (w : Nat) : Fld := Fld.mk (ttwBase n l + 0x24 + 0x8 * w) (0) 30 .rw (0) true
/-- TIL.FID_L.FID (R164, spec/05). -/
def TIL.FID_L.FID : Fld := Fld.mk (tilBase + 0x000) (0) 32 .ro (0) false
/-- TIL.FID_H.FID (R164, spec/05). -/
def TIL.FID_H.FID : Fld := Fld.mk (tilBase + 0x004) (0) 32 .ro (0) false
/-- TIL.ETYPE.TYPE (R164, spec/05). -/
def TIL.ETYPE.TYPE : Fld := Fld.mk (tilBase + 0x008) (0) 16 .rw (34997) true
/-- TIL.TSRC.RING (R164, spec/05). -/
def TIL.TSRC.RING : Fld := Fld.mk (tilBase + 0x00C) (0) 2 .rw (0) true
/-- TIL.TSRC.EN (R164, spec/05). -/
def TIL.TSRC.EN : Fld := Fld.mk (tilBase + 0x00C) (2) 1 .rw (0) true
/-- TIL.TSRC.ROOT (R164, spec/05). -/
def TIL.TSRC.ROOT : Fld := Fld.mk (tilBase + 0x00C) (3) 1 .rw (0) true
/-- TIL.RING.CTRL.EN (R164, spec/05). -/
def TIL.RING.CTRL.EN (r : Nat) : Fld := Fld.mk (tilBase + 0x100 + 0x100 * r) (0) 1 .rw (0) true
/-- TIL.RING.CTRL.MCAP (R164, spec/05). -/
def TIL.RING.CTRL.MCAP (r : Nat) : Fld := Fld.mk (tilBase + 0x100 + 0x100 * r) (1) 1 .rw (0) true
/-- TIL.RING.CTRL.RENUM (R164, spec/05). -/
def TIL.RING.CTRL.RENUM (r : Nat) : Fld := Fld.mk (tilBase + 0x100 + 0x100 * r) (2) 1 .wo (0) false
/-- TIL.RING.CTRL.CHECK (R164, spec/05). -/
def TIL.RING.CTRL.CHECK (r : Nat) : Fld := Fld.mk (tilBase + 0x100 + 0x100 * r) (3) 1 .wo (0) false
/-- TIL.RING.CTRL.RELISTEN (R164, spec/05). -/
def TIL.RING.CTRL.RELISTEN (r : Nat) : Fld := Fld.mk (tilBase + 0x100 + 0x100 * r) (4) 1 .wo (0) false
/-- TIL.RING.CFG.SEG (R164, spec/05). -/
def TIL.RING.CFG.SEG (r : Nat) : Fld := Fld.mk (tilBase + 0x100 + 0x100 * r + 0x04) (0) 9 .rw (0) true
/-- TIL.RING.CFG.LOSS (R164, spec/05). -/
def TIL.RING.CFG.LOSS (r : Nat) : Fld := Fld.mk (tilBase + 0x100 + 0x100 * r + 0x04) (16) 8 .rw (3) false
/-- TIL.RING.PERIOD.NS (R164, spec/05). -/
def TIL.RING.PERIOD.NS (r : Nat) : Fld := Fld.mk (tilBase + 0x100 + 0x100 * r + 0x08) (0) 30 .rw (0) true
/-- TIL.RING.LISTEN.US (R164, spec/05). -/
def TIL.RING.LISTEN.US (r : Nat) : Fld := Fld.mk (tilBase + 0x100 + 0x100 * r + 0x0C) (0) 16 .rw (1000) true
/-- TIL.RING.STAT.STATE (R164, spec/05). -/
def TIL.RING.STAT.STATE (r : Nat) : Fld := Fld.mk (tilBase + 0x100 + 0x100 * r + 0x10) (0) 3 .ro (0) false
/-- TIL.RING.STAT.NODE (R164, spec/05). -/
def TIL.RING.STAT.NODE (r : Nat) : Fld := Fld.mk (tilBase + 0x100 + 0x100 * r + 0x10) (8) 18 .ro (0) false
/-- TIL.RING.STAT.TIMEVALID (R164, spec/05). -/
def TIL.RING.STAT.TIMEVALID (r : Nat) : Fld := Fld.mk (tilBase + 0x100 + 0x100 * r + 0x10) (26) 1 .ro (0) false
/-- TIL.RING.EPOCH.EPOCH (R164, spec/05). -/
def TIL.RING.EPOCH.EPOCH (r : Nat) : Fld := Fld.mk (tilBase + 0x100 + 0x100 * r + 0x14) (0) 16 .ro (0) false
/-- TIL.RING.NODES.N (R164, spec/05). -/
def TIL.RING.NODES.N (r : Nat) : Fld := Fld.mk (tilBase + 0x100 + 0x100 * r + 0x18) (0) 9 .ro (0) false
/-- TIL.RING.EVT.EVT (R164, spec/05). -/
def TIL.RING.EVT.EVT (r : Nat) : Fld := Fld.mk (tilBase + 0x100 + 0x100 * r + 0x1C) (0) 14 .w1c (0) false
/-- TIL.RING.IEN.IEN (R164, spec/05). -/
def TIL.RING.IEN.IEN (r : Nat) : Fld := Fld.mk (tilBase + 0x100 + 0x100 * r + 0x20) (0) 14 .rw (0) false
/-- TIL.RING.LINK.PS (R164, spec/05). -/
def TIL.RING.LINK.PS (r : Nat) : Fld := Fld.mk (tilBase + 0x100 + 0x100 * r + 0x24) (0) 32 .ro (0) false
/-- TIL.RING.ASYM.PS (R164, spec/05). -/
def TIL.RING.ASYM.PS (r : Nat) : Fld := Fld.mk (tilBase + 0x100 + 0x100 * r + 0x28) (0) 32 .rw (0) true
/-- TIL.RING.OFFSET.PS (R164, spec/05). -/
def TIL.RING.OFFSET.PS (r : Nat) : Fld := Fld.mk (tilBase + 0x100 + 0x100 * r + 0x2C) (0) 32 .ro (0) false
/-- TIL.RING.STALECNT.CNT (R164, spec/05). -/
def TIL.RING.STALECNT.CNT (r : Nat) : Fld := Fld.mk (tilBase + 0x100 + 0x100 * r + 0x30) (0) 32 .rc (0) false
/-- TIL.RING.LOOPNS.NS (R164, spec/05). -/
def TIL.RING.LOOPNS.NS (r : Nat) : Fld := Fld.mk (tilBase + 0x100 + 0x100 * r + 0x34) (0) 32 .ro (0) false
/-- TIL.RING.ECHOPER.US (R164, spec/05). -/
def TIL.RING.ECHOPER.US (r : Nat) : Fld := Fld.mk (tilBase + 0x100 + 0x100 * r + 0x38) (0) 16 .rw (100) false
/-- TIL.RT.VALID (R164, spec/05). -/
def TIL.RT.VALID (s : Nat) : Fld := Fld.mk (tilBase + 0x4000 + 4 * s) (0) 1 .rw (0) false
/-- TIL.RT.LOCAL (R164, spec/05). -/
def TIL.RT.LOCAL (s : Nat) : Fld := Fld.mk (tilBase + 0x4000 + 4 * s) (1) 1 .rw (0) false
/-- TIL.RT.RING (R164, spec/05). -/
def TIL.RT.RING (s : Nat) : Fld := Fld.mk (tilBase + 0x4000 + 4 * s) (2) 2 .rw (0) false
/-- TIL.RT.NEXT (R164, spec/05). -/
def TIL.RT.NEXT (s : Nat) : Fld := Fld.mk (tilBase + 0x4000 + 4 * s) (4) 9 .rw (0) false
/-- TIL.RT.METRIC (R164, spec/05). -/
def TIL.RT.METRIC (s : Nat) : Fld := Fld.mk (tilBase + 0x4000 + 4 * s) (16) 8 .rw (0) false
/-- TWN.CTRL.LEVEL (R193, spec/06). -/
def TWN.CTRL.LEVEL : Fld := Fld.mk (tilBase + 0x8000) (0) 2 .rw (0) true
/-- TWN.CTRL.RINGS (R193, spec/06). -/
def TWN.CTRL.RINGS : Fld := Fld.mk (tilBase + 0x8000) (2) 4 .rw (0) true
/-- TWN.CTRL.SOLOOK (R193, spec/06). -/
def TWN.CTRL.SOLOOK : Fld := Fld.mk (tilBase + 0x8000) (6) 1 .rw (0) true
/-- TWN.CTRL.HANDOVER (R193, spec/06). -/
def TWN.CTRL.HANDOVER : Fld := Fld.mk (tilBase + 0x8000) (7) 1 .wo (0) false
/-- TWN.CTRL.RESYNC (R193, spec/06). -/
def TWN.CTRL.RESYNC : Fld := Fld.mk (tilBase + 0x8000) (8) 1 .wo (0) false
/-- TWN.CTRL.HOLDTAKE (R193, spec/06). -/
def TWN.CTRL.HOLDTAKE : Fld := Fld.mk (tilBase + 0x8000) (9) 1 .rw (0) true
/-- TWN.CTRL.SEEKMS (R193, spec/06). -/
def TWN.CTRL.SEEKMS : Fld := Fld.mk (tilBase + 0x8000) (16) 8 .rw (20) true
/-- TWN.STAT.STATE (R193, spec/06). -/
def TWN.STAT.STATE : Fld := Fld.mk (tilBase + 0x8004) (0) 3 .ro (0) false
/-- TWN.STAT.LINK (R193, spec/06). -/
def TWN.STAT.LINK : Fld := Fld.mk (tilBase + 0x8004) (3) 1 .ro (0) false
/-- TWN.STAT.HOLD (R193, spec/06). -/
def TWN.STAT.HOLD : Fld := Fld.mk (tilBase + 0x8004) (4) 1 .ro (0) false
/-- TWN.STAT.DBGOPEN (R193, spec/06). -/
def TWN.STAT.DBGOPEN : Fld := Fld.mk (tilBase + 0x8004) (5) 1 .ro (0) false
/-- TWN.EPOCH.EPOCH (R193, spec/06). -/
def TWN.EPOCH.EPOCH : Fld := Fld.mk (tilBase + 0x8008) (0) 16 .ro (0) false
/-- TWN.PAIRID.ID (R193, spec/06). -/
def TWN.PAIRID.ID : Fld := Fld.mk (tilBase + 0x800C) (0) 16 .rw (0) true
/-- TWN.PEERFID_L.FID (R193, spec/06). -/
def TWN.PEERFID_L.FID : Fld := Fld.mk (tilBase + 0x8010) (0) 32 .ro (0) false
/-- TWN.PEERFID_H.FID (R193, spec/06). -/
def TWN.PEERFID_H.FID : Fld := Fld.mk (tilBase + 0x8014) (0) 32 .ro (0) false
/-- TWN.ALIVE.KICK (R193, spec/06). -/
def TWN.ALIVE.KICK : Fld := Fld.mk (tilBase + 0x8018) (0) 1 .wo (0) false
/-- TWN.ALIVEUS.US (R193, spec/06). -/
def TWN.ALIVEUS.US : Fld := Fld.mk (tilBase + 0x801C) (0) 16 .rw (100) false
/-- TWN.CUTNS.NS (R193, spec/06). -/
def TWN.CUTNS.NS : Fld := Fld.mk (tilBase + 0x8020) (0) 30 .rw (0) true
/-- TWN.QHOLD.CLS (R193, spec/06). -/
def TWN.QHOLD.CLS : Fld := Fld.mk (tilBase + 0x8024) (0) 8 .rw (127) true
/-- TWN.EVT.PAIRED (R193, spec/06). -/
def TWN.EVT.PAIRED : Fld := Fld.mk (tilBase + 0x8028) (0) 1 .w1c (0) false
/-- TWN.EVT.TAKEOVER (R193, spec/06). -/
def TWN.EVT.TAKEOVER : Fld := Fld.mk (tilBase + 0x8028) (1) 1 .w1c (0) false
/-- TWN.EVT.SBYLOST (R193, spec/06). -/
def TWN.EVT.SBYLOST : Fld := Fld.mk (tilBase + 0x8028) (2) 1 .w1c (0) false
/-- TWN.EVT.FENCED (R193, spec/06). -/
def TWN.EVT.FENCED : Fld := Fld.mk (tilBase + 0x8028) (3) 1 .w1c (0) false
/-- TWN.EVT.HANDOVER (R193, spec/06). -/
def TWN.EVT.HANDOVER : Fld := Fld.mk (tilBase + 0x8028) (4) 1 .w1c (0) false
/-- TWN.EVT.HOFAIL (R193, spec/06). -/
def TWN.EVT.HOFAIL : Fld := Fld.mk (tilBase + 0x8028) (5) 1 .w1c (0) false
/-- TWN.EVT.RESYNCFAIL (R193, spec/06). -/
def TWN.EVT.RESYNCFAIL : Fld := Fld.mk (tilBase + 0x8028) (6) 1 .w1c (0) false
/-- TWN.EVT.DELTAOVF (R193, spec/06). -/
def TWN.EVT.DELTAOVF : Fld := Fld.mk (tilBase + 0x8028) (7) 1 .w1c (0) false
/-- TWN.EVT.SEEKTO (R193, spec/06). -/
def TWN.EVT.SEEKTO : Fld := Fld.mk (tilBase + 0x8028) (8) 1 .w1c (0) false
/-- TWN.EVT.PAIRREF (R193, spec/06). -/
def TWN.EVT.PAIRREF : Fld := Fld.mk (tilBase + 0x8028) (9) 1 .w1c (0) false
/-- TWN.EVT.PEERHOLD (R193, spec/06). -/
def TWN.EVT.PEERHOLD : Fld := Fld.mk (tilBase + 0x8028) (10) 1 .w1c (0) false
/-- TWN.EVT.PUBIGN (R193, spec/06). -/
def TWN.EVT.PUBIGN : Fld := Fld.mk (tilBase + 0x8028) (11) 1 .w1c (0) false
/-- TWN.IEN.IEN (R193, spec/06). -/
def TWN.IEN.IEN : Fld := Fld.mk (tilBase + 0x802C) (0) 12 .rw (0) false
/-- TWN.CUTCNT.CNT (R193, spec/06). -/
def TWN.CUTCNT.CNT : Fld := Fld.mk (tilBase + 0x8030) (0) 32 .ro (0) false
/-- TWN.HBMISS.CNT (R193, spec/06). -/
def TWN.HBMISS.CNT : Fld := Fld.mk (tilBase + 0x8034) (0) 32 .rc (0) false
/-- TWN.RSYNCUS.US (R193, spec/06). -/
def TWN.RSYNCUS.US : Fld := Fld.mk (tilBase + 0x8038) (0) 32 .ro (0) false
/-- TWN.MIR.BASE.BASE (R193, spec/06). -/
def TWN.MIR.BASE.BASE (m : Nat) : Fld := Fld.mk (tilBase + 0x8100 + 8 * m) (6) 21 .rw (0) true
/-- TWN.MIR.SIZE.SIZE (R193, spec/06). -/
def TWN.MIR.SIZE.SIZE (m : Nat) : Fld := Fld.mk (tilBase + 0x8100 + 8 * m + 0x4) (6) 17 .rw (0) true
/-- HSK.PRES_L.PRES (R260, spec/08). -/
def HSK.PRES_L.PRES : Fld := Fld.mk (mgtBase + 0xF000) (0) 32 .rw (0) true
/-- HSK.PRES_H.PRES (R260, spec/08). -/
def HSK.PRES_H.PRES : Fld := Fld.mk (mgtBase + 0xF004) (0) 32 .rw (0) true
/-- HSK.STAT.TOCNT (R260, spec/08). -/
def HSK.STAT.TOCNT : Fld := Fld.mk (mgtBase + 0xF008) (0) 16 .rc (0) false
/-- HSK.STAT.STRAY (R260, spec/08). -/
def HSK.STAT.STRAY : Fld := Fld.mk (mgtBase + 0xF008) (16) 16 .rc (0) false
/-- HSK.LAST.PORT (R260, spec/08). -/
def HSK.LAST.PORT : Fld := Fld.mk (mgtBase + 0xF00C) (0) 6 .ro (0) false
/-- HSK.LAST.WE (R260, spec/08). -/
def HSK.LAST.WE : Fld := Fld.mk (mgtBase + 0xF00C) (6) 1 .ro (0) false
/-- HSK.LAST.ENG (R260, spec/08). -/
def HSK.LAST.ENG : Fld := Fld.mk (mgtBase + 0xF00C) (8) 4 .ro (0) false
/-- FLT.STAT.ENG (R285, spec/09). -/
def FLT.STAT.ENG : Fld := Fld.mk (mgtBase + 0xE000) (0) 14 .w1c (0) false
/-- FLT.LAST.ENG (R285, spec/09). -/
def FLT.LAST.ENG : Fld := Fld.mk (mgtBase + 0xE004) (0) 4 .ro (0) false
/-- FLT.LAST.WDOG (R285, spec/09). -/
def FLT.LAST.WDOG : Fld := Fld.mk (mgtBase + 0xE004) (4) 1 .ro (0) false
/-- FLT.LAST.VEC (R285, spec/09). -/
def FLT.LAST.VEC : Fld := Fld.mk (mgtBase + 0xE004) (8) 6 .ro (0) false
/-- FLT.EPC_L.ADDR (R285, spec/09). -/
def FLT.EPC_L.ADDR : Fld := Fld.mk (mgtBase + 0xE008) (0) 32 .ro (0) false
/-- FLT.EPC_H.ADDR (R285, spec/09). -/
def FLT.EPC_H.ADDR : Fld := Fld.mk (mgtBase + 0xE00C) (0) 16 .ro (0) false
/-- FLT.RUN.ENG (R285, spec/09). -/
def FLT.RUN.ENG : Fld := Fld.mk (mgtBase + 0xE010) (0) 14 .ro (16383) false
/-- SP.OWNER.OWNER (R314, spec/10). -/
def SP.OWNER.OWNER (i : Nat) : Fld := Fld.mk (mgtBase + 0xC000 + 4 * i) (0) 2 .rw (0) false
/-- SP.OWNER.PEND (R314, spec/10). -/
def SP.OWNER.PEND (i : Nat) : Fld := Fld.mk (mgtBase + 0xC000 + 4 * i) (2) 1 .ro (0) false
/-- MEM.EVT.UE (R314, spec/10). -/
def MEM.EVT.UE : Fld := Fld.mk (mgtBase + 0xC040) (0) 1 .w1c (0) false
/-- MEM.EVT.OWNERR (R314, spec/10). -/
def MEM.EVT.OWNERR : Fld := Fld.mk (mgtBase + 0xC040) (1) 1 .w1c (0) false
/-- MEM.EVT.OWNBUSY (R314, spec/10). -/
def MEM.EVT.OWNBUSY : Fld := Fld.mk (mgtBase + 0xC040) (2) 1 .w1c (0) false
/-- MEM.IEN.IEN (R314, spec/10). -/
def MEM.IEN.IEN : Fld := Fld.mk (mgtBase + 0xC044) (0) 3 .rw (0) false
/-- MEM.CEADDR.ROW (R314, spec/10). -/
def MEM.CEADDR.ROW : Fld := Fld.mk (mgtBase + 0xC048) (4) 23 .ro (0) false
/-- MEM.UEADDR.ROW (R314, spec/10). -/
def MEM.UEADDR.ROW : Fld := Fld.mk (mgtBase + 0xC04C) (4) 23 .ro (0) false
/-- MEM.OWNERR.SP (R314, spec/10). -/
def MEM.OWNERR.SP : Fld := Fld.mk (mgtBase + 0xC050) (0) 4 .ro (0) false
/-- MEM.OWNERR.REQ (R314, spec/10). -/
def MEM.OWNERR.REQ : Fld := Fld.mk (mgtBase + 0xC050) (8) 5 .ro (0) false
/-- MEM.PARCNT.CNT (R314, spec/10). -/
def MEM.PARCNT.CNT : Fld := Fld.mk (mgtBase + 0xC054) (0) 32 .rc (0) false
/-- MEM.RSTAT.RFAIL (R314, spec/10). -/
def MEM.RSTAT.RFAIL : Fld := Fld.mk (mgtBase + 0xC058) (0) 1 .ro (0) false
/-- MEM.RSTAT.USED (R314, spec/10). -/
def MEM.RSTAT.USED : Fld := Fld.mk (mgtBase + 0xC058) (8) 8 .ro (0) false
/-- MEM.CE.CNT (R314, spec/10). -/
def MEM.CE.CNT (m : Nat) : Fld := Fld.mk (mgtBase + 0xC080 + 4 * m) (0) 32 .rc (0) false
/-- MEMT.CTRL.POLICY (R315, spec/10). -/
def MEMT.CTRL.POLICY : Fld := Fld.mk (mgtBase + 0xC100) (0) 2 .rw (0) true
/-- MEMT.CTRL.GAPMS (R315, spec/10). -/
def MEMT.CTRL.GAPMS : Fld := Fld.mk (mgtBase + 0xC100) (8) 8 .rw (10) true
/-- MEMT.CMD.GRAN (R315, spec/10). -/
def MEMT.CMD.GRAN : Fld := Fld.mk (mgtBase + 0xC104) (0) 1 .wo (0) false
/-- MEMT.CMD.SP (R315, spec/10). -/
def MEMT.CMD.SP : Fld := Fld.mk (mgtBase + 0xC104) (1) 1 .wo (0) false
/-- MEMT.CMD.ENG (R315, spec/10). -/
def MEMT.CMD.ENG : Fld := Fld.mk (mgtBase + 0xC104) (8) 4 .wo (0) false
/-- MEMT.STAT.PHASE (R315, spec/10). -/
def MEMT.STAT.PHASE : Fld := Fld.mk (mgtBase + 0xC108) (0) 2 .ro (0) false
/-- MEMT.STAT.LBANK (R315, spec/10). -/
def MEMT.STAT.LBANK : Fld := Fld.mk (mgtBase + 0xC108) (4) 4 .ro (0) false
/-- MEMT.STAT.NEXT (R315, spec/10). -/
def MEMT.STAT.NEXT : Fld := Fld.mk (mgtBase + 0xC108) (8) 5 .rw (0) false
/-- MEMT.STAT.LOAN (R315, spec/10). -/
def MEMT.STAT.LOAN : Fld := Fld.mk (mgtBase + 0xC108) (16) 1 .ro (0) false
/-- MEMT.STAT.LENG (R315, spec/10). -/
def MEMT.STAT.LENG : Fld := Fld.mk (mgtBase + 0xC108) (20) 4 .ro (0) false
/-- MEMT.STAT.UNMAPPED (R315, spec/10). -/
def MEMT.STAT.UNMAPPED : Fld := Fld.mk (mgtBase + 0xC108) (24) 4 .ro (0) false
/-- MEMT.SPARE.PBANK (R315, spec/10). -/
def MEMT.SPARE.PBANK : Fld := Fld.mk (mgtBase + 0xC10C) (0) 5 .ro (16) false
/-- MEMT.SPARE.UNTESTED (R315, spec/10). -/
def MEMT.SPARE.UNTESTED : Fld := Fld.mk (mgtBase + 0xC10C) (8) 1 .ro (0) false
/-- MEMT.BAD.BAD (R315, spec/10). -/
def MEMT.BAD.BAD : Fld := Fld.mk (mgtBase + 0xC120) (0) 17 .ro (0) false
/-- MEMT.FAILROW.ROW (R315, spec/10). -/
def MEMT.FAILROW.ROW : Fld := Fld.mk (mgtBase + 0xC124) (0) 15 .ro (0) false
/-- MEMT.FAILROW.PBANK (R315, spec/10). -/
def MEMT.FAILROW.PBANK : Fld := Fld.mk (mgtBase + 0xC124) (16) 5 .ro (0) false
/-- MEMT.PASS.CNT (R315, spec/10). -/
def MEMT.PASS.CNT : Fld := Fld.mk (mgtBase + 0xC128) (0) 32 .ro (0) false
/-- MEMT.SPRES.ENG (R315, spec/10). -/
def MEMT.SPRES.ENG : Fld := Fld.mk (mgtBase + 0xC12C) (0) 4 .ro (0) false
/-- MEMT.SPRES.ABORT (R315, spec/10). -/
def MEMT.SPRES.ABORT : Fld := Fld.mk (mgtBase + 0xC12C) (8) 1 .ro (0) false
/-- MEMT.EVT.DONE (R315, spec/10). -/
def MEMT.EVT.DONE : Fld := Fld.mk (mgtBase + 0xC130) (0) 1 .w1c (0) false
/-- MEMT.EVT.BANKFAIL (R315, spec/10). -/
def MEMT.EVT.BANKFAIL : Fld := Fld.mk (mgtBase + 0xC130) (1) 1 .w1c (0) false
/-- MEMT.EVT.SPFAIL (R315, spec/10). -/
def MEMT.EVT.SPFAIL : Fld := Fld.mk (mgtBase + 0xC130) (2) 1 .w1c (0) false
/-- MEMT.EVT.CMDIGN (R315, spec/10). -/
def MEMT.EVT.CMDIGN : Fld := Fld.mk (mgtBase + 0xC130) (3) 1 .w1c (0) false
/-- MEMT.IEN.IEN (R315, spec/10). -/
def MEMT.IEN.IEN : Fld := Fld.mk (mgtBase + 0xC134) (0) 4 .rw (0) false
/-- SEM.TAKE.GOT (R316, spec/10). -/
def SEM.TAKE.GOT (k : Nat) : Fld := Fld.mk (mgtBase + 0xD000 + 4 * k) (0) 1 .ro (0) false
/-- SEM.GIVE.IDX (R316, spec/10). -/
def SEM.GIVE.IDX : Fld := Fld.mk (mgtBase + 0xD100) (0) 6 .wo (0) false
/-- SEM.STAT_L.HELD (R316, spec/10). -/
def SEM.STAT_L.HELD : Fld := Fld.mk (mgtBase + 0xD104) (0) 32 .ro (0) false
/-- SEM.STAT_H.HELD (R316, spec/10). -/
def SEM.STAT_H.HELD : Fld := Fld.mk (mgtBase + 0xD108) (0) 32 .ro (0) false
/-- SEM.FORCE_L.FREE (R316, spec/10). -/
def SEM.FORCE_L.FREE : Fld := Fld.mk (mgtBase + 0xD10C) (0) 32 .w1c (0) false
/-- SEM.FORCE_H.FREE (R316, spec/10). -/
def SEM.FORCE_H.FREE : Fld := Fld.mk (mgtBase + 0xD110) (0) 32 .w1c (0) false
/-- SEM.HOLD.REQ (R316, spec/10). -/
def SEM.HOLD.REQ (k : Nat) : Fld := Fld.mk (mgtBase + 0xD200 + 4 * k) (0) 5 .ro (0) false
/-- SEM.HOLD.HELD (R316, spec/10). -/
def SEM.HOLD.HELD (k : Nat) : Fld := Fld.mk (mgtBase + 0xD200 + 4 * k) (8) 1 .ro (0) false
/-- SEM.HOLD.FORCED (R316, spec/10). -/
def SEM.HOLD.FORCED (k : Nat) : Fld := Fld.mk (mgtBase + 0xD200 + 4 * k) (9) 1 .w1c (0) false
/-- SEM.HOLD.BADGIVE (R316, spec/10). -/
def SEM.HOLD.BADGIVE (k : Nat) : Fld := Fld.mk (mgtBase + 0xD200 + 4 * k) (16) 8 .rc (0) false
/-- XL.E.CTRL.WALK (R337, spec/11). -/
def XL.E.CTRL.WALK (e : Nat) : Fld := Fld.mk (xlBase e + 0x00) (0) 1 .rw (0) false
/-- XL.E.CTRL.WBASE (R337, spec/11). -/
def XL.E.CTRL.WBASE (e : Nat) : Fld := Fld.mk (xlBase e + 0x00) (16) 9 .rw (0) false
/-- XL.E.ROOT_L.PA (R337, spec/11). -/
def XL.E.ROOT_L.PA (e : Nat) : Fld := Fld.mk (xlBase e + 0x04) (12) 20 .rw (0) false
/-- XL.E.ROOT_H.PA (R337, spec/11). -/
def XL.E.ROOT_H.PA (e : Nat) : Fld := Fld.mk (xlBase e + 0x08) (0) 8 .rw (0) false
/-- XL.E.STAT.SDSEEN (R337, spec/11). -/
def XL.E.STAT.SDSEEN (e : Nat) : Fld := Fld.mk (xlBase e + 0x0C) (0) 1 .ro (0) false
/-- XL.E.STAT.WALKING (R337, spec/11). -/
def XL.E.STAT.WALKING (e : Nat) : Fld := Fld.mk (xlBase e + 0x0C) (1) 1 .ro (0) false
/-- XL.E.WALKS.CNT (R337, spec/11). -/
def XL.E.WALKS.CNT (e : Nat) : Fld := Fld.mk (xlBase e + 0x10) (0) 32 .rc (0) false
/-- XL.E.WFLT.CNT (R337, spec/11). -/
def XL.E.WFLT.CNT (e : Nat) : Fld := Fld.mk (xlBase e + 0x14) (0) 32 .rc (0) false
/-- RAM.BASE_L.EN (R338, spec/11). -/
def RAM.BASE_L.EN (j : Nat) : Fld := Fld.mk (mgtBase + 0xA100 + 0x10 * j) (0) 1 .rw (0) true
/-- RAM.BASE_L.DEV (R338, spec/11). -/
def RAM.BASE_L.DEV (j : Nat) : Fld := Fld.mk (mgtBase + 0xA100 + 0x10 * j) (1) 1 .rw (0) true
/-- RAM.BASE_L.PA (R338, spec/11). -/
def RAM.BASE_L.PA (j : Nat) : Fld := Fld.mk (mgtBase + 0xA100 + 0x10 * j) (12) 20 .rw (0) true
/-- RAM.BASE_H.PA (R338, spec/11). -/
def RAM.BASE_H.PA (j : Nat) : Fld := Fld.mk (mgtBase + 0xA100 + 0x10 * j + 0x4) (0) 8 .rw (0) true
/-- RAM.LIM_L.PA (R338, spec/11). -/
def RAM.LIM_L.PA (j : Nat) : Fld := Fld.mk (mgtBase + 0xA100 + 0x10 * j + 0x8) (12) 20 .rw (0) true
/-- RAM.LIM_H.PA (R338, spec/11). -/
def RAM.LIM_H.PA (j : Nat) : Fld := Fld.mk (mgtBase + 0xA100 + 0x10 * j + 0xC) (0) 8 .rw (0) true
/-- RAM.DEFAULT.DEV (R338, spec/11). -/
def RAM.DEFAULT.DEV : Fld := Fld.mk (mgtBase + 0xA180) (0) 1 .rw (1) true
/-- SD.VA_L.VA (R338, spec/11). -/
def SD.VA_L.VA : Fld := Fld.mk (mgtBase + 0xA200) (12) 20 .rw (0) false
/-- SD.VA_H.VA (R338, spec/11). -/
def SD.VA_H.VA : Fld := Fld.mk (mgtBase + 0xA204) (0) 16 .rw (0) false
/-- SD.CTRL.ENG (R338, spec/11). -/
def SD.CTRL.ENG : Fld := Fld.mk (mgtBase + 0xA208) (0) 14 .rw (0) false
/-- SD.CTRL.L2 (R338, spec/11). -/
def SD.CTRL.L2 : Fld := Fld.mk (mgtBase + 0xA208) (16) 5 .rw (0) false
/-- SD.CTRL.ALL (R338, spec/11). -/
def SD.CTRL.ALL : Fld := Fld.mk (mgtBase + 0xA208) (24) 1 .rw (0) false
/-- SD.CTRL.IC (R338, spec/11). -/
def SD.CTRL.IC : Fld := Fld.mk (mgtBase + 0xA208) (25) 1 .rw (0) false
/-- SD.CTRL.GO (R338, spec/11). -/
def SD.CTRL.GO : Fld := Fld.mk (mgtBase + 0xA208) (31) 1 .wo (0) false
/-- SD.STAT.BUSY (R338, spec/11). -/
def SD.STAT.BUSY : Fld := Fld.mk (mgtBase + 0xA20C) (0) 1 .ro (0) false
/-- SD.STAT.REFUSED (R338, spec/11). -/
def SD.STAT.REFUSED : Fld := Fld.mk (mgtBase + 0xA20C) (1) 1 .w1c (0) false
/-- SD.STAT.COUNT (R338, spec/11). -/
def SD.STAT.COUNT : Fld := Fld.mk (mgtBase + 0xA20C) (16) 16 .ro (0) false
/-- DMA.CH.SRC_L.ADDR (R366, spec/12). -/
def DMA.CH.SRC_L.ADDR (c : Nat) : Fld := Fld.mk (dmaBase c + 0x00) (0) 32 .rw (0) false
/-- DMA.CH.SRC_H.ADDR (R366, spec/12). -/
def DMA.CH.SRC_H.ADDR (c : Nat) : Fld := Fld.mk (dmaBase c + 0x04) (0) 8 .rw (0) false
/-- DMA.CH.DST_L.ADDR (R366, spec/12). -/
def DMA.CH.DST_L.ADDR (c : Nat) : Fld := Fld.mk (dmaBase c + 0x08) (0) 32 .rw (0) false
/-- DMA.CH.DST_H.ADDR (R366, spec/12). -/
def DMA.CH.DST_H.ADDR (c : Nat) : Fld := Fld.mk (dmaBase c + 0x0C) (0) 8 .rw (0) false
/-- DMA.CH.LEN.LEN (R366, spec/12). -/
def DMA.CH.LEN.LEN (c : Nat) : Fld := Fld.mk (dmaBase c + 0x10) (0) 24 .rw (0) false
/-- DMA.CH.DESC_L.ADDR (R366, spec/12). -/
def DMA.CH.DESC_L.ADDR (c : Nat) : Fld := Fld.mk (dmaBase c + 0x14) (4) 28 .rw (0) false
/-- DMA.CH.DESC_H.ADDR (R366, spec/12). -/
def DMA.CH.DESC_H.ADDR (c : Nat) : Fld := Fld.mk (dmaBase c + 0x18) (0) 8 .rw (0) false
/-- DMA.CH.CTRL.GO (R366, spec/12). -/
def DMA.CH.CTRL.GO (c : Nat) : Fld := Fld.mk (dmaBase c + 0x1C) (0) 1 .wo (0) false
/-- DMA.CH.CTRL.ABORT (R366, spec/12). -/
def DMA.CH.CTRL.ABORT (c : Nat) : Fld := Fld.mk (dmaBase c + 0x1C) (1) 1 .wo (0) false
/-- DMA.CH.CTRL.CHAIN (R366, spec/12). -/
def DMA.CH.CTRL.CHAIN (c : Nat) : Fld := Fld.mk (dmaBase c + 0x1C) (2) 1 .rw (0) false
/-- DMA.CH.CTRL.NOTE (R366, spec/12). -/
def DMA.CH.CTRL.NOTE (c : Nat) : Fld := Fld.mk (dmaBase c + 0x1C) (4) 2 .rw (0) false
/-- DMA.CH.CTRL.DBBIT (R366, spec/12). -/
def DMA.CH.CTRL.DBBIT (c : Nat) : Fld := Fld.mk (dmaBase c + 0x1C) (8) 5 .rw (0) false
/-- DMA.CH.CTRL.DBCH (R366, spec/12). -/
def DMA.CH.CTRL.DBCH (c : Nat) : Fld := Fld.mk (dmaBase c + 0x1C) (16) 2 .rw (0) false
/-- DMA.CH.CTRL.DBENG (R366, spec/12). -/
def DMA.CH.CTRL.DBENG (c : Nat) : Fld := Fld.mk (dmaBase c + 0x1C) (20) 4 .rw (0) false
/-- DMA.CH.STAT.BUSY (R366, spec/12). -/
def DMA.CH.STAT.BUSY (c : Nat) : Fld := Fld.mk (dmaBase c + 0x20) (0) 1 .ro (0) false
/-- DMA.CH.STAT.DONE (R366, spec/12). -/
def DMA.CH.STAT.DONE (c : Nat) : Fld := Fld.mk (dmaBase c + 0x20) (1) 1 .w1c (0) false
/-- DMA.CH.STAT.ERR (R366, spec/12). -/
def DMA.CH.STAT.ERR (c : Nat) : Fld := Fld.mk (dmaBase c + 0x20) (2) 1 .w1c (0) false
/-- DMA.CH.STAT.ERRCODE (R366, spec/12). -/
def DMA.CH.STAT.ERRCODE (c : Nat) : Fld := Fld.mk (dmaBase c + 0x20) (4) 3 .ro (0) false
/-- DMA.CH.STAT.SEC (R366, spec/12). -/
def DMA.CH.STAT.SEC (c : Nat) : Fld := Fld.mk (dmaBase c + 0x20) (8) 1 .ro (0) false
/-- DMA.CH.STAT.PERMIT (R366, spec/12). -/
def DMA.CH.STAT.PERMIT (c : Nat) : Fld := Fld.mk (dmaBase c + 0x20) (9) 1 .ro (0) false
/-- DMA.CH.REMAIN.LEN (R366, spec/12). -/
def DMA.CH.REMAIN.LEN (c : Nat) : Fld := Fld.mk (dmaBase c + 0x24) (0) 24 .ro (0) false
/-- DMA.CH.CUR_L.ADDR (R366, spec/12). -/
def DMA.CH.CUR_L.ADDR (c : Nat) : Fld := Fld.mk (dmaBase c + 0x28) (0) 32 .ro (0) false
/-- DMA.CH.CUR_H.ADDR (R366, spec/12). -/
def DMA.CH.CUR_H.ADDR (c : Nat) : Fld := Fld.mk (dmaBase c + 0x2C) (0) 8 .ro (0) false
/-- MB.H2B.DATA (R367, spec/12). -/
def MB.H2B.DATA (c : Nat) (w : Nat) : Fld := Fld.mk (mbBase c + 0x0000 + 4 * w) (0) 32 .rw (0) false
/-- MB.B2H.DATA (R367, spec/12). -/
def MB.B2H.DATA (c : Nat) (w : Nat) : Fld := Fld.mk (mbBase c + 0x0400 + 4 * w) (0) 32 .ro (0) false
/-- DB.HB.BITS (R367, spec/12). -/
def DB.HB.BITS (c : Nat) : Fld := Fld.mk (mbBase c + 0x0800) (0) 32 .w1c (0) false
/-- DB.HMASK.MASK (R367, spec/12). -/
def DB.HMASK.MASK (c : Nat) : Fld := Fld.mk (mbBase c + 0x0804) (0) 32 .rw (1) false
/-- DB.HLINE.LINE (R367, spec/12). -/
def DB.HLINE.LINE (c : Nat) : Fld := Fld.mk (mbBase c + 0x0808) (0) 32 .rw (0) false
/-- DB.HPEND.PEND (R367, spec/12). -/
def DB.HPEND.PEND (c : Nat) : Fld := Fld.mk (mbBase c + 0x080C) (0) 32 .ro (0) false
/-- DB.BB.BITS (R367, spec/12). -/
def DB.BB.BITS (c : Nat) : Fld := Fld.mk (mbBase c + 0x0810) (0) 32 .w1s (0) false
/-- DB.BMASK.MASK (R367, spec/12). -/
def DB.BMASK.MASK (c : Nat) : Fld := Fld.mk (mbBase c + 0x0814) (0) 32 .ro (2147483651) false
/-- MB.STAT.HFULL (R367, spec/12). -/
def MB.STAT.HFULL (c : Nat) : Fld := Fld.mk (mbBase c + 0x0818) (0) 1 .ro (0) false
/-- MB.STAT.BFULL (R367, spec/12). -/
def MB.STAT.BFULL (c : Nat) : Fld := Fld.mk (mbBase c + 0x0818) (1) 1 .ro (0) false
/-- MB.STAT.CROSS (R367, spec/12). -/
def MB.STAT.CROSS (c : Nat) : Fld := Fld.mk (mbBase c + 0x0818) (2) 1 .w1c (0) false
/-- MB.STAT.SECURE (R367, spec/12). -/
def MB.STAT.SECURE (c : Nat) : Fld := Fld.mk (mbBase c + 0x0818) (3) 1 .ro ((if c < 2 then 1 else 0)) false
/-- MB.STAT.READY (R367, spec/12). -/
def MB.STAT.READY (c : Nat) : Fld := Fld.mk (mbBase c + 0x0818) (4) 1 .ro (0) false
/-- MB.CFG.ENG (R367, spec/12). -/
def MB.CFG.ENG (c : Nat) : Fld := Fld.mk (mbBase c + 0x081C) (0) 1 .ro (0) true
/-- MB.CFG.XUS (R367, spec/12). -/
def MB.CFG.XUS (c : Nat) : Fld := Fld.mk (mbBase c + 0x081C) (16) 10 .ro (100) true
/-- MB.BUSYCNT.CNT (R367, spec/12). -/
def MB.BUSYCNT.CNT (c : Nat) : Fld := Fld.mk (mbBase c + 0x0820) (0) 16 .rc (0) false
/-- MB.SECLOG.OFFS (R367, spec/12). -/
def MB.SECLOG.OFFS (c : Nat) : Fld := Fld.mk (mbBase c + 0x0840) (0) 16 .ro (0) false
/-- MB.SECLOG.WE (R367, spec/12). -/
def MB.SECLOG.WE (c : Nat) : Fld := Fld.mk (mbBase c + 0x0840) (16) 1 .ro (0) false
/-- MB.SECCNT.CNT (R367, spec/12). -/
def MB.SECCNT.CNT (c : Nat) : Fld := Fld.mk (mbBase c + 0x0844) (0) 32 .rc (0) false
/-- CRY.CTRL.GO (R386, spec/13). -/
def CRY.CTRL.GO : Fld := Fld.mk (mgtBase + 0xB400) (0) 1 .wo (0) false
/-- CRY.CTRL.ABORT (R386, spec/13). -/
def CRY.CTRL.ABORT : Fld := Fld.mk (mgtBase + 0xB400) (1) 1 .wo (0) false
/-- CRY.CTRL.OP (R386, spec/13). -/
def CRY.CTRL.OP : Fld := Fld.mk (mgtBase + 0xB400) (2) 3 .rw (0) false
/-- CRY.CTRL.KEYSEL (R386, spec/13). -/
def CRY.CTRL.KEYSEL : Fld := Fld.mk (mgtBase + 0xB400) (8) 2 .rw (0) false
/-- CRY.CTRL.NOTE (R386, spec/13). -/
def CRY.CTRL.NOTE : Fld := Fld.mk (mgtBase + 0xB400) (12) 2 .rw (0) false
/-- CRY.CTRL.NBIT (R386, spec/13). -/
def CRY.CTRL.NBIT : Fld := Fld.mk (mgtBase + 0xB400) (16) 5 .rw (0) false
/-- CRY.CTRL.NENG (R386, spec/13). -/
def CRY.CTRL.NENG : Fld := Fld.mk (mgtBase + 0xB400) (24) 4 .rw (0) false
/-- CRY.STAT.BUSY (R386, spec/13). -/
def CRY.STAT.BUSY : Fld := Fld.mk (mgtBase + 0xB404) (0) 1 .ro (0) false
/-- CRY.STAT.DONE (R386, spec/13). -/
def CRY.STAT.DONE : Fld := Fld.mk (mgtBase + 0xB404) (1) 1 .w1c (0) false
/-- CRY.STAT.RESULT (R386, spec/13). -/
def CRY.STAT.RESULT : Fld := Fld.mk (mgtBase + 0xB404) (4) 3 .ro (0) false
/-- CRY.STAT.PERMIT (R386, spec/13). -/
def CRY.STAT.PERMIT : Fld := Fld.mk (mgtBase + 0xB404) (8) 1 .ro (0) false
/-- CRY.SRC_L.ADDR (R386, spec/13). -/
def CRY.SRC_L.ADDR : Fld := Fld.mk (mgtBase + 0xB408) (0) 32 .rw (0) false
/-- CRY.SRC_H.ADDR (R386, spec/13). -/
def CRY.SRC_H.ADDR : Fld := Fld.mk (mgtBase + 0xB40C) (0) 8 .rw (0) false
/-- CRY.DST_L.ADDR (R386, spec/13). -/
def CRY.DST_L.ADDR : Fld := Fld.mk (mgtBase + 0xB410) (0) 32 .rw (0) false
/-- CRY.DST_H.ADDR (R386, spec/13). -/
def CRY.DST_H.ADDR : Fld := Fld.mk (mgtBase + 0xB414) (0) 8 .rw (0) false
/-- CRY.LEN.LEN (R386, spec/13). -/
def CRY.LEN.LEN : Fld := Fld.mk (mgtBase + 0xB418) (0) 32 .rw (0) false
/-- CRY.AAD_L.ADDR (R386, spec/13). -/
def CRY.AAD_L.ADDR : Fld := Fld.mk (mgtBase + 0xB41C) (0) 32 .rw (0) false
/-- CRY.AAD_H.ADDR (R386, spec/13). -/
def CRY.AAD_H.ADDR : Fld := Fld.mk (mgtBase + 0xB420) (0) 8 .rw (0) false
/-- CRY.ALEN.LEN (R386, spec/13). -/
def CRY.ALEN.LEN : Fld := Fld.mk (mgtBase + 0xB424) (0) 32 .rw (0) false
/-- CRY.IV.IV (R386, spec/13). -/
def CRY.IV.IV (w : Nat) : Fld := Fld.mk (mgtBase + 0xB428 + 4 * w) (0) 32 .rw (0) false
/-- CRY.OUT.OUT (R386, spec/13). -/
def CRY.OUT.OUT (w : Nat) : Fld := Fld.mk (mgtBase + 0xB440 + 4 * w) (0) 32 .ro (0) false
/-- CRY.TAG.TAG (R386, spec/13). -/
def CRY.TAG.TAG (w : Nat) : Fld := Fld.mk (mgtBase + 0xB460 + 4 * w) (0) 32 .rw (0) false
/-- CRY.KEYCFG.VALID (R386, spec/13). -/
def CRY.KEYCFG.VALID (s : Nat) : Fld := Fld.mk (mgtBase + 0xB470 + 4 * s) (0) 1 .rw (0) false
/-- CRY.KEYCFG.AES256 (R386, spec/13). -/
def CRY.KEYCFG.AES256 (s : Nat) : Fld := Fld.mk (mgtBase + 0xB470 + 4 * s) (1) 1 .rw (0) false
/-- CRY.KEY.KEY (R386, spec/13). -/
def CRY.KEY.KEY (s : Nat) (w : Nat) : Fld := Fld.mk (mgtBase + 0xB480 + 0x20 * s + 4 * w) (0) 32 .wo (0) false
/-- GLB.BOOT.STAT.STAGE (R387, spec/13). -/
def GLB.BOOT.STAT.STAGE : Fld := Fld.mk (glbBase + 0x0100) (0) 4 .ro (0) false
/-- GLB.BOOT.STAT.SRC (R387, spec/13). -/
def GLB.BOOT.STAT.SRC : Fld := Fld.mk (glbBase + 0x0100) (4) 1 .ro (0) false
/-- GLB.BOOT.STAT.SLOT (R387, spec/13). -/
def GLB.BOOT.STAT.SLOT : Fld := Fld.mk (glbBase + 0x0100) (5) 1 .ro (0) false
/-- GLB.BOOT.STAT.RESULT (R387, spec/13). -/
def GLB.BOOT.STAT.RESULT : Fld := Fld.mk (glbBase + 0x0100) (8) 4 .ro (0) false
/-- GLB.BOOT.STAT.FAILA (R387, spec/13). -/
def GLB.BOOT.STAT.FAILA : Fld := Fld.mk (glbBase + 0x0100) (12) 1 .ro (0) false
/-- GLB.BOOT.STAT.FAILB (R387, spec/13). -/
def GLB.BOOT.STAT.FAILB : Fld := Fld.mk (glbBase + 0x0100) (13) 1 .ro (0) false
/-- GLB.BOOT.STAT.NOSFDP (R387, spec/13). -/
def GLB.BOOT.STAT.NOSFDP : Fld := Fld.mk (glbBase + 0x0100) (14) 1 .ro (0) false
/-- GLB.BOOT.CTRL.GO (R387, spec/13). -/
def GLB.BOOT.CTRL.GO : Fld := Fld.mk (glbBase + 0x0104) (0) 1 .wo (0) false
/-- GLB.BOOT.CTRL.PREF (R387, spec/13). -/
def GLB.BOOT.CTRL.PREF : Fld := Fld.mk (glbBase + 0x0104) (1) 1 .rw (0) false
/-- GLB.BOOT.CTRL.CLRFAIL (R387, spec/13). -/
def GLB.BOOT.CTRL.CLRFAIL : Fld := Fld.mk (glbBase + 0x0104) (2) 1 .wo (0) false
/-- GLB.BOOT.HADDR_L.ADDR (R387, spec/13). -/
def GLB.BOOT.HADDR_L.ADDR : Fld := Fld.mk (glbBase + 0x0108) (0) 32 .rw (0) false
/-- GLB.BOOT.HADDR_H.ADDR (R387, spec/13). -/
def GLB.BOOT.HADDR_H.ADDR : Fld := Fld.mk (glbBase + 0x010C) (0) 8 .rw (0) false
/-- GLB.BOOT.IMGVER.VER (R387, spec/13). -/
def GLB.BOOT.IMGVER.VER : Fld := Fld.mk (glbBase + 0x0110) (0) 32 .ro (0) false
/-- GLB.BOOT.ROLLBK.VAL (R387, spec/13). -/
def GLB.BOOT.ROLLBK.VAL : Fld := Fld.mk (glbBase + 0x0114) (0) 32 .ro (0) false
/-- GLB.BOOT.TIME.US (R387, spec/13). -/
def GLB.BOOT.TIME.US : Fld := Fld.mk (glbBase + 0x0118) (0) 32 .ro (0) false
/-- GLB.RST.CAUSE.POR (R406, spec/14). -/
def GLB.RST.CAUSE.POR : Fld := Fld.mk (glbBase + 0x0200) (0) 1 .w1c (0) false
/-- GLB.RST.CAUSE.PIN (R406, spec/14). -/
def GLB.RST.CAUSE.PIN : Fld := Fld.mk (glbBase + 0x0200) (1) 1 .w1c (0) false
/-- GLB.RST.CAUSE.SOFT (R406, spec/14). -/
def GLB.RST.CAUSE.SOFT : Fld := Fld.mk (glbBase + 0x0200) (2) 1 .w1c (0) false
/-- GLB.RST.CAUSE.BWDOG (R406, spec/14). -/
def GLB.RST.CAUSE.BWDOG : Fld := Fld.mk (glbBase + 0x0200) (3) 1 .w1c (0) false
/-- GLB.RST.CAUSE.WAKE (R406, spec/14). -/
def GLB.RST.CAUSE.WAKE : Fld := Fld.mk (glbBase + 0x0200) (4) 1 .w1c (0) false
/-- GLB.WDOG.PER.MS (R406, spec/14). -/
def GLB.WDOG.PER.MS : Fld := Fld.mk (glbBase + 0x0204) (0) 16 .rw (0) true
/-- GLB.WDOG.KICK.KICK (R406, spec/14). -/
def GLB.WDOG.KICK.KICK : Fld := Fld.mk (glbBase + 0x0208) (0) 1 .wo (0) false
/-- GLB.WDOG.CNT.MS (R406, spec/14). -/
def GLB.WDOG.CNT.MS : Fld := Fld.mk (glbBase + 0x020C) (0) 16 .ro (0) false
/-- PWR.REQ.DOM (R406, spec/14). -/
def PWR.REQ.DOM : Fld := Fld.mk (glbBase + 0x0240) (0) 3 .rw (0) false
/-- PWR.REQ.MODE (R406, spec/14). -/
def PWR.REQ.MODE : Fld := Fld.mk (glbBase + 0x0240) (4) 3 .rw (0) false
/-- PWR.REQ.GO (R406, spec/14). -/
def PWR.REQ.GO : Fld := Fld.mk (glbBase + 0x0240) (31) 1 .wo (0) false
/-- PWR.STAT.MGMT (R406, spec/14). -/
def PWR.STAT.MGMT : Fld := Fld.mk (glbBase + 0x0244) (0) 3 .ro (0) false
/-- PWR.STAT.CL0 (R406, spec/14). -/
def PWR.STAT.CL0 : Fld := Fld.mk (glbBase + 0x0244) (4) 3 .ro (0) false
/-- PWR.STAT.CL1 (R406, spec/14). -/
def PWR.STAT.CL1 : Fld := Fld.mk (glbBase + 0x0244) (8) 3 .ro (0) false
/-- PWR.STAT.CL2 (R406, spec/14). -/
def PWR.STAT.CL2 : Fld := Fld.mk (glbBase + 0x0244) (12) 3 .ro (0) false
/-- PWR.STAT.CL3 (R406, spec/14). -/
def PWR.STAT.CL3 : Fld := Fld.mk (glbBase + 0x0244) (16) 3 .ro (0) false
/-- PWR.STAT.BUSY (R406, spec/14). -/
def PWR.STAT.BUSY : Fld := Fld.mk (glbBase + 0x0244) (24) 1 .ro (0) false
/-- PWR.EIDLE.ENG (R406, spec/14). -/
def PWR.EIDLE.ENG : Fld := Fld.mk (glbBase + 0x0248) (0) 14 .w1s (0) false
/-- PWR.WAKE.TICKS (R406, spec/14). -/
def PWR.WAKE.TICKS : Fld := Fld.mk (glbBase + 0x024C) (0) 32 .rw (0) false
/-- PWR.EVT.DONE (R406, spec/14). -/
def PWR.EVT.DONE : Fld := Fld.mk (glbBase + 0x0250) (0) 1 .w1c (0) false
/-- PWR.EVT.REFUSED (R406, spec/14). -/
def PWR.EVT.REFUSED : Fld := Fld.mk (glbBase + 0x0250) (1) 1 .w1c (0) false
/-- PWR.EVT.PCTO (R406, spec/14). -/
def PWR.EVT.PCTO : Fld := Fld.mk (glbBase + 0x0250) (2) 1 .w1c (0) false
/-- PWR.EVT.STUCK (R406, spec/14). -/
def PWR.EVT.STUCK : Fld := Fld.mk (glbBase + 0x0250) (3) 1 .w1c (0) false
/-- PWR.EVT.WAKE (R406, spec/14). -/
def PWR.EVT.WAKE : Fld := Fld.mk (glbBase + 0x0250) (4) 1 .w1c (0) false
/-- PWR.IEN.IEN (R406, spec/14). -/
def PWR.IEN.IEN : Fld := Fld.mk (glbBase + 0x0254) (0) 5 .rw (0) false
/-- PWR.CAP.RED (R406, spec/14). -/
def PWR.CAP.RED : Fld := Fld.mk (glbBase + 0x0258) (0) 16 .rw (0) true
/-- PWR.WAKESET.DOM (R406, spec/14). -/
def PWR.WAKESET.DOM : Fld := Fld.mk (glbBase + 0x025C) (0) 5 .rw (31) false
/-- PERMIT.BUDGET.MW (R407, spec/14). -/
def PERMIT.BUDGET.MW : Fld := Fld.mk (glbBase + 0x0300) (0) 16 .ro (82) false
/-- PERMIT.GRANTED.MW (R407, spec/14). -/
def PERMIT.GRANTED.MW : Fld := Fld.mk (glbBase + 0x0304) (0) 16 .ro (0) false
/-- PERMIT.HOLD.REQ (R407, spec/14). -/
def PERMIT.HOLD.REQ : Fld := Fld.mk (glbBase + 0x0308) (0) 13 .ro (0) false
/-- PERMIT.QUEUE.DEPTH (R407, spec/14). -/
def PERMIT.QUEUE.DEPTH : Fld := Fld.mk (glbBase + 0x030C) (0) 5 .ro (0) false
/-- PERMIT.QUEUE.HEAD (R407, spec/14). -/
def PERMIT.QUEUE.HEAD : Fld := Fld.mk (glbBase + 0x030C) (8) 5 .ro (0) false
/-- PERMIT.ASIDE.REQ (R407, spec/14). -/
def PERMIT.ASIDE.REQ : Fld := Fld.mk (glbBase + 0x0310) (0) 13 .ro (0) false
/-- GRIST.PREC.PREC (R407, spec/14). -/
def GRIST.PREC.PREC : Fld := Fld.mk (glbBase + 0x0400) (0) 14 .rw (0) true
/-- BL.CTRL.EN (R428, spec/15). -/
def BL.CTRL.EN (k : Nat) : Fld := Fld.mk (blBase k + 0x00) (0) 1 .rw (0) true
/-- BL.CTRL.MODE (R428, spec/15). -/
def BL.CTRL.MODE (k : Nat) : Fld := Fld.mk (blBase k + 0x00) (1) 2 .rw (0) true
/-- BL.CTRL.ECHO (R428, spec/15). -/
def BL.CTRL.ECHO (k : Nat) : Fld := Fld.mk (blBase k + 0x00) (3) 1 .rw (0) false
/-- BL.CTRL.RXSTUFF (R428, spec/15). -/
def BL.CTRL.RXSTUFF (k : Nat) : Fld := Fld.mk (blBase k + 0x00) (4) 1 .rw (0) false
/-- BL.RATE.DIV (R428, spec/15). -/
def BL.RATE.DIV (k : Nat) : Fld := Fld.mk (blBase k + 0x04) (0) 16 .rw (0) true
/-- BL.RATE.DDIV (R428, spec/15). -/
def BL.RATE.DDIV (k : Nat) : Fld := Fld.mk (blBase k + 0x04) (16) 16 .rw (0) true
/-- BL.FMT.BITS (R428, spec/15). -/
def BL.FMT.BITS (k : Nat) : Fld := Fld.mk (blBase k + 0x08) (0) 4 .rw (0) true
/-- BL.FMT.PAR (R428, spec/15). -/
def BL.FMT.PAR (k : Nat) : Fld := Fld.mk (blBase k + 0x08) (4) 2 .rw (0) true
/-- BL.FMT.STOP2 (R428, spec/15). -/
def BL.FMT.STOP2 (k : Nat) : Fld := Fld.mk (blBase k + 0x08) (6) 1 .rw (0) true
/-- BL.FMT.SP (R428, spec/15). -/
def BL.FMT.SP (k : Nat) : Fld := Fld.mk (blBase k + 0x08) (8) 8 .rw (0) true
/-- BL.FMT.DSP (R428, spec/15). -/
def BL.FMT.DSP (k : Nat) : Fld := Fld.mk (blBase k + 0x08) (16) 8 .rw (0) true
/-- BL.FMT.SJW (R428, spec/15). -/
def BL.FMT.SJW (k : Nat) : Fld := Fld.mk (blBase k + 0x08) (24) 4 .rw (0) true
/-- BL.DE.LEAD (R428, spec/15). -/
def BL.DE.LEAD (k : Nat) : Fld := Fld.mk (blBase k + 0x0C) (0) 8 .rw (0) true
/-- BL.DE.LAG (R428, spec/15). -/
def BL.DE.LAG (k : Nat) : Fld := Fld.mk (blBase k + 0x0C) (8) 8 .rw (0) true
/-- BL.TXD.BITS (R428, spec/15). -/
def BL.TXD.BITS (k : Nat) : Fld := Fld.mk (blBase k + 0x10) (0) 16 .wo (0) false
/-- BL.TXD.COUNT (R428, spec/15). -/
def BL.TXD.COUNT (k : Nat) : Fld := Fld.mk (blBase k + 0x10) (16) 4 .wo (0) false
/-- BL.TXD.STUFF (R428, spec/15). -/
def BL.TXD.STUFF (k : Nat) : Fld := Fld.mk (blBase k + 0x10) (24) 1 .wo (0) false
/-- BL.TXD.FAST (R428, spec/15). -/
def BL.TXD.FAST (k : Nat) : Fld := Fld.mk (blBase k + 0x10) (25) 1 .wo (0) false
/-- BL.TXD.ARB (R428, spec/15). -/
def BL.TXD.ARB (k : Nat) : Fld := Fld.mk (blBase k + 0x10) (26) 1 .wo (0) false
/-- BL.RXD.DATA (R428, spec/15). -/
def BL.RXD.DATA (k : Nat) : Fld := Fld.mk (blBase k + 0x14) (0) 16 .rc (0) false
/-- BL.RXD.VALID (R428, spec/15). -/
def BL.RXD.VALID (k : Nat) : Fld := Fld.mk (blBase k + 0x14) (16) 1 .rc (0) false
/-- BL.RXD.ERR (R428, spec/15). -/
def BL.RXD.ERR (k : Nat) : Fld := Fld.mk (blBase k + 0x14) (17) 1 .rc (0) false
/-- BL.STAT.TXCNT (R428, spec/15). -/
def BL.STAT.TXCNT (k : Nat) : Fld := Fld.mk (blBase k + 0x18) (0) 7 .ro (0) false
/-- BL.STAT.RXCNT (R428, spec/15). -/
def BL.STAT.RXCNT (k : Nat) : Fld := Fld.mk (blBase k + 0x18) (8) 7 .ro (0) false
/-- BL.STAT.TXBUSY (R428, spec/15). -/
def BL.STAT.TXBUSY (k : Nat) : Fld := Fld.mk (blBase k + 0x18) (16) 1 .ro (0) false
/-- BL.STAT.ARMED (R428, spec/15). -/
def BL.STAT.ARMED (k : Nat) : Fld := Fld.mk (blBase k + 0x18) (17) 1 .ro (0) false
/-- BL.STAT.LATE (R428, spec/15). -/
def BL.STAT.LATE (k : Nat) : Fld := Fld.mk (blBase k + 0x18) (18) 1 .w1c (0) false
/-- BL.STAT.LOST (R428, spec/15). -/
def BL.STAT.LOST (k : Nat) : Fld := Fld.mk (blBase k + 0x18) (19) 1 .w1c (0) false
/-- BL.STAT.STUFFERR (R428, spec/15). -/
def BL.STAT.STUFFERR (k : Nat) : Fld := Fld.mk (blBase k + 0x18) (20) 1 .w1c (0) false
/-- BL.STAT.TXOVF (R428, spec/15). -/
def BL.STAT.TXOVF (k : Nat) : Fld := Fld.mk (blBase k + 0x18) (21) 1 .w1c (0) false
/-- BL.STAT.RXOVF (R428, spec/15). -/
def BL.STAT.RXOVF (k : Nat) : Fld := Fld.mk (blBase k + 0x18) (22) 1 .w1c (0) false
/-- BL.TSTART_L.T (R428, spec/15). -/
def BL.TSTART_L.T (k : Nat) : Fld := Fld.mk (blBase k + 0x1C) (0) 32 .rw (0) false
/-- BL.TSTART_H.T (R428, spec/15). -/
def BL.TSTART_H.T (k : Nat) : Fld := Fld.mk (blBase k + 0x20) (0) 16 .rw (0) false
/-- BL.DISARM.DISARM (R428, spec/15). -/
def BL.DISARM.DISARM (k : Nat) : Fld := Fld.mk (blBase k + 0x24) (0) 1 .wo (0) false
/-- GLB.MI.REFSEL.REF (R443, spec/15). -/
def GLB.MI.REFSEL.REF (n : Nat) : Fld := Fld.mk (glbBase + 0x0500) (2 * n) 2 .rw (0) true
/-- GLB.MI.SLIP.CNT (R443, spec/15). -/
def GLB.MI.SLIP.CNT : Fld := Fld.mk (glbBase + 0x0504) (0) 32 .rc (0) false
/-- GLB.MI.SLIPPORT.PORT (R443, spec/15). -/
def GLB.MI.SLIPPORT.PORT : Fld := Fld.mk (glbBase + 0x0508) (0) 8 .w1c (0) false
/-- GLB.MI.LINK.LINK (R443, spec/15). -/
def GLB.MI.LINK.LINK : Fld := Fld.mk (glbBase + 0x050C) (0) 9 .ro (0) false
/-- GLB.SYS.CRDERR.SLAVE (R443, spec/15). -/
def GLB.SYS.CRDERR.SLAVE : Fld := Fld.mk (glbBase + 0x0510) (0) 16 .rc (0) false
/-- GLB.SYS.CRDERR.MASTER (R443, spec/15). -/
def GLB.SYS.CRDERR.MASTER : Fld := Fld.mk (glbBase + 0x0510) (16) 16 .rc (0) false
/-- DBG.LOCK.OPEN (R464, spec/16). -/
def DBG.LOCK.OPEN : Fld := Fld.mk (dbgBase + 0x0000) (0) 1 .ro (0) false
/-- DBG.LOCK.ERASING (R464, spec/16). -/
def DBG.LOCK.ERASING : Fld := Fld.mk (dbgBase + 0x0000) (1) 1 .ro (0) false
/-- DBG.LOCK.BADKEY (R464, spec/16). -/
def DBG.LOCK.BADKEY : Fld := Fld.mk (dbgBase + 0x0000) (8) 8 .rc (0) false
/-- DBG.UNLOCK.KEY (R464, spec/16). -/
def DBG.UNLOCK.KEY : Fld := Fld.mk (dbgBase + 0x0004) (0) 32 .wo (0) false
/-- DBG.WDHOLD.HOLD (R464, spec/16). -/
def DBG.WDHOLD.HOLD : Fld := Fld.mk (dbgBase + 0x0008) (0) 1 .rw (0) false
/-- DBG.HALTREQ.ENG (R464, spec/16). -/
def DBG.HALTREQ.ENG : Fld := Fld.mk (dbgBase + 0x0010) (0) 14 .wo (0) false
/-- DBG.RESUME.ENG (R464, spec/16). -/
def DBG.RESUME.ENG : Fld := Fld.mk (dbgBase + 0x0014) (0) 14 .wo (0) false
/-- DBG.STEP.ENG (R464, spec/16). -/
def DBG.STEP.ENG : Fld := Fld.mk (dbgBase + 0x0018) (0) 14 .wo (0) false
/-- DBG.HALTED.ENG (R464, spec/16). -/
def DBG.HALTED.ENG : Fld := Fld.mk (dbgBase + 0x001C) (0) 14 .ro (0) false
/-- HG.CTRL.EN (R464, spec/16). -/
def HG.CTRL.EN (g : Nat) : Fld := Fld.mk (dbgBase + 0x0040 + 0x10 * g) (0) 1 .rw (0) false
/-- HG.CTRL.GO (R464, spec/16). -/
def HG.CTRL.GO (g : Nat) : Fld := Fld.mk (dbgBase + 0x0040 + 0x10 * g) (1) 1 .wo (0) false
/-- HG.CTRL.RESUME (R464, spec/16). -/
def HG.CTRL.RESUME (g : Nat) : Fld := Fld.mk (dbgBase + 0x0040 + 0x10 * g) (2) 1 .wo (0) false
/-- HG.CTRL.ACTED (R464, spec/16). -/
def HG.CTRL.ACTED (g : Nat) : Fld := Fld.mk (dbgBase + 0x0040 + 0x10 * g) (3) 1 .w1c (0) false
/-- HG.START.ENG (R464, spec/16). -/
def HG.START.ENG (g : Nat) : Fld := Fld.mk (dbgBase + 0x0040 + 0x10 * g + 0x4) (0) 14 .rw (0) false
/-- HG.STOP.ENG (R464, spec/16). -/
def HG.STOP.ENG (g : Nat) : Fld := Fld.mk (dbgBase + 0x0040 + 0x10 * g + 0x8) (0) 14 .rw (0) false
/-- HG.NOTIFY.ENG (R464, spec/16). -/
def HG.NOTIFY.ENG (g : Nat) : Fld := Fld.mk (dbgBase + 0x0040 + 0x10 * g + 0xC) (0) 14 .rw (0) false
/-- DBG.E.CTRL.EVHALT (R465, spec/16). -/
def DBG.E.CTRL.EVHALT (i : Nat) : Fld := Fld.mk (dbgEBase i + 0x000) (0) 1 .rw (0) false
/-- DBG.E.CTRL.EVPATCH (R465, spec/16). -/
def DBG.E.CTRL.EVPATCH (i : Nat) : Fld := Fld.mk (dbgEBase i + 0x000) (1) 1 .rw (0) false
/-- DBG.E.CTRL.EVWATCH (R465, spec/16). -/
def DBG.E.CTRL.EVWATCH (i : Nat) : Fld := Fld.mk (dbgEBase i + 0x000) (2) 1 .rw (0) false
/-- DBG.E.STAT.HALTED (R465, spec/16). -/
def DBG.E.STAT.HALTED (i : Nat) : Fld := Fld.mk (dbgEBase i + 0x004) (0) 1 .ro (0) false
/-- DBG.E.STAT.CAUSE (R465, spec/16). -/
def DBG.E.STAT.CAUSE (i : Nat) : Fld := Fld.mk (dbgEBase i + 0x004) (1) 3 .ro (0) false
/-- DBG.E.STAT.TOUCHED (R465, spec/16). -/
def DBG.E.STAT.TOUCHED (i : Nat) : Fld := Fld.mk (dbgEBase i + 0x004) (4) 1 .w1c (0) false
/-- DBG.E.STAT.DS (R465, spec/16). -/
def DBG.E.STAT.DS (i : Nat) : Fld := Fld.mk (dbgEBase i + 0x004) (5) 1 .ro (0) false
/-- DBG.E.STAT.PERR (R465, spec/16). -/
def DBG.E.STAT.PERR (i : Nat) : Fld := Fld.mk (dbgEBase i + 0x004) (6) 1 .w1c (0) false
/-- DBG.E.STAT.UNIT (R465, spec/16). -/
def DBG.E.STAT.UNIT (i : Nat) : Fld := Fld.mk (dbgEBase i + 0x004) (8) 5 .ro (0) false
/-- DBG.E.PC_L.PC (R465, spec/16). -/
def DBG.E.PC_L.PC (i : Nat) : Fld := Fld.mk (dbgEBase i + 0x008) (0) 32 .rw (0) false
/-- DBG.E.PC_H.PC (R465, spec/16). -/
def DBG.E.PC_H.PC (i : Nat) : Fld := Fld.mk (dbgEBase i + 0x00C) (0) 16 .rw (0) false
/-- DBG.E.NPC_L.NPC (R465, spec/16). -/
def DBG.E.NPC_L.NPC (i : Nat) : Fld := Fld.mk (dbgEBase i + 0x010) (0) 32 .ro (0) false
/-- DBG.E.NPC_H.NPC (R465, spec/16). -/
def DBG.E.NPC_H.NPC (i : Nat) : Fld := Fld.mk (dbgEBase i + 0x014) (0) 16 .ro (0) false
/-- DBG.E.PSEL.PORT (R465, spec/16). -/
def DBG.E.PSEL.PORT (i : Nat) : Fld := Fld.mk (dbgEBase i + 0x018) (0) 9 .rw (0) false
/-- DBG.E.PSEL.ACTIVE (R465, spec/16). -/
def DBG.E.PSEL.ACTIVE (i : Nat) : Fld := Fld.mk (dbgEBase i + 0x018) (16) 1 .rw (0) false
/-- DBG.E.PDATA_L.DATA (R465, spec/16). -/
def DBG.E.PDATA_L.DATA (i : Nat) : Fld := Fld.mk (dbgEBase i + 0x01C) (0) 32 .rw (0) false
/-- DBG.E.PDATA_H.DATA (R465, spec/16). -/
def DBG.E.PDATA_H.DATA (i : Nat) : Fld := Fld.mk (dbgEBase i + 0x020) (0) 16 .rw (0) false
/-- DBG.E.EVT.HG (R465, spec/16). -/
def DBG.E.EVT.HG (i : Nat) : Fld := Fld.mk (dbgEBase i + 0x024) (0) 4 .w1c (0) false
/-- DBG.E.IEN.HG (R465, spec/16). -/
def DBG.E.IEN.HG (i : Nat) : Fld := Fld.mk (dbgEBase i + 0x028) (0) 4 .rw (0) false
/-- PATCH.ADDR_L.ADDR (R465, spec/16). -/
def PATCH.ADDR_L.ADDR (i : Nat) (u : Nat) : Fld := Fld.mk (dbgEBase i + 0x040 + 8 * u) (0) 32 .rw (0) false
/-- PATCH.CTRL.ADDR (R465, spec/16). -/
def PATCH.CTRL.ADDR (i : Nat) (u : Nat) : Fld := Fld.mk (dbgEBase i + 0x044 + 8 * u) (0) 16 .rw (0) false
/-- PATCH.CTRL.EN (R465, spec/16). -/
def PATCH.CTRL.EN (i : Nat) (u : Nat) : Fld := Fld.mk (dbgEBase i + 0x044 + 8 * u) (16) 1 .rw (0) false
/-- PATCH.CTRL.ACTION (R465, spec/16). -/
def PATCH.CTRL.ACTION (i : Nat) (u : Nat) : Fld := Fld.mk (dbgEBase i + 0x044 + 8 * u) (17) 2 .rw (0) false
/-- PATCH.CTRL.IDX (R465, spec/16). -/
def PATCH.CTRL.IDX (i : Nat) (u : Nat) : Fld := Fld.mk (dbgEBase i + 0x044 + 8 * u) (20) 4 .rw (0) false
/-- PRAM_L.BUNDLE (R465, spec/16). -/
def PRAM_L.BUNDLE (i : Nat) (e : Nat) : Fld := Fld.mk (dbgEBase i + 0x0C0 + 8 * e) (0) 32 .rw (0) false
/-- PRAM_H.BUNDLE (R465, spec/16). -/
def PRAM_H.BUNDLE (i : Nat) (e : Nat) : Fld := Fld.mk (dbgEBase i + 0x0C4 + 8 * e) (0) 16 .rw (0) false
/-- WCH.ADDR_L.ADDR (R465, spec/16). -/
def WCH.ADDR_L.ADDR (i : Nat) (w : Nat) : Fld := Fld.mk (dbgEBase i + 0x140 + 0x20 * w) (0) 32 .rw (0) false
/-- WCH.ADDR_H.ADDR (R465, spec/16). -/
def WCH.ADDR_H.ADDR (i : Nat) (w : Nat) : Fld := Fld.mk (dbgEBase i + 0x144 + 0x20 * w) (0) 16 .rw (0) false
/-- WCH.CTRL.EN (R465, spec/16). -/
def WCH.CTRL.EN (i : Nat) (w : Nat) : Fld := Fld.mk (dbgEBase i + 0x148 + 0x20 * w) (0) 1 .rw (0) false
/-- WCH.CTRL.R (R465, spec/16). -/
def WCH.CTRL.R (i : Nat) (w : Nat) : Fld := Fld.mk (dbgEBase i + 0x148 + 0x20 * w) (1) 1 .rw (0) false
/-- WCH.CTRL.W (R465, spec/16). -/
def WCH.CTRL.W (i : Nat) (w : Nat) : Fld := Fld.mk (dbgEBase i + 0x148 + 0x20 * w) (2) 1 .rw (0) false
/-- WCH.CTRL.ACTION (R465, spec/16). -/
def WCH.CTRL.ACTION (i : Nat) (w : Nat) : Fld := Fld.mk (dbgEBase i + 0x148 + 0x20 * w) (3) 2 .rw (0) false
/-- WCH.CTRL.DMATCH (R465, spec/16). -/
def WCH.CTRL.DMATCH (i : Nat) (w : Nat) : Fld := Fld.mk (dbgEBase i + 0x148 + 0x20 * w) (5) 1 .rw (0) false
/-- WCH.CTRL.SIZE (R465, spec/16). -/
def WCH.CTRL.SIZE (i : Nat) (w : Nat) : Fld := Fld.mk (dbgEBase i + 0x148 + 0x20 * w) (8) 5 .rw (0) false
/-- WCH.DATA_L.DATA (R465, spec/16). -/
def WCH.DATA_L.DATA (i : Nat) (w : Nat) : Fld := Fld.mk (dbgEBase i + 0x14C + 0x20 * w) (0) 32 .rw (0) false
/-- WCH.DATA_H.DATA (R465, spec/16). -/
def WCH.DATA_H.DATA (i : Nat) (w : Nat) : Fld := Fld.mk (dbgEBase i + 0x150 + 0x20 * w) (0) 16 .rw (0) false
/-- TRC.CTRL.EN (R466, spec/16). -/
def TRC.CTRL.EN : Fld := Fld.mk (dbgBase + 0x3000) (0) 1 .rw (0) false
/-- TRC.CTRL.SYNCPER (R466, spec/16). -/
def TRC.CTRL.SYNCPER : Fld := Fld.mk (dbgBase + 0x3000) (8) 4 .rw (4) false
/-- TRC.STAT.FILL (R466, spec/16). -/
def TRC.STAT.FILL : Fld := Fld.mk (dbgBase + 0x3004) (0) 11 .ro (0) false
/-- TRC.STAT.LOST (R466, spec/16). -/
def TRC.STAT.LOST : Fld := Fld.mk (dbgBase + 0x3004) (16) 16 .rc (0) false
/-- TRC.E.NOTEEN.NOTE (R466, spec/16). -/
def TRC.E.NOTEEN.NOTE (i : Nat) : Fld := Fld.mk (dbgBase + 0x3100 + 8 * i) (0) 32 .rw (0) false
/-- TRC.E.CFG.FLOW (R466, spec/16). -/
def TRC.E.CFG.FLOW (i : Nat) : Fld := Fld.mk (dbgBase + 0x3104 + 8 * i) (0) 1 .rw (0) false
/-- GLB.ID.PART (R469, spec/17). -/
def GLB.ID.PART : Fld := Fld.mk (glbBase + 0x0000) (0) 16 .ro (18582) false
/-- GLB.ID.REL (R469, spec/17). -/
def GLB.ID.REL : Fld := Fld.mk (glbBase + 0x0000) (16) 8 .ro (3) false
/-- WSQ.IRQEN.UNDEF (R58, spec/02). -/
def WSQ.IRQEN.UNDEF (p : Nat) : Fld := Fld.mk (wsqBase p + 0xC) (0) 1 .rw (1) false
/-- WSQ.IRQEN.ILLUW (R58, spec/02). -/
def WSQ.IRQEN.ILLUW (p : Nat) : Fld := Fld.mk (wsqBase p + 0xC) (1) 1 .rw (1) false
/-- WSQ.IRQEN.OVR (R58, spec/02). -/
def WSQ.IRQEN.OVR (p : Nat) : Fld := Fld.mk (wsqBase p + 0xC) (2) 1 .rw (1) false
/-- WSQ.IRQEN.WIN (R58, spec/02). -/
def WSQ.IRQEN.WIN (p : Nat) : Fld := Fld.mk (wsqBase p + 0xC) (3) 1 .rw (1) false
/-- WSQ.IRQEN.STK (R58, spec/02). -/
def WSQ.IRQEN.STK (p : Nat) : Fld := Fld.mk (wsqBase p + 0xC) (4) 1 .rw (1) false
/-- WSQ.IRQEN.CSUE (R58, spec/02). -/
def WSQ.IRQEN.CSUE (p : Nat) : Fld := Fld.mk (wsqBase p + 0xC) (5) 1 .rw (1) false
/-- WSQ.IRQEN.RATE (R58, spec/02). -/
def WSQ.IRQEN.RATE (p : Nat) : Fld := Fld.mk (wsqBase p + 0xC) (6) 1 .rw (1) false
/-- WSQ.IRQEN.EGRCOL (R58, spec/02). -/
def WSQ.IRQEN.EGRCOL (p : Nat) : Fld := Fld.mk (wsqBase p + 0xC) (7) 1 .rw (1) false
/-- WSQ.IRQEN.LOADFAIL (R58, spec/02). -/
def WSQ.IRQEN.LOADFAIL (p : Nat) : Fld := Fld.mk (wsqBase p + 0xC) (8) 1 .rw (1) false
/-- MEMT.MAP.PB (R315, spec/10). -/
def MEMT.MAP.PB (l : Nat) : Fld := Fld.mk (mgtBase + 0xC110 + 4 * (l / 4)) (8 * (l % 4)) 5 .ro (l) false

/-- The register fields at offset `off` of the wsq group. -/
def fields_wsq (p : Nat) (off : Nat) : List Fld :=
  match off with
  | 0x0 => [WSQ.CTRL.RUN p, WSQ.CTRL.SAF p, WSQ.CTRL.EGR p, WSQ.CTRL.WPBANK p, WSQ.CTRL.SLACKMIN p, WSQ.CTRL.TSEL0 p, WSQ.CTRL.TSEL1 p, WSQ.CTRL.GCLS p]
  | 0x4 => [WSQ.STAT.RUNACT p, WSQ.STAT.INFRAME p, WSQ.STAT.LOADING p, WSQ.STAT.WPBANKACT p, WSQ.STAT.STKDEPTH p, WSQ.STAT.UPC p]
  | 0x8 => [WSQ.ERR.UNDEF p, WSQ.ERR.ILLUW p, WSQ.ERR.OVR p, WSQ.ERR.WIN p, WSQ.ERR.STK p, WSQ.ERR.CSUE p, WSQ.ERR.RATE p, WSQ.ERR.EGRCOL p, WSQ.ERR.LOADFAIL p]
  | 0xC => [WSQ.IRQEN.UNDEF p, WSQ.IRQEN.ILLUW p, WSQ.IRQEN.OVR p, WSQ.IRQEN.WIN p, WSQ.IRQEN.STK p, WSQ.IRQEN.CSUE p, WSQ.IRQEN.RATE p, WSQ.IRQEN.EGRCOL p, WSQ.IRQEN.LOADFAIL p]
  | 0x10 => [WSQ.CHAFF.CNT p]
  | 0x14 => [WSQ.RXBAD.CNT p]
  | 0x18 => [WSQ.SAFDROP.CNT p]
  | 0x1C => [WSQ.CSCE.CNT p, WSQ.CSCE.ADDR p, WSQ.CSCE.DISP p]
  | 0x20 => [LP.CFG.DEPTH p]
  | 0x24 => [LP.STAT.DEPTHACT p, LP.STAT.RATE p, LP.STAT.CFGERR p]
  | 0x28 => [LP.DELAY.PS p]
  | 0x2C => [WSQ.OVR.UADDR p, WSQ.OVR.GRAIN p]
  | 0x30 => [WSQ.UNDEF.UADDR p, WSQ.UNDEF.WIDX p, WSQ.UNDEF.OPC p]
  | 0x34 => [WSQ.WPM.IDX.IDX p, WSQ.WPM.IDX.BANK p]
  | 0x38 => [WSQ.WPM.DATA.OP p]
  | 0x40 => [WSQ.CSLD.ADDR_LO.ADDR p]
  | 0x44 => [WSQ.CSLD.ADDR_HI.ADDR p]
  | 0x48 => [WSQ.CSLD.CTRL.GO p, WSQ.CSLD.CTRL.ABORT p]
  | 0x4C => [WSQ.CSLD.STAT.BUSY p, WSQ.CSLD.STAT.DONE p, WSQ.CSLD.STAT.RESULT p]
  | _ =>
    if 0x400 ≤ off ∧ (off - 0x400) % 0x4 = 0 ∧ (off - 0x400) / 0x4 < 256 then [WSQ.DISP.UADDR p ((off - 0x400) / 0x4)]
    else []

/-- The register fields at offset `off` of the px group. -/
def fields_px (p : Nat) (off : Nat) : List Fld :=
  match off with
  | 0x0 => [PX.CTRL.EN p, PX.CTRL.OWNER p, PX.CTRL.TDOM p, PX.CTRL.KEEPBAD p]
  | 0x4 => [PX.STAT.ENACT p, PX.STAT.DRAIN p]
  | 0x8 => [PX.PRIVBASE.BASE p]
  | 0xC => [PX.PRIVSIZE.SIZE p]
  | 0x10 => [PI.INBASE.BASE p]
  | 0x14 => [PI.INSIZE.SIZE p]
  | 0x18 => [PI.OUTBASE.BASE p]
  | 0x1C => [PI.OUTSIZE.SIZE p]
  | 0x20 => [PI.CFG.ITICK p, PI.CFG.OTICK p]
  | 0x24 => [PI.INROLE.FILL p, PI.INROLE.READY p, PI.INROLE.HELD p, PI.INROLE.NEW p, PI.INROLE.HVALID p, PI.INROLE.POISON p]
  | 0x28 => [PI.TAKE.TAKE p]
  | 0x2C => [PI.OUTROLE.FILL p, PI.OUTROLE.READY p, PI.OUTROLE.CUR p, PI.OUTROLE.NEW p, PI.OUTROLE.CVALID p]
  | 0x30 => [PI.PUB.PUB p]
  | 0x34 => [PI.ERR.BOUND p, PI.ERR.MISS p, PI.ERR.REPEAT p, PI.ERR.POISON p, PI.ERR.EVOVF p, PI.ERR.RXQDROP p]
  | 0x38 => [PI.IRQEN.EN p]
  | 0x3C => [PI.MISSCNT.CNT p]
  | 0x40 => [PI.REPCNT.CNT p]
  | 0x44 => [PQ.DROPCNT.CNT p]
  | 0x300 => [GCL.CTRL.CHANGE p, GCL.CTRL.PREEN p, GCL.CTRL.VERIFY p, GCL.CTRL.FRAG p, GCL.CTRL.TDOM p, GCL.CTRL.GATEEN p]
  | 0x304 => [GCL.STAT.OPERBANK p, GCL.STAT.PENDING p, GCL.STAT.CFGERR p, GCL.STAT.VERIFIED p]
  | 0x308 => [GCL.IDX.ENTRY p, GCL.IDX.WORD p, GCL.IDX.BANK p]
  | 0x30C => [GCL.DATA.DATA p]
  | 0x310 => [GCL.CYCLE.NS p]
  | 0x314 => [GCL.EXT.NS p]
  | 0x318 => [GCL.BTNS.NS p]
  | 0x31C => [GCL.BTS_LO.S p]
  | 0x320 => [GCL.BTS_HI.S p]
  | 0x324 => [GCL.LEN.LEN p]
  | 0x328 => [GCL.PRE.PRE p]
  | _ =>
    if 0x100 ≤ off ∧ (off - 0x100) % 0x10 = 0 ∧ (off - 0x100) / 0x10 < 4 then [PQ.RX.BASE.BASE p ((off - 0x100) / 0x10)]
    else if 0x104 ≤ off ∧ (off - 0x104) % 0x10 = 0 ∧ (off - 0x104) / 0x10 < 4 then [PQ.RX.CFG.SLOTS p ((off - 0x104) / 0x10), PQ.RX.CFG.SLOTSZ p ((off - 0x104) / 0x10)]
    else if 0x108 ≤ off ∧ (off - 0x108) % 0x10 = 0 ∧ (off - 0x108) / 0x10 < 4 then [PQ.RX.WR.WR p ((off - 0x108) / 0x10)]
    else if 0x10C ≤ off ∧ (off - 0x10C) % 0x10 = 0 ∧ (off - 0x10C) / 0x10 < 4 then [PQ.RX.RD.RD p ((off - 0x10C) / 0x10)]
    else if 0x200 ≤ off ∧ (off - 0x200) % 0x10 = 0 ∧ (off - 0x200) / 0x10 < 8 then [PQ.TX.BASE.BASE p ((off - 0x200) / 0x10)]
    else if 0x204 ≤ off ∧ (off - 0x204) % 0x10 = 0 ∧ (off - 0x204) / 0x10 < 8 then [PQ.TX.CFG.COUNT p ((off - 0x204) / 0x10)]
    else if 0x208 ≤ off ∧ (off - 0x208) % 0x10 = 0 ∧ (off - 0x208) / 0x10 < 8 then [PQ.TX.HEAD.HEAD p ((off - 0x208) / 0x10)]
    else if 0x20C ≤ off ∧ (off - 0x20C) % 0x10 = 0 ∧ (off - 0x20C) / 0x10 < 8 then [PQ.TX.TAIL.TAIL p ((off - 0x20C) / 0x10)]
    else []

/-- The register fields at offset `off` of the clu group. -/
def fields_clu (n : Nat) (off : Nat) : List Fld :=
  match off with
  | 0x6000 => [FRER.CFG.RESETMS n]
  | 0x6004 => [FRER.IDX.STREAM n, FRER.IDX.WORD n]
  | 0x6008 => [FRER.DATA.DATA n]
  | 0x600C => [DUP.CFG.FORGET n]
  | 0x6010 => [DUP.STAT.DUPS n, DUP.STAT.EVICT n]
  | 0x7000 => [TMR.CNT_L.CNT n]
  | 0x7004 => [TMR.CNT_H.CNT n]
  | 0x7008 => [TMR.STAT.OVF n, TMR.STAT.MAKEUP n]
  | 0x700C => [TMR.SLEEP.TICKS n]
  | 0x7010 => [TMR.OVFACT.ACT n, TMR.OVFACT.PIN n]
  | 0x7014 => [TMR.CSTAT.MATCH n, TMR.CSTAT.LAG n, TMR.CSTAT.CAPOVR n]
  | _ =>
    if 0x7018 ≤ off ∧ (off - 0x7018) % 0x4 = 0 ∧ (off - 0x7018) / 0x4 < 3 then [TMR.IEN.MATCH n ((off - 0x7018) / 0x4), TMR.IEN.CAP n ((off - 0x7018) / 0x4), TMR.IEN.CAPOVR n ((off - 0x7018) / 0x4), TMR.IEN.OVF n ((off - 0x7018) / 0x4), TMR.IEN.MAKEUP n ((off - 0x7018) / 0x4)]
    else if 0x7040 ≤ off ∧ (off - 0x7040) % 0x10 = 0 ∧ (off - 0x7040) / 0x10 < 8 then [TMR.CH.CMP_L.CMP n ((off - 0x7040) / 0x10)]
    else if 0x7044 ≤ off ∧ (off - 0x7044) % 0x10 = 0 ∧ (off - 0x7044) / 0x10 < 8 then [TMR.CH.CMP_H.CMP n ((off - 0x7044) / 0x10)]
    else if 0x7048 ≤ off ∧ (off - 0x7048) % 0x10 = 0 ∧ (off - 0x7048) / 0x10 < 8 then [TMR.CH.PER.PER n ((off - 0x7048) / 0x10)]
    else if 0x704C ≤ off ∧ (off - 0x704C) % 0x10 = 0 ∧ (off - 0x704C) / 0x10 < 8 then [TMR.CH.CTRL.ARMED n ((off - 0x704C) / 0x10), TMR.CH.CTRL.ACT n ((off - 0x704C) / 0x10), TMR.CH.CTRL.PIN n ((off - 0x704C) / 0x10), TMR.CH.CTRL.DISARM n ((off - 0x704C) / 0x10)]
    else if 0x70C0 ≤ off ∧ (off - 0x70C0) % 0x10 = 0 ∧ (off - 0x70C0) / 0x10 < 4 then [TMR.CAP.CTRL.EDGE n ((off - 0x70C0) / 0x10), TMR.CAP.CTRL.SRC n ((off - 0x70C0) / 0x10)]
    else if 0x70C4 ≤ off ∧ (off - 0x70C4) % 0x10 = 0 ∧ (off - 0x70C4) / 0x10 < 4 then [TMR.CAP.CAP_L.VAL n ((off - 0x70C4) / 0x10)]
    else if 0x70C8 ≤ off ∧ (off - 0x70C8) % 0x10 = 0 ∧ (off - 0x70C8) / 0x10 < 4 then [TMR.CAP.CAP_H.VAL n ((off - 0x70C8) / 0x10), TMR.CAP.CAP_H.SEQ n ((off - 0x70C8) / 0x10), TMR.CAP.CAP_H.FULL n ((off - 0x70C8) / 0x10)]
    else []

/-- The register fields at offset `off` of the tu group. -/
def fields_tu (off : Nat) : List Fld :=
  match off with
  | 0x200 => [TU.CTRL.FINE, TU.CTRL.CALEN, TU.CTRL.CALPER]
  | 0x204 => [TU.STAT.CALOK, TU.STAT.CALSTALE]
  | 0x208 => [TU.IEN.UNSYNC, TU.IEN.STEPPED, TU.IEN.RATECLAMP, TU.IEN.SETERR, TU.IEN.CALSTALE]
  | 0x20C => [TU.SLEEP.TICKS]
  | 0x300 => [TU.TMO.SET.LVL]
  | 0x304 => [TU.TMO.CLR.LVL]
  | 0x308 => [TU.TMO.TGL.TGL]
  | _ =>
    if 0x0 ≤ off ∧ (off - 0x0) % 0x40 = 0 ∧ (off - 0x0) / 0x40 < 4 then [TU.D.HI_L.SEC ((off - 0x0) / 0x40)]
    else if 0x4 ≤ off ∧ (off - 0x4) % 0x40 = 0 ∧ (off - 0x4) / 0x40 < 4 then [TU.D.HI_H.SEC ((off - 0x4) / 0x40)]
    else if 0x8 ≤ off ∧ (off - 0x8) % 0x40 = 0 ∧ (off - 0x8) / 0x40 < 4 then [TU.D.LO_L.LO ((off - 0x8) / 0x40)]
    else if 0xC ≤ off ∧ (off - 0xC) % 0x40 = 0 ∧ (off - 0xC) / 0x40 < 4 then [TU.D.LO_H.LO ((off - 0xC) / 0x40)]
    else if 0x10 ≤ off ∧ (off - 0x10) % 0x40 = 0 ∧ (off - 0x10) / 0x40 < 4 then [TU.D.ADJ_L.ADJ ((off - 0x10) / 0x40)]
    else if 0x14 ≤ off ∧ (off - 0x14) % 0x40 = 0 ∧ (off - 0x14) / 0x40 < 4 then [TU.D.ADJ_H.ADJ ((off - 0x14) / 0x40)]
    else if 0x18 ≤ off ∧ (off - 0x18) % 0x40 = 0 ∧ (off - 0x18) / 0x40 < 4 then [TU.D.SETS_L.SEC ((off - 0x18) / 0x40)]
    else if 0x1C ≤ off ∧ (off - 0x1C) % 0x40 = 0 ∧ (off - 0x1C) / 0x40 < 4 then [TU.D.SETS_H.SEC ((off - 0x1C) / 0x40)]
    else if 0x20 ≤ off ∧ (off - 0x20) % 0x40 = 0 ∧ (off - 0x20) / 0x40 < 4 then [TU.D.SETL_L.LO ((off - 0x20) / 0x40)]
    else if 0x24 ≤ off ∧ (off - 0x24) % 0x40 = 0 ∧ (off - 0x24) / 0x40 < 4 then [TU.D.SETL_H.LO ((off - 0x24) / 0x40)]
    else if 0x28 ≤ off ∧ (off - 0x28) % 0x40 = 0 ∧ (off - 0x28) / 0x40 < 4 then [TU.D.STEP_L.STEP ((off - 0x28) / 0x40)]
    else if 0x2C ≤ off ∧ (off - 0x2C) % 0x40 = 0 ∧ (off - 0x2C) / 0x40 < 4 then [TU.D.STEP_H.STEP ((off - 0x2C) / 0x40)]
    else if 0x30 ≤ off ∧ (off - 0x30) % 0x40 = 0 ∧ (off - 0x30) / 0x40 < 4 then [TU.D.CMD.SET ((off - 0x30) / 0x40), TU.D.CMD.STEP ((off - 0x30) / 0x40)]
    else if 0x34 ≤ off ∧ (off - 0x34) % 0x40 = 0 ∧ (off - 0x34) / 0x40 < 4 then [TU.D.STAT.UNSYNC ((off - 0x34) / 0x40), TU.D.STAT.STEPPED ((off - 0x34) / 0x40), TU.D.STAT.RATECLAMP ((off - 0x34) / 0x40), TU.D.STAT.SETERR ((off - 0x34) / 0x40)]
    else if 0x100 ≤ off ∧ (off - 0x100) % 0x10 = 0 ∧ (off - 0x100) / 0x10 < 9 then [TU.P.RXLAT.PS ((off - 0x100) / 0x10)]
    else if 0x104 ≤ off ∧ (off - 0x104) % 0x10 = 0 ∧ (off - 0x104) / 0x10 < 9 then [TU.P.TXLAT.PS ((off - 0x104) / 0x10)]
    else if 0x280 ≤ off ∧ (off - 0x280) % 0x10 = 0 ∧ (off - 0x280) / 0x10 < 4 then [TU.PPS.CTRL.EN ((off - 0x280) / 0x10), TU.PPS.CTRL.DOM ((off - 0x280) / 0x10), TU.PPS.CTRL.GATEU ((off - 0x280) / 0x10), TU.PPS.CTRL.POL ((off - 0x280) / 0x10)]
    else if 0x284 ≤ off ∧ (off - 0x284) % 0x10 = 0 ∧ (off - 0x284) / 0x10 < 4 then [TU.PPS.OFFS.NS ((off - 0x284) / 0x10)]
    else if 0x288 ≤ off ∧ (off - 0x288) % 0x10 = 0 ∧ (off - 0x288) / 0x10 < 4 then [TU.PPS.WIDTH.NS ((off - 0x288) / 0x10)]
    else []

/-- The register fields at offset `off` of the ttw group. -/
def fields_ttw (n : Nat) (l : Nat) (off : Nat) : List Fld :=
  match off with
  | 0x0 => [TTW.CTRL.EN n l, TTW.CTRL.DOM n l]
  | 0x4 => [TTW.PERIOD.NS n l]
  | 0x8 => [TTW.PHASE.NS n l]
  | 0xC => [TTW.GUARD.NS n l]
  | 0x10 => [TTW.STAT.CFGERR n l, TTW.STAT.OPEN n l]
  | 0x14 => [TTW.LATE.CNT n l]
  | _ =>
    if 0x20 ≤ off ∧ (off - 0x20) % 0x8 = 0 ∧ (off - 0x20) / 0x8 < 8 then [TTW.W.OPEN.NS n l ((off - 0x20) / 0x8)]
    else if 0x24 ≤ off ∧ (off - 0x24) % 0x8 = 0 ∧ (off - 0x24) / 0x8 < 8 then [TTW.W.LEN.NS n l ((off - 0x24) / 0x8)]
    else []

/-- The register fields at offset `off` of the til group. -/
def fields_til (off : Nat) : List Fld :=
  match off with
  | 0x0 => [TIL.FID_L.FID]
  | 0x4 => [TIL.FID_H.FID]
  | 0x8 => [TIL.ETYPE.TYPE]
  | 0xC => [TIL.TSRC.RING, TIL.TSRC.EN, TIL.TSRC.ROOT]
  | 0x8000 => [TWN.CTRL.LEVEL, TWN.CTRL.RINGS, TWN.CTRL.SOLOOK, TWN.CTRL.HANDOVER, TWN.CTRL.RESYNC, TWN.CTRL.HOLDTAKE, TWN.CTRL.SEEKMS]
  | 0x8004 => [TWN.STAT.STATE, TWN.STAT.LINK, TWN.STAT.HOLD, TWN.STAT.DBGOPEN]
  | 0x8008 => [TWN.EPOCH.EPOCH]
  | 0x800C => [TWN.PAIRID.ID]
  | 0x8010 => [TWN.PEERFID_L.FID]
  | 0x8014 => [TWN.PEERFID_H.FID]
  | 0x8018 => [TWN.ALIVE.KICK]
  | 0x801C => [TWN.ALIVEUS.US]
  | 0x8020 => [TWN.CUTNS.NS]
  | 0x8024 => [TWN.QHOLD.CLS]
  | 0x8028 => [TWN.EVT.PAIRED, TWN.EVT.TAKEOVER, TWN.EVT.SBYLOST, TWN.EVT.FENCED, TWN.EVT.HANDOVER, TWN.EVT.HOFAIL, TWN.EVT.RESYNCFAIL, TWN.EVT.DELTAOVF, TWN.EVT.SEEKTO, TWN.EVT.PAIRREF, TWN.EVT.PEERHOLD, TWN.EVT.PUBIGN]
  | 0x802C => [TWN.IEN.IEN]
  | 0x8030 => [TWN.CUTCNT.CNT]
  | 0x8034 => [TWN.HBMISS.CNT]
  | 0x8038 => [TWN.RSYNCUS.US]
  | _ =>
    if 0x100 ≤ off ∧ (off - 0x100) % 0x100 = 0 ∧ (off - 0x100) / 0x100 < 4 then [TIL.RING.CTRL.EN ((off - 0x100) / 0x100), TIL.RING.CTRL.MCAP ((off - 0x100) / 0x100), TIL.RING.CTRL.RENUM ((off - 0x100) / 0x100), TIL.RING.CTRL.CHECK ((off - 0x100) / 0x100), TIL.RING.CTRL.RELISTEN ((off - 0x100) / 0x100)]
    else if 0x104 ≤ off ∧ (off - 0x104) % 0x100 = 0 ∧ (off - 0x104) / 0x100 < 4 then [TIL.RING.CFG.SEG ((off - 0x104) / 0x100), TIL.RING.CFG.LOSS ((off - 0x104) / 0x100)]
    else if 0x108 ≤ off ∧ (off - 0x108) % 0x100 = 0 ∧ (off - 0x108) / 0x100 < 4 then [TIL.RING.PERIOD.NS ((off - 0x108) / 0x100)]
    else if 0x10C ≤ off ∧ (off - 0x10C) % 0x100 = 0 ∧ (off - 0x10C) / 0x100 < 4 then [TIL.RING.LISTEN.US ((off - 0x10C) / 0x100)]
    else if 0x110 ≤ off ∧ (off - 0x110) % 0x100 = 0 ∧ (off - 0x110) / 0x100 < 4 then [TIL.RING.STAT.STATE ((off - 0x110) / 0x100), TIL.RING.STAT.NODE ((off - 0x110) / 0x100), TIL.RING.STAT.TIMEVALID ((off - 0x110) / 0x100)]
    else if 0x114 ≤ off ∧ (off - 0x114) % 0x100 = 0 ∧ (off - 0x114) / 0x100 < 4 then [TIL.RING.EPOCH.EPOCH ((off - 0x114) / 0x100)]
    else if 0x118 ≤ off ∧ (off - 0x118) % 0x100 = 0 ∧ (off - 0x118) / 0x100 < 4 then [TIL.RING.NODES.N ((off - 0x118) / 0x100)]
    else if 0x11C ≤ off ∧ (off - 0x11C) % 0x100 = 0 ∧ (off - 0x11C) / 0x100 < 4 then [TIL.RING.EVT.EVT ((off - 0x11C) / 0x100)]
    else if 0x120 ≤ off ∧ (off - 0x120) % 0x100 = 0 ∧ (off - 0x120) / 0x100 < 4 then [TIL.RING.IEN.IEN ((off - 0x120) / 0x100)]
    else if 0x124 ≤ off ∧ (off - 0x124) % 0x100 = 0 ∧ (off - 0x124) / 0x100 < 4 then [TIL.RING.LINK.PS ((off - 0x124) / 0x100)]
    else if 0x128 ≤ off ∧ (off - 0x128) % 0x100 = 0 ∧ (off - 0x128) / 0x100 < 4 then [TIL.RING.ASYM.PS ((off - 0x128) / 0x100)]
    else if 0x12C ≤ off ∧ (off - 0x12C) % 0x100 = 0 ∧ (off - 0x12C) / 0x100 < 4 then [TIL.RING.OFFSET.PS ((off - 0x12C) / 0x100)]
    else if 0x130 ≤ off ∧ (off - 0x130) % 0x100 = 0 ∧ (off - 0x130) / 0x100 < 4 then [TIL.RING.STALECNT.CNT ((off - 0x130) / 0x100)]
    else if 0x134 ≤ off ∧ (off - 0x134) % 0x100 = 0 ∧ (off - 0x134) / 0x100 < 4 then [TIL.RING.LOOPNS.NS ((off - 0x134) / 0x100)]
    else if 0x138 ≤ off ∧ (off - 0x138) % 0x100 = 0 ∧ (off - 0x138) / 0x100 < 4 then [TIL.RING.ECHOPER.US ((off - 0x138) / 0x100)]
    else if 0x4000 ≤ off ∧ (off - 0x4000) % 0x4 = 0 ∧ (off - 0x4000) / 0x4 < 512 then [TIL.RT.VALID ((off - 0x4000) / 0x4), TIL.RT.LOCAL ((off - 0x4000) / 0x4), TIL.RT.RING ((off - 0x4000) / 0x4), TIL.RT.NEXT ((off - 0x4000) / 0x4), TIL.RT.METRIC ((off - 0x4000) / 0x4)]
    else if 0x8100 ≤ off ∧ (off - 0x8100) % 0x8 = 0 ∧ (off - 0x8100) / 0x8 < 8 then [TWN.MIR.BASE.BASE ((off - 0x8100) / 0x8)]
    else if 0x8104 ≤ off ∧ (off - 0x8104) % 0x8 = 0 ∧ (off - 0x8104) / 0x8 < 8 then [TWN.MIR.SIZE.SIZE ((off - 0x8104) / 0x8)]
    else []

/-- The register fields at offset `off` of the mgt group. -/
def fields_mgt (off : Nat) : List Fld :=
  match off with
  | 0xA180 => [RAM.DEFAULT.DEV]
  | 0xA200 => [SD.VA_L.VA]
  | 0xA204 => [SD.VA_H.VA]
  | 0xA208 => [SD.CTRL.ENG, SD.CTRL.L2, SD.CTRL.ALL, SD.CTRL.IC, SD.CTRL.GO]
  | 0xA20C => [SD.STAT.BUSY, SD.STAT.REFUSED, SD.STAT.COUNT]
  | 0xB400 => [CRY.CTRL.GO, CRY.CTRL.ABORT, CRY.CTRL.OP, CRY.CTRL.KEYSEL, CRY.CTRL.NOTE, CRY.CTRL.NBIT, CRY.CTRL.NENG]
  | 0xB404 => [CRY.STAT.BUSY, CRY.STAT.DONE, CRY.STAT.RESULT, CRY.STAT.PERMIT]
  | 0xB408 => [CRY.SRC_L.ADDR]
  | 0xB40C => [CRY.SRC_H.ADDR]
  | 0xB410 => [CRY.DST_L.ADDR]
  | 0xB414 => [CRY.DST_H.ADDR]
  | 0xB418 => [CRY.LEN.LEN]
  | 0xB41C => [CRY.AAD_L.ADDR]
  | 0xB420 => [CRY.AAD_H.ADDR]
  | 0xB424 => [CRY.ALEN.LEN]
  | 0xC040 => [MEM.EVT.UE, MEM.EVT.OWNERR, MEM.EVT.OWNBUSY]
  | 0xC044 => [MEM.IEN.IEN]
  | 0xC048 => [MEM.CEADDR.ROW]
  | 0xC04C => [MEM.UEADDR.ROW]
  | 0xC050 => [MEM.OWNERR.SP, MEM.OWNERR.REQ]
  | 0xC054 => [MEM.PARCNT.CNT]
  | 0xC058 => [MEM.RSTAT.RFAIL, MEM.RSTAT.USED]
  | 0xC100 => [MEMT.CTRL.POLICY, MEMT.CTRL.GAPMS]
  | 0xC104 => [MEMT.CMD.GRAN, MEMT.CMD.SP, MEMT.CMD.ENG]
  | 0xC108 => [MEMT.STAT.PHASE, MEMT.STAT.LBANK, MEMT.STAT.NEXT, MEMT.STAT.LOAN, MEMT.STAT.LENG, MEMT.STAT.UNMAPPED]
  | 0xC10C => [MEMT.SPARE.PBANK, MEMT.SPARE.UNTESTED]
  | 0xC120 => [MEMT.BAD.BAD]
  | 0xC124 => [MEMT.FAILROW.ROW, MEMT.FAILROW.PBANK]
  | 0xC128 => [MEMT.PASS.CNT]
  | 0xC12C => [MEMT.SPRES.ENG, MEMT.SPRES.ABORT]
  | 0xC130 => [MEMT.EVT.DONE, MEMT.EVT.BANKFAIL, MEMT.EVT.SPFAIL, MEMT.EVT.CMDIGN]
  | 0xC134 => [MEMT.IEN.IEN]
  | 0xD100 => [SEM.GIVE.IDX]
  | 0xD104 => [SEM.STAT_L.HELD]
  | 0xD108 => [SEM.STAT_H.HELD]
  | 0xD10C => [SEM.FORCE_L.FREE]
  | 0xD110 => [SEM.FORCE_H.FREE]
  | 0xE000 => [FLT.STAT.ENG]
  | 0xE004 => [FLT.LAST.ENG, FLT.LAST.WDOG, FLT.LAST.VEC]
  | 0xE008 => [FLT.EPC_L.ADDR]
  | 0xE00C => [FLT.EPC_H.ADDR]
  | 0xE010 => [FLT.RUN.ENG]
  | 0xF000 => [HSK.PRES_L.PRES]
  | 0xF004 => [HSK.PRES_H.PRES]
  | 0xF008 => [HSK.STAT.TOCNT, HSK.STAT.STRAY]
  | 0xF00C => [HSK.LAST.PORT, HSK.LAST.WE, HSK.LAST.ENG]
  | _ =>
    if 0xC000 ≤ off ∧ (off - 0xC000) % 0x4 = 0 ∧ (off - 0xC000) / 0x4 < 14 then [SP.OWNER.OWNER ((off - 0xC000) / 0x4), SP.OWNER.PEND ((off - 0xC000) / 0x4)]
    else if 0xC080 ≤ off ∧ (off - 0xC080) % 0x4 = 0 ∧ (off - 0xC080) / 0x4 < 19 then [MEM.CE.CNT ((off - 0xC080) / 0x4)]
    else if 0xD000 ≤ off ∧ (off - 0xD000) % 0x4 = 0 ∧ (off - 0xD000) / 0x4 < 64 then [SEM.TAKE.GOT ((off - 0xD000) / 0x4)]
    else if 0xD200 ≤ off ∧ (off - 0xD200) % 0x4 = 0 ∧ (off - 0xD200) / 0x4 < 64 then [SEM.HOLD.REQ ((off - 0xD200) / 0x4), SEM.HOLD.HELD ((off - 0xD200) / 0x4), SEM.HOLD.FORCED ((off - 0xD200) / 0x4), SEM.HOLD.BADGIVE ((off - 0xD200) / 0x4)]
    else if 0xA100 ≤ off ∧ (off - 0xA100) % 0x10 = 0 ∧ (off - 0xA100) / 0x10 < 8 then [RAM.BASE_L.EN ((off - 0xA100) / 0x10), RAM.BASE_L.DEV ((off - 0xA100) / 0x10), RAM.BASE_L.PA ((off - 0xA100) / 0x10)]
    else if 0xA104 ≤ off ∧ (off - 0xA104) % 0x10 = 0 ∧ (off - 0xA104) / 0x10 < 8 then [RAM.BASE_H.PA ((off - 0xA104) / 0x10)]
    else if 0xA108 ≤ off ∧ (off - 0xA108) % 0x10 = 0 ∧ (off - 0xA108) / 0x10 < 8 then [RAM.LIM_L.PA ((off - 0xA108) / 0x10)]
    else if 0xA10C ≤ off ∧ (off - 0xA10C) % 0x10 = 0 ∧ (off - 0xA10C) / 0x10 < 8 then [RAM.LIM_H.PA ((off - 0xA10C) / 0x10)]
    else if 0xB428 ≤ off ∧ (off - 0xB428) % 0x4 = 0 ∧ (off - 0xB428) / 0x4 < 3 then [CRY.IV.IV ((off - 0xB428) / 0x4)]
    else if 0xB440 ≤ off ∧ (off - 0xB440) % 0x4 = 0 ∧ (off - 0xB440) / 0x4 < 8 then [CRY.OUT.OUT ((off - 0xB440) / 0x4)]
    else if 0xB460 ≤ off ∧ (off - 0xB460) % 0x4 = 0 ∧ (off - 0xB460) / 0x4 < 4 then [CRY.TAG.TAG ((off - 0xB460) / 0x4)]
    else if 0xB470 ≤ off ∧ (off - 0xB470) % 0x4 = 0 ∧ (off - 0xB470) / 0x4 < 4 then [CRY.KEYCFG.VALID ((off - 0xB470) / 0x4), CRY.KEYCFG.AES256 ((off - 0xB470) / 0x4)]
    else if 0xB480 ≤ off ∧ off < 0xB500 then [CRY.KEY.KEY ((off - 0xB480) / 0x20) ((off - 0xB480) % 0x20 / 4)]
    else if 0xC110 ≤ off ∧ off < 0xC120 then (List.range 4).map (fun j => MEMT.MAP.PB (off - 0xC110 + j))
    else []

/-- The register fields at offset `off` of the xl group. -/
def fields_xl (e : Nat) (off : Nat) : List Fld :=
  match off with
  | 0x0 => [XL.E.CTRL.WALK e, XL.E.CTRL.WBASE e]
  | 0x4 => [XL.E.ROOT_L.PA e]
  | 0x8 => [XL.E.ROOT_H.PA e]
  | 0xC => [XL.E.STAT.SDSEEN e, XL.E.STAT.WALKING e]
  | 0x10 => [XL.E.WALKS.CNT e]
  | 0x14 => [XL.E.WFLT.CNT e]
  | _ =>
    []

/-- The register fields at offset `off` of the dma group. -/
def fields_dma (c : Nat) (off : Nat) : List Fld :=
  match off with
  | 0x0 => [DMA.CH.SRC_L.ADDR c]
  | 0x4 => [DMA.CH.SRC_H.ADDR c]
  | 0x8 => [DMA.CH.DST_L.ADDR c]
  | 0xC => [DMA.CH.DST_H.ADDR c]
  | 0x10 => [DMA.CH.LEN.LEN c]
  | 0x14 => [DMA.CH.DESC_L.ADDR c]
  | 0x18 => [DMA.CH.DESC_H.ADDR c]
  | 0x1C => [DMA.CH.CTRL.GO c, DMA.CH.CTRL.ABORT c, DMA.CH.CTRL.CHAIN c, DMA.CH.CTRL.NOTE c, DMA.CH.CTRL.DBBIT c, DMA.CH.CTRL.DBCH c, DMA.CH.CTRL.DBENG c]
  | 0x20 => [DMA.CH.STAT.BUSY c, DMA.CH.STAT.DONE c, DMA.CH.STAT.ERR c, DMA.CH.STAT.ERRCODE c, DMA.CH.STAT.SEC c, DMA.CH.STAT.PERMIT c]
  | 0x24 => [DMA.CH.REMAIN.LEN c]
  | 0x28 => [DMA.CH.CUR_L.ADDR c]
  | 0x2C => [DMA.CH.CUR_H.ADDR c]
  | _ =>
    []

/-- The register fields at offset `off` of the mb group. -/
def fields_mb (c : Nat) (off : Nat) : List Fld :=
  match off with
  | 0x800 => [DB.HB.BITS c]
  | 0x804 => [DB.HMASK.MASK c]
  | 0x808 => [DB.HLINE.LINE c]
  | 0x80C => [DB.HPEND.PEND c]
  | 0x810 => [DB.BB.BITS c]
  | 0x814 => [DB.BMASK.MASK c]
  | 0x818 => [MB.STAT.HFULL c, MB.STAT.BFULL c, MB.STAT.CROSS c, MB.STAT.SECURE c, MB.STAT.READY c]
  | 0x81C => [MB.CFG.ENG c, MB.CFG.XUS c]
  | 0x820 => [MB.BUSYCNT.CNT c]
  | 0x840 => if c = 0 then [MB.SECLOG.OFFS c, MB.SECLOG.WE c] else []
  | 0x844 => if c = 0 then [MB.SECCNT.CNT c] else []
  | _ =>
    if 0x0 ≤ off ∧ (off - 0x0) % 0x4 = 0 ∧ (off - 0x0) / 0x4 < 256 then [MB.H2B.DATA c ((off - 0x0) / 0x4)]
    else if 0x400 ≤ off ∧ (off - 0x400) % 0x4 = 0 ∧ (off - 0x400) / 0x4 < 256 then [MB.B2H.DATA c ((off - 0x400) / 0x4)]
    else []

/-- The register fields at offset `off` of the glb group. -/
def fields_glb (off : Nat) : List Fld :=
  match off with
  | 0x0 => [GLB.ID.PART, GLB.ID.REL]
  | 0x100 => [GLB.BOOT.STAT.STAGE, GLB.BOOT.STAT.SRC, GLB.BOOT.STAT.SLOT, GLB.BOOT.STAT.RESULT, GLB.BOOT.STAT.FAILA, GLB.BOOT.STAT.FAILB, GLB.BOOT.STAT.NOSFDP]
  | 0x104 => [GLB.BOOT.CTRL.GO, GLB.BOOT.CTRL.PREF, GLB.BOOT.CTRL.CLRFAIL]
  | 0x108 => [GLB.BOOT.HADDR_L.ADDR]
  | 0x10C => [GLB.BOOT.HADDR_H.ADDR]
  | 0x110 => [GLB.BOOT.IMGVER.VER]
  | 0x114 => [GLB.BOOT.ROLLBK.VAL]
  | 0x118 => [GLB.BOOT.TIME.US]
  | 0x200 => [GLB.RST.CAUSE.POR, GLB.RST.CAUSE.PIN, GLB.RST.CAUSE.SOFT, GLB.RST.CAUSE.BWDOG, GLB.RST.CAUSE.WAKE]
  | 0x204 => [GLB.WDOG.PER.MS]
  | 0x208 => [GLB.WDOG.KICK.KICK]
  | 0x20C => [GLB.WDOG.CNT.MS]
  | 0x240 => [PWR.REQ.DOM, PWR.REQ.MODE, PWR.REQ.GO]
  | 0x244 => [PWR.STAT.MGMT, PWR.STAT.CL0, PWR.STAT.CL1, PWR.STAT.CL2, PWR.STAT.CL3, PWR.STAT.BUSY]
  | 0x248 => [PWR.EIDLE.ENG]
  | 0x24C => [PWR.WAKE.TICKS]
  | 0x250 => [PWR.EVT.DONE, PWR.EVT.REFUSED, PWR.EVT.PCTO, PWR.EVT.STUCK, PWR.EVT.WAKE]
  | 0x254 => [PWR.IEN.IEN]
  | 0x258 => [PWR.CAP.RED]
  | 0x25C => [PWR.WAKESET.DOM]
  | 0x300 => [PERMIT.BUDGET.MW]
  | 0x304 => [PERMIT.GRANTED.MW]
  | 0x308 => [PERMIT.HOLD.REQ]
  | 0x30C => [PERMIT.QUEUE.DEPTH, PERMIT.QUEUE.HEAD]
  | 0x310 => [PERMIT.ASIDE.REQ]
  | 0x400 => [GRIST.PREC.PREC]
  | 0x504 => [GLB.MI.SLIP.CNT]
  | 0x508 => [GLB.MI.SLIPPORT.PORT]
  | 0x50C => [GLB.MI.LINK.LINK]
  | 0x510 => [GLB.SYS.CRDERR.SLAVE, GLB.SYS.CRDERR.MASTER]
  | _ =>
    if off = 0x500 then (List.range 4).map (fun n => GLB.MI.REFSEL.REF n)
    else []

/-- The register fields at offset `off` of the bl group. -/
def fields_bl (k : Nat) (off : Nat) : List Fld :=
  match off with
  | 0x0 => [BL.CTRL.EN k, BL.CTRL.MODE k, BL.CTRL.ECHO k, BL.CTRL.RXSTUFF k]
  | 0x4 => [BL.RATE.DIV k, BL.RATE.DDIV k]
  | 0x8 => [BL.FMT.BITS k, BL.FMT.PAR k, BL.FMT.STOP2 k, BL.FMT.SP k, BL.FMT.DSP k, BL.FMT.SJW k]
  | 0xC => [BL.DE.LEAD k, BL.DE.LAG k]
  | 0x10 => [BL.TXD.BITS k, BL.TXD.COUNT k, BL.TXD.STUFF k, BL.TXD.FAST k, BL.TXD.ARB k]
  | 0x14 => [BL.RXD.DATA k, BL.RXD.VALID k, BL.RXD.ERR k]
  | 0x18 => [BL.STAT.TXCNT k, BL.STAT.RXCNT k, BL.STAT.TXBUSY k, BL.STAT.ARMED k, BL.STAT.LATE k, BL.STAT.LOST k, BL.STAT.STUFFERR k, BL.STAT.TXOVF k, BL.STAT.RXOVF k]
  | 0x1C => [BL.TSTART_L.T k]
  | 0x20 => [BL.TSTART_H.T k]
  | 0x24 => [BL.DISARM.DISARM k]
  | _ =>
    []

/-- The register fields at offset `off` of the dbg group. -/
def fields_dbg (off : Nat) : List Fld :=
  match off with
  | 0x0 => [DBG.LOCK.OPEN, DBG.LOCK.ERASING, DBG.LOCK.BADKEY]
  | 0x4 => [DBG.UNLOCK.KEY]
  | 0x8 => [DBG.WDHOLD.HOLD]
  | 0x10 => [DBG.HALTREQ.ENG]
  | 0x14 => [DBG.RESUME.ENG]
  | 0x18 => [DBG.STEP.ENG]
  | 0x1C => [DBG.HALTED.ENG]
  | 0x3000 => [TRC.CTRL.EN, TRC.CTRL.SYNCPER]
  | 0x3004 => [TRC.STAT.FILL, TRC.STAT.LOST]
  | _ =>
    if 0x40 ≤ off ∧ (off - 0x40) % 0x10 = 0 ∧ (off - 0x40) / 0x10 < 4 then [HG.CTRL.EN ((off - 0x40) / 0x10), HG.CTRL.GO ((off - 0x40) / 0x10), HG.CTRL.RESUME ((off - 0x40) / 0x10), HG.CTRL.ACTED ((off - 0x40) / 0x10)]
    else if 0x44 ≤ off ∧ (off - 0x44) % 0x10 = 0 ∧ (off - 0x44) / 0x10 < 4 then [HG.START.ENG ((off - 0x44) / 0x10)]
    else if 0x48 ≤ off ∧ (off - 0x48) % 0x10 = 0 ∧ (off - 0x48) / 0x10 < 4 then [HG.STOP.ENG ((off - 0x48) / 0x10)]
    else if 0x4C ≤ off ∧ (off - 0x4C) % 0x10 = 0 ∧ (off - 0x4C) / 0x10 < 4 then [HG.NOTIFY.ENG ((off - 0x4C) / 0x10)]
    else if 0x3100 ≤ off ∧ (off - 0x3100) % 0x8 = 0 ∧ (off - 0x3100) / 0x8 < 14 then [TRC.E.NOTEEN.NOTE ((off - 0x3100) / 0x8)]
    else if 0x3104 ≤ off ∧ (off - 0x3104) % 0x8 = 0 ∧ (off - 0x3104) / 0x8 < 14 then [TRC.E.CFG.FLOW ((off - 0x3104) / 0x8)]
    else []

/-- The register fields at offset `off` of the dbgE group. -/
def fields_dbgE (i : Nat) (off : Nat) : List Fld :=
  match off with
  | 0x0 => [DBG.E.CTRL.EVHALT i, DBG.E.CTRL.EVPATCH i, DBG.E.CTRL.EVWATCH i]
  | 0x4 => [DBG.E.STAT.HALTED i, DBG.E.STAT.CAUSE i, DBG.E.STAT.TOUCHED i, DBG.E.STAT.DS i, DBG.E.STAT.PERR i, DBG.E.STAT.UNIT i]
  | 0x8 => [DBG.E.PC_L.PC i]
  | 0xC => [DBG.E.PC_H.PC i]
  | 0x10 => [DBG.E.NPC_L.NPC i]
  | 0x14 => [DBG.E.NPC_H.NPC i]
  | 0x18 => [DBG.E.PSEL.PORT i, DBG.E.PSEL.ACTIVE i]
  | 0x1C => [DBG.E.PDATA_L.DATA i]
  | 0x20 => [DBG.E.PDATA_H.DATA i]
  | 0x24 => [DBG.E.EVT.HG i]
  | 0x28 => [DBG.E.IEN.HG i]
  | _ =>
    if 0x40 ≤ off ∧ (off - 0x40) % 0x8 = 0 ∧ (off - 0x40) / 0x8 < 16 then [PATCH.ADDR_L.ADDR i ((off - 0x40) / 0x8)]
    else if 0x44 ≤ off ∧ (off - 0x44) % 0x8 = 0 ∧ (off - 0x44) / 0x8 < 16 then [PATCH.CTRL.ADDR i ((off - 0x44) / 0x8), PATCH.CTRL.EN i ((off - 0x44) / 0x8), PATCH.CTRL.ACTION i ((off - 0x44) / 0x8), PATCH.CTRL.IDX i ((off - 0x44) / 0x8)]
    else if 0xC0 ≤ off ∧ (off - 0xC0) % 0x8 = 0 ∧ (off - 0xC0) / 0x8 < 16 then [PRAM_L.BUNDLE i ((off - 0xC0) / 0x8)]
    else if 0xC4 ≤ off ∧ (off - 0xC4) % 0x8 = 0 ∧ (off - 0xC4) / 0x8 < 16 then [PRAM_H.BUNDLE i ((off - 0xC4) / 0x8)]
    else if 0x140 ≤ off ∧ (off - 0x140) % 0x20 = 0 ∧ (off - 0x140) / 0x20 < 4 then [WCH.ADDR_L.ADDR i ((off - 0x140) / 0x20)]
    else if 0x144 ≤ off ∧ (off - 0x144) % 0x20 = 0 ∧ (off - 0x144) / 0x20 < 4 then [WCH.ADDR_H.ADDR i ((off - 0x144) / 0x20)]
    else if 0x148 ≤ off ∧ (off - 0x148) % 0x20 = 0 ∧ (off - 0x148) / 0x20 < 4 then [WCH.CTRL.EN i ((off - 0x148) / 0x20), WCH.CTRL.R i ((off - 0x148) / 0x20), WCH.CTRL.W i ((off - 0x148) / 0x20), WCH.CTRL.ACTION i ((off - 0x148) / 0x20), WCH.CTRL.DMATCH i ((off - 0x148) / 0x20), WCH.CTRL.SIZE i ((off - 0x148) / 0x20)]
    else if 0x14C ≤ off ∧ (off - 0x14C) % 0x20 = 0 ∧ (off - 0x14C) / 0x20 < 4 then [WCH.DATA_L.DATA i ((off - 0x14C) / 0x20)]
    else if 0x150 ≤ off ∧ (off - 0x150) % 0x20 = 0 ∧ (off - 0x150) / 0x20 < 4 then [WCH.DATA_H.DATA i ((off - 0x150) / 0x20)]
    else []

/-- All register fields at a block-relative address; the empty list where the address is reserved (R467, R468). -/
def fieldsAt (addr : Nat) : List Fld :=
  let off := addr % 0x10000
  if addr % 4 ≠ 0 then []
  else if addr < 0x010000 then fields_glb off
  else if addr < 0x020000 then fields_mb (off / 0x4000) (off % 0x4000)
  else if addr < 0x030000 then fields_tu off
  else if addr < 0x040000 then fields_til off
  else if addr < 0x080000 then
    let n := (addr - 0x040000) / 0x10000
    if off < 0x2000 then []
    else if off < 0x4000 then fields_wsq (2 * n + (off - 0x2000) / 0x1000) (off % 0x1000)
    else if off < 0x6000 then fields_px (2 * n + (off - 0x4000) / 0x1000) (off % 0x1000)
    else if off < 0x7400 then fields_clu n off
    else if off < 0x7600 then fields_ttw n ((off - 0x7400) / 0x80) (off % 0x80)
    else if off < 0x7800 then []
    else if off < 0x7900 then fields_bl (2 * n + (off - 0x7800) / 0x80) (off % 0x80)
    else if off < 0x8000 then []
    else if off < 0x8060 then fields_xl (2 + 3 * n + (off - 0x8000) / 0x20) (off % 0x20)
    else []
  else if addr < 0x090000 then
    if 0xA000 ≤ off ∧ off < 0xA040 then fields_xl ((off - 0xA000) / 0x20) (off % 0x20)
    else if 0xB000 ≤ off ∧ off < 0xB100 then fields_dma ((off - 0xB000) / 0x40) (off % 0x40)
    else fields_mgt off
  else if addr < 0x0A0000 then
    if 0x1000 ≤ off ∧ off < 0x2C00 then fields_dbgE ((off - 0x1000) / 0x200) ((off - 0x1000) % 0x200)
    else fields_dbg off
  else []

end Sys2Proof.Machine.Reg
end

