-- ==== Sys2Proof/Machine/Store.lean ====
section
/-! DEFINITION. Sparse storage: lists of (key, value) pairs with strictly rising keys, in which an entry equal to what an
unlisted key reads as is never kept. Memory, the register cells, the control stores and the tables use them. -/

namespace Sys2Proof.Machine

/-- The value stored under a key, if any. -/
def lookup {α : Type} (k : Nat) : List (Nat × α) → Option α
  | [] => none
  | (j, v) :: t => if j = k then some v else lookup k t

/-- Store a value under a key, keeping the keys rising. -/
def insertAt {α : Type} (k : Nat) (v : α) : List (Nat × α) → List (Nat × α)
  | [] => [(k, v)]
  | (j, u) :: t =>
    if k < j then (k, v) :: (j, u) :: t
    else if k = j then (k, v) :: t
    else (j, u) :: insertAt k v t

/-- Remove every entry of a key. -/
def eraseAt {α : Type} (k : Nat) : List (Nat × α) → List (Nat × α)
  | [] => []
  | (j, u) :: t => if j = k then eraseAt k t else (j, u) :: eraseAt k t

/-- Store `v` under `k` where an unlisted key reads as `d`: the entry goes when `v = d`. -/
def putAt {α : Type} [DecidableEq α] (d : α) (k : Nat) (v : α) (l : List (Nat × α)) : List (Nat × α) :=
  if v = d then eraseAt k l else insertAt k v l

/-- The keys rise strictly. -/
def sortedKeys {α : Type} : List (Nat × α) → Bool
  | [] => true
  | [_] => true
  | (j, _) :: (k, v) :: t => decide (j < k) && sortedKeys ((k, v) :: t)

/-- The canonical form: rising keys, and no entry equal to what an unlisted key reads as. -/
def canonical {α : Type} [DecidableEq α] (d : α) (l : List (Nat × α)) : Bool :=
  sortedKeys l && l.all (fun e => decide (e.2 ≠ d))

end Sys2Proof.Machine
end

