-- ==== Sys2Proof/Machine/State.lean ====
section
/-! DEFINITION. The state of the block as plain data, its value after reset, and the reasons a step can stop. -/

namespace Sys2Proof.Machine

/-- Why a command stops the run. -/
inductive Fault where
  /-- RST_N was pulsed low for less than 20 ns: the manual calls the effect undefined (R410). Raised by RST_N_ASSERT
  alone. Safe: the model stops where the hardware does something unknown. -/
  | resetPulseTooShort
  deriving DecidableEq, Repr

/-- Why a command is refused. -/
inductive Refusal where
  /-- The command has no meaning in the model yet. Raised by Dispatch alone. Safe: nothing is claimed. -/
  | notModelled (mnemonic : String)
  deriving DecidableEq, Repr

/-! ### Ports: wire sequencer, tun, transmit MAC, images (files 02 and 03) -/

/-- A stamp of a frame edge in one time domain: the domain's TIME at the edge, and its rate word at the edge
(R98-R100). -/
structure Stamp where
  hi : Word
  lo : Word
  adj : Word
  deriving DecidableEq, Repr, Inhabited

/-- Where a frame's wire program stands (R39, R40, R45). -/
inductive Prog where
  | waiting | running | done
  deriving DecidableEq, Repr, Inhabited

/-- A queue copy ordered by QUE: the queue, and F0 and F1 as they stood at the QUE (R78). -/
structure QCopy where
  q : Fin 4
  f0 : Bool
  f1 : Bool
  deriving DecidableEq, Repr, Inhabited

/-- What the port knows of a frame's FCS, its handling and its fate (R22, R30, R31, R40, R52-R54, R75, R78). -/
structure FrameFate where
  /-- The received FCS verdict, once known (R22). -/
  verdict : Option Bool
  /-- The verdict is bad whatever the bytes say: a THRU launch or a link that fell ended the frame (R81, R422). -/
  cut : Bool
  /-- The link fell while the frame was being received: it counts as received with a bad FCS (R422, R30). -/
  linkLost : Bool
  /-- The frame leaves nothing on the egress: DISC before TXSTART (R54) or a failed store-and-forward test (R31). -/
  gone : Bool
  /-- The transmitted FCS is stomped (R53). -/
  stomp : Bool
  /-- WSQ.CHAFF has counted the frame. -/
  chaffed : Bool
  /-- The program ended under R43, R52 or R33: slot byte 2, STOMPED (R78). -/
  stomped : Bool
  /-- The program wrote the FILL input buffer (R75). -/
  wroteFill : Bool
  /-- A commit is armed (CMT, R37). -/
  cmt : Bool
  /-- Store-and-forward was selected for the frame (R31). -/
  saf : Bool
  deriving DecidableEq, Repr, Inhabited

/-- A frame in a port's lauter pipeline: its grains are the 16-byte pieces of `bytes` (R21). -/
structure Frame where
  /-- FCTR of the frame (R35): its number since the port was enabled. -/
  fctr : Word
  /-- The bytes that have arrived, the FCS included. -/
  bytes : List Byte
  /-- The deposited bytes: offset and byte, offsets rising. -/
  dep : List (Nat × Byte)
  /-- The frame's last byte is in the tun (EOF, R38). -/
  eof : Bool
  /-- The receive stamp in each time domain (R100). -/
  stamps : Vector Stamp 4
  /-- The frame was launched by a THRU descriptor (R81). -/
  thru : Bool
  prog : Prog
  /-- The current grain (R32). -/
  cur : Nat
  /-- The grains that have reached their release points, from grain 0 (R25). -/
  left : Nat
  /-- The port the frame leaves on; none: sunk (R28). -/
  egress : Option Nat
  /-- The queue copies ordered so far (R78). -/
  ques : List QCopy
  /-- The pair of source address and sequence number that HSRCHK or PRPCHK keyed (R85). -/
  dupKey : Option (Nat × Nat)
  fate : FrameFate
  /-- The whole frame has left: no byte of its FCS can change any more (R53). -/
  sent : Bool
  /-- The frame carried NEXTLAYOUT: the node's bank changes at its end (R147). -/
  swap : Bool
  /-- The time since byte 0 reached the receive interface, in sixteenths of an ENG_CLK cycle (R25, R35). -/
  age : Nat
  deriving DecidableEq, Repr, Inhabited

/-- A comparator of a wire sequencer (R32). -/
structure Cmp where
  ref : Word
  mask : Word
  mode : BitVec 2
  res : Bool
  deriving DecidableEq, Repr, Inhabited

/-- The state of a wire sequencer (R32). -/
structure Seq where
  sq : Vector Word 4
  carry : Bool
  cmp : Vector Cmp 4
  f0 : Bool
  f1 : Bool
  /-- The micro-call stack, newest first, at most 4 entries. -/
  stk : List (BitVec 14)
  upc : BitVec 14
  wpc : BitVec 10
  wop : BitVec 24
  /-- The opcode of the current wire op. -/
  opc : BitVec 8
  /-- The microprogram counter stands at the first word of the routine just dispatched (the model's own mark). -/
  fresh : Bool
  /-- Condition PAST (R38). -/
  past : Bool
  /-- The queue named by the last QUE (condition QFULL). -/
  lastQ : BitVec 2
  /-- The channels of TSEL0 and TSEL1 have matched since the last frame start (TMR0, TMR1). -/
  tmr0 : Bool
  tmr1 : Bool
  /-- Condition OUTNEW (R38). -/
  outnew : Bool
  /-- How far the Tiller op just dispatched has come: bytes done, and the op's part (the model's own). -/
  step : Nat
  part : Nat
  /-- The role byte of a twinned port as sampled at the last frame start (R169); 0 on any other port. -/
  role : Byte
  deriving DecidableEq, Repr, Inhabited

/-- A frame that the transmit MAC is sending from a queue, or that waits to resume after preemption (R81-R84). -/
structure TxFrame where
  /-- Traffic class and descriptor index. -/
  cls : Fin 8
  idx : Nat
  addr : Nat
  len : Nat
  ctrl : Byte
  /-- The transmit stamp of byte 0, TIME_LO in PX.CTRL.TDOM (R100). -/
  stamp : Word
  /-- The STATUS it ends with once it is over for the block (R82). -/
  ended : Option Nat
  /-- Bytes that had left when it was preempted or ended early. -/
  sent : Nat
  /-- Descriptors behind it that have already been returned (R175). -/
  behind : Nat
  deriving DecidableEq, Repr, Inhabited

/-- A control-store load in progress (R48). -/
inductive LoadPhase where
  /-- Waiting for the permit, or in the first pass. -/
  | first
  /-- The second pass, with the header and the digest that the first pass read. -/
  | second (head digest : List Byte)
  deriving DecidableEq, Repr, Inhabited

/-- The gate control list in force on a port's egress (R83). -/
structure GateSt where
  /-- The operational list's cycle time, cycle time extension in ns, and length. -/
  cycle : Nat
  ext : Nat
  len : Nat
  dom : Fin 4
  /-- A list has become operational. -/
  valid : Bool
  /-- The pending list's cycle time, extension, start in ns since the epoch of its domain, length and domain. -/
  pend : Option (Nat × Nat × Nat × Nat × Fin 4)
  /-- The entry in force and the instant it began, in ns. -/
  idx : Nat
  since : Nat
  /-- The gate states in force. -/
  gates : Byte
  /-- Set-And-Hold-MAC is in force (R84). -/
  hold : Bool
  deriving DecidableEq, Repr, Inhabited

/-- Everything of a port that its registers do not hold. -/
structure PortSt where
  seq : Seq
  /-- The frames of the lauter pipeline, oldest first. -/
  tun : List Frame
  /-- Frames handed to the pipeline since the port was enabled (FCTR, R35). -/
  fctr : Word
  /-- Bytes of the frame now arriving are ignored until its end (R81, R86, R87). -/
  ignore : Bool
  /-- The ignored frame is a returned SHEAF: the ns from its launch to its byte 0, and its bytes so far (R151). -/
  late : Option (Nat × Nat)
  /-- A THRU frame is entering the pipeline: its class, descriptor index, address, length and the bytes entered. -/
  thru : Option TxFrame
  /-- The launch instant of that frame in each time domain (R100). -/
  launched : Vector Stamp 4
  /-- The time since that launch, in sixteenths of an ENG_CLK cycle (R25). -/
  launchAge : Nat
  /-- The frame the transmit MAC is sending, and a preempted one. -/
  tx : Option TxFrame
  txHeld : Option TxFrame
  csld : Option LoadPhase
  /-- The physical address of the package of a load that the loader or the firmware started from the staged image (R378, R392). -/
  csldAt : Option Nat
  /-- The wire-program memory: bank × 1,024 + index ↦ wire op; unlisted 0 (R39). -/
  wpm : List (Nat × Nat)
  /-- The control store: microaddress ↦ microword; unlisted 0 (R46). -/
  cs : List (Nat × Nat)
  /-- Control-store and dispatch words with a bit error: location (dispatch entries from 16,384), double-bit (R49). -/
  csEcc : List (Nat × Bool)
  /-- Corrected words that wait to be written back, by location (R49). -/
  csFixed : List Nat
  /-- Frames of the Tiller firmware that wait for a guarded span of their line (R107). -/
  ringWait : List (List Byte)
  /-- The gate control lists: bank × 2,048 + entry × 2 + word ↦ word; unlisted 0 (R83). -/
  gcl : List (Nat × Nat)
  gate : GateSt
  /-- A commit has taken place since the last input tick (R73). -/
  committed : Bool
  /-- An output latch is due at the next frame start (R73). -/
  latchDue : Bool
  /-- A publication has taken place since the last frame start (condition OUTNEW, R38). -/
  pubSince : Bool
  /-- Counts of commits and of publications since the block reset (R69). -/
  inSeq : Word
  outSeq : Word
  deriving DecidableEq, Repr, Inhabited

/-! ### The tables that the two ports of a cluster share (R85) -/

/-- A stream of the IEEE 802.1CB table. -/
structure Stream where
  recov : BitVec 16
  hist : BitVec 64
  takeAny : Bool
  alg : Bool
  en : Bool
  gen : BitVec 16
  passed : BitVec 16
  discarded : BitVec 16
  outOfOrder : BitVec 16
  rogue : BitVec 16
  deriving DecidableEq, Repr, Inhabited

/-- An entry of the duplicate table: source address, sequence number, the egresses it was forwarded on, and whether a
copy has gone to a queue. -/
structure DupEntry where
  src : Nat
  seqn : Nat
  fwd : List Nat
  queued : Bool
  deriving DecidableEq, Repr, Inhabited

/-! ### Time (file 04) -/

/-- A stretch of a domain's past in which TIME ran at one rate: its length in cycles, TIME at its end in units of 2^-50 ns, and
its rate word. -/
structure TimePiece where
  len : Nat
  stop : Nat
  adj : Word
  deriving DecidableEq, Repr, Inhabited

/-- A time domain: TIME_HI, TIME_LO, the hidden extension below TIME_LO, and the rate word in force (R91-R93). -/
structure TimeDom where
  hi : Word
  lo : Word
  ext : BitVec 32
  adj : Word
  /-- The low half of the rate word as the host wrote it last: held until ADJ_H is written (R93). -/
  held : BitVec 32
  /-- The cycles since the time or the rate was last changed, and the stretches before that, newest first: what the stamp of an
  edge that fell before the change keeps (R94, R100). -/
  since : Nat
  past : List TimePiece
  deriving DecidableEq, Repr, Inhabited

/-- A time-triggered window table as a line sampled it: period, phase, guard and the used windows (R106). -/
structure WinTab where
  dom : Fin 4
  period : Nat
  phase : Nat
  guard : Nat
  wins : List (Nat × Nat)
  deriving DecidableEq, Repr, Inhabited

/-- A record of the image that the loader acts on (R372-R375). A package is named by its offset within the image. -/
inductive ImgRec where
  /-- REGSET: offset, mask and value of each entry. -/
  | regset (entries : List (Nat × Nat × Nat))
  | cspkg (ports off : Nat)
  | load (dest : Nat) (data : List Byte)
  /-- START: engine and entry address. -/
  | start (entries : List (Nat × Nat))
  deriving DecidableEq, Repr, Inhabited

/-- What the loader or the firmware still has to do with the staged image: the check and, of its records, what comes after the first of
the control-store loads (R378, R392). -/
structure LoadJob where
  /-- The permit for the check has been asked for (R384). -/
  asked : Bool
  /-- The image has passed its check. -/
  checked : Bool
  /-- LOAD records are applied to a cluster that wakes from DEEP or OFF (R392). -/
  wake : Bool
  /-- The records of the image that has passed its check. -/
  recs : List ImgRec
  /-- The control-store loads still to be started, in record order: port and offset of the package. -/
  todo : List (Nat × Nat)
  /-- The ports whose load is in flight. -/
  flight : List Nat
  deriving DecidableEq, Repr, Inhabited

/-- Everything of a port cluster that its registers do not hold. -/
structure ClusterSt where
  /-- TMR.CNT (R111). -/
  cnt : Word
  /-- The live compare values of the eight channels (R112). -/
  cmp : Vector Word 8
  /-- CMP_L of the eight channels as the host wrote it last: held until CMP_H is written (R113). -/
  held : Vector (BitVec 32) 8
  /-- The valid table that each line sampled at its last period start; none: every window is closed (R106). -/
  win : Vector (Option WinTab) 4
  /-- The stretches of time in which each line has sampled its period starts since EN rose: domain, and the first and the last
  period start in ns (R106). -/
  seen : Vector (List (Nat × Int × Int)) 4
  /-- Per line and time domain, the instant in ns up to which period starts lie before the rise of EN (R106). -/
  rise : Vector (Vector Int 4) 4
  streams : List (Nat × Stream)
  dups : List DupEntry
  /-- What is still to be done to bring the cluster up again from the staged image (R392). -/
  restore : Option LoadJob
  deriving DecidableEq, Repr, Inhabited

/-- A PPS output (R110): the pulse is in progress, the cycles since its leading edge, and the seconds that have pulsed, newest
first. -/
structure PpsSt where
  active : Bool
  age : Nat
  pulsed : List Nat
  deriving DecidableEq, Repr, Inhabited

/-- Interpolator calibration (R102): the next port of the round under way, and the cycles of each port since its last
calibration. -/
structure CalSt where
  next : Option Nat
  counts : Vector Nat 9
  deriving DecidableEq, Repr, Inhabited

/-! ### Permits (file 14) -/

/-- The power permit unit: requester number and cost in mW of the permits granted, of the queue, head first, and of the
requests set aside (R402-R404). -/
structure PermitSt where
  granted : List (Nat × Nat)
  queue : List (Nat × Nat)
  aside : List (Nat × Nat)
  deriving DecidableEq, Repr, Inhabited

/-- The last answer on the slave port: status code and read data (R416). -/
structure Answer where
  status : Nat
  data : Nat
  deriving DecidableEq, Repr, Inhabited
/-! ### Engines (files 07 to 09, 11) -/

/-- An ALU (R234). -/
structure AluSt where
  a : Word
  r : Word
  c : Bool
  deriving DecidableEq, Repr, Inhabited

/-- A multiplier operation (R236). -/
inductive MulFn where
  | muls | mulu | mulsu | mac | msu
  deriving DecidableEq, Repr, Inhabited

/-- A multiplier trigger in flight, with its operands, its bundle and slot, its place in the engine's order of accesses, and
whether an overflow of it is reported imprecisely: PREC was 0 at the trigger (R211, R237, R276). -/
structure MulOp where
  fn : MulFn
  a : Word
  b : Word
  pc : Word
  slot : Bool
  seqn : Nat
  imp : Bool
  deriving DecidableEq, Repr, Inhabited

/-- The multiplier: the pair PH:PL and the triggers in flight, oldest first (R211, R237). -/
structure MulSt where
  a : Word
  ph : Word
  pl : Word
  flight : List MulOp
  deriving DecidableEq, Repr, Inhabited

/-- The divider; the quotient and remainder of a divide in flight (R238). -/
structure DivSt where
  a : Word
  q : Word
  rem : Word
  flight : Option (Word × Word)
  deriving DecidableEq, Repr, Inhabited

/-- The shifter (R239). -/
structure ShSt where
  a : Word
  r : Word
  i : Word
  deriving DecidableEq, Repr, Inhabited

/-- A data access of an address generator that is under way, or a store that has been posted (R225). -/
structure Access where
  /-- The place of the access in the engine's order of accesses. -/
  seqn : Nat
  va : Word
  /-- The 40-bit physical address; an access of the own scratchpad window carries the address of its bytes. -/
  pa : Nat
  /-- An untranslated access of the own scratchpad (R317). -/
  own : Bool
  len : Nat
  /-- The width modifier (R200). -/
  width : Nat
  /-- The data of a store or SC. -/
  data : Word
  /-- Loads: 0 LD or LDX, 1 LR, 2 SC. -/
  kind : Nat
  /-- The generator, and the bundle and slot that triggered the access. -/
  ag : Nat
  pc : Word
  slot : Bool
  /-- An SC that issued under a reservation on its row, which has not been lost since (R228). -/
  held : Bool := false
  deriving DecidableEq, Repr, Inhabited

/-- An address generator (R222). -/
structure AgSt where
  bank : BitVec 24
  addr : BitVec 24
  step : BitVec 24
  start : BitVec 24
  len : BitVec 24
  mode : BitVec 5
  ldd : Word
  scr : Bool
  flight : Option Access
  deriving DecidableEq, Repr, Inhabited

/-- Control flow: the address of the next bundle, whether it is a delay bundle with the address execution continues at
and whether the transfer was taken, the loop, repeat and link registers (R212, R230). -/
structure FlowSt where
  pc : Word
  xfer : Option (Bool × Word)
  loopStart : Word
  loopEnd : Word
  loopCnt : BitVec 32
  rptCnt : BitVec 16
  link : Word
  deriving DecidableEq, Repr, Inhabited

/-- The fields of the status word (R282); DS is always 0 in the live word. -/
structure Status where
  mask : BitVec 3
  la : Bool
  ra : Bool
  rint : Bool
  ds : Bool
  df : Bool
  deriving DecidableEq, Repr, Inhabited

/-- An imprecise report that waits (R276, R277), with its place in the engine's order of accesses: an arithmetic report with
place `n` came before access `n`. -/
structure Report where
  vec : Nat
  aepc : Word
  faddr : Word
  multi : Bool
  store : Bool
  ag : Nat
  slot : Bool
  seqn : Nat
  deriving DecidableEq, Repr, Inhabited

/-- What was pending when a precise fault was entered: it waits until the fault's handler has lowered MASK or returned (R270). -/
structure Hold where
  /-- MASK as the handler was entered with it. -/
  mask : BitVec 3
  /-- Entries since, that have not returned. -/
  depth : Nat
  srcs : BitVec 16
  /-- The watchdog warning. -/
  warn : Bool
  deriving DecidableEq, Repr, Inhabited

/-- The exception and status unit (R282-R284). -/
structure ExcSt where
  sr : Status
  ssr : BitVec 8
  vbar : Word
  epc : Word
  enpc : Word
  aepc : Word
  cause : Word
  faddr : Word
  sp : Word
  dsp : Word
  sh : Vector Word 4
  ien : BitVec 16
  ilvl : Word
  flvl : BitVec 33
  dz : Bool
  ov : Bool
  swi : BitVec 2
  wdper : BitVec 32
  /-- The watchdog has expired once without a kick since; its warning is pending (R281). -/
  wdOnce : Bool
  wdWarn : Bool
  /-- What waits for the handlers of precise faults (R270). -/
  holds : List Hold
  cyc : Word
  reports : List Report
  deriving DecidableEq, Repr, Inhabited

/-- Selectors, the engine doorbell, the inbound message queue and the CRC unit (R244-R250). -/
structure MsgSt where
  semIdx : BitVec 6
  edbTgt : BitVec 4
  msgTgt : BitVec 4
  hdbCh : BitVec 2
  sqSel : BitVec 3
  tmCsel : BitVec 6
  edb : BitVec 32
  queue : List Word
  sendFail : Bool
  ringFail : Bool
  crcCfg : BitVec 5
  crcState : BitVec 32
  crcXor : BitVec 32
  deriving DecidableEq, Repr, Inhabited

/-- A TLB entry (R320). -/
structure TlbEntry where
  vpn : Nat
  size : Nat
  x : Bool
  w : Bool
  r : Bool
  ae : Bool
  a : Bool
  d : Bool
  ppn : Nat
  share : BitVec 3
  /-- The stored entry has a parity error (R300). -/
  bad : Bool
  deriving DecidableEq, Repr, Inhabited

/-- A TLB: slot ↦ entry, and the round-robin victim pointer (R321). -/
structure Tlb where
  ents : List (Nat × TlbEntry)
  victim : Nat
  deriving DecidableEq, Repr, Inhabited

/-- The kind of an access to a page. -/
inductive AccKind where
  | read | write | fetch
  deriving DecidableEq, Repr, Inhabited

/-- A table walk: the address it serves, the access, and its level; none: not yet started (R326, R328). -/
structure Walk where
  va : Nat
  acc : AccKind
  /-- The level whose descriptor is being read, and the descriptor's physical address. -/
  at' : Option (Nat × Nat)
  deriving DecidableEq, Repr, Inhabited

/-- The instruction side as it stood before an invalidation since the last control transfer (R242, R254): bundles
fetched ahead may still come from it. -/
structure Ahead where
  itlb : Tlb
  lines : List (Nat × List Byte)
  deriving DecidableEq, Repr, Inhabited

/-- Translation and the instruction cache of an engine (R242, R319, R324-R328). -/
structure XlSt where
  itlb : Tlb
  dtlb : Tlb
  missVa : Word
  missInf : Word
  /-- Line number (virtual address / 64) ↦ its 64 bytes. -/
  lines : List (Nat × List Byte)
  /-- The lines whose stored copy has a parity error (R300). -/
  badLines : List Nat
  ahead : Option Ahead
  /-- The register fields as they stood before a change of the engine's patch units since the last control transfer
  (R457). -/
  patch : Option (List (Nat × Nat))
  /-- The line whose fill got an error response (R277). -/
  lineErr : Option Nat
  walk : Option Walk
  /-- A walk has ended in a fault that its access has not yet taken: its address and MISSINF. -/
  walkFault : Option (Nat × Nat)
  deriving DecidableEq, Repr, Inhabited

/-- A bundle that waits for its husk transaction (R256): the husk port, the direction, the value to be written, whether
the request has gone out, the bundle, and the source values it read at its issue (none: read at completion). -/
structure HuskWait where
  port : Nat
  write : Bool
  value : Word
  sent : Bool
  bundle : Word
  vals : List (Option Word)
  /-- The answer, once it has come: the bundle still waits for a table walk. -/
  answer : Option Word
  /-- The transaction is a debugger's port access and belongs to no bundle (R454). -/
  debug : Bool
  deriving DecidableEq, Repr, Inhabited

/-- A read by exception hardware from external memory: physical address, length, and the answer once it has come (none
within it: an error response). -/
structure ExtRead where
  pa : Nat
  len : Nat
  answer : Option (Option (List Byte))
  /-- Its place in the engine's order of accesses. -/
  seqn : Nat
  deriving DecidableEq, Repr, Inhabited

/-- What an entry has changed and must undo if its push fails after the fact (R272). -/
structure Undo where
  sp : Word
  epc : Word
  enpc : Word
  ssr : BitVec 8
  cause : Word
  aepc : Word
  faddr : Word
  sr : Status
  pc : Word
  xfer : Option (Bool × Word)
  /-- External push writes whose completion has not returned, and their place in the engine's order of accesses. -/
  left : Nat
  seqn : Nat
  deriving DecidableEq, Repr, Inhabited

/-- What an entry records of a fault, report, trap or interrupt (R271, R278, R283). -/
structure Event where
  vec : Nat
  epc : Word
  enpc : Word
  ds : Bool
  imp : Bool
  multi : Bool
  slot : Bool
  fetch : Bool
  store : Bool
  ag : Nat
  faddr : Word
  aepc : Option Word
  deriving DecidableEq, Repr, Inhabited

/-- An engine. -/
structure EngSt where
  g : Vector Word 64
  alu : Vector AluSt 2
  mul : MulSt
  div : DivSt
  sh : ShSt
  ag : Vector AgSt 4
  flow : FlowSt
  exc : ExcSt
  msg : MsgSt
  xl : XlSt
  /-- Posted stores that have not completed, oldest first (R225). -/
  posted : List Access
  /-- The accesses made so far (the model's own). -/
  seqn : Nat
  /-- The reserved row, block-relative address / 16 (R227). -/
  resv : Option Nat
  husk : Option HuskWait
  /-- Reads of external memory by exception hardware: outstanding, or answered and not yet used. -/
  ext : List ExtRead
  undo : Option Undo
  /-- An entry that waits for a table walk or external memory: its event, and for a double fault its ENTRY, ESC and RET
  (R272). -/
  retry : Option (Event × Option (Bool × Bool × Bool))
  /-- Parked by start-up: the first message starts the engine (R378, R395). -/
  boot : Bool
  /-- A halt has been requested, with its cause (R450). On a halted engine: a halt group has asked for a halt in this cycle, so no RESUME
  takes effect in it (R453). -/
  haltReq : Option Nat
  /-- The halt groups that the requested halt comes from (R455). -/
  haltBy : List (Fin 4)
  /-- Moves to ports by a debugger that wait for their units, oldest first: port and value (R454). -/
  moves : List (Nat × Word)
  /-- The engine runs one bundle and halts again (R453). -/
  stepping : Bool
  /-- The next bundle has begun to issue and stalls, and the bundle once it has been fetched, with what it has read of the time
  unit (R196, R251, R259). -/
  stalled : Bool
  held : Option (Word × Option Word)
  /-- An exception has been entered and no bundle of its handler has retired: no boundary lies here (R269). -/
  fresh : Bool
  deriving DecidableEq, Repr, Inhabited

/-- A transaction on the husk interface (R256). -/
structure HuskTx where
  eng : Fin 14
  port : Nat
  write : Bool
  data : Word
  deriving DecidableEq, Repr, Inhabited

/-- A SEND or RING on its way to its target (R246). -/
structure Parcel where
  src : Fin 14
  tgt : Nat
  ring : Bool
  value : Word
  deriving DecidableEq, Repr, Inhabited

/-- A trace packet of the present cycle: its SRC, its place among the packets of one bundle (0 and 1 the slots, 2 what follows them), and
its words (R461, R462). -/
structure TracePkt where
  src : Nat
  slot : Nat
  words : List Word32
  deriving DecidableEq, Repr, Inhabited

/-- The trace unit: the packets of the present cycle, the words in its FIFO, oldest first, the trace cycle count, the packets dropped
since the last LOST, the words sent since the last SYNC and the cycles since the last packet (R461, R462). -/
structure TraceSt where
  now : List TracePkt
  fifo : List Word32
  cyc : Word
  lost : Nat
  sent : Nat
  quiet : Nat
  deriving DecidableEq, Repr, Inhabited

/-- The memory tester (R304-R313): the logical bank under test, its physical bank, whether an untested spare is marched
first, the granary test recorded behind it, the scratchpad offer that waits for its permit, the offer recorded behind a loan,
the engine offered last and whether an offer has been made since the last granary test began, and the entry address of a
restart that the loan holds back. -/
structure TesterSt where
  test : Option Nat
  phys : Nat
  pre : Bool
  queued : Bool
  offer : Option Nat
  next : Option Nat
  turn : Nat
  offered : Bool
  restart : Option Word
  deriving DecidableEq, Repr, Inhabited
/-! ### Tiller and the twin controller (files 05 and 06) -/

/-- A slot that a router's firmware carries from one ring to another (R161): destination ring, offsets in the input and the
output data area, length. -/
structure Route where
  dst : Fin 4
  src : Nat
  out : Nat
  len : Nat
  deriving DecidableEq, Repr, Inhabited

/-- Everything of a ring that its registers do not hold (R125-R163). -/
structure RingSt where
  /-- The cycle counter of the segment (R150). -/
  cycle : Word
  /-- What the Tiller firmware's configuration holds: destination address (R130), number of summation words (R132), carry-buffer
  base (R149), address of its echo frames (R155), and the slots that a router copies between rings (R161). -/
  da : BitVec 48
  sums : Nat
  carry : Nat
  echoBuf : Nat
  routes : List Route
  /-- CYCLE of a SHEAF that a standby downstream in its pair has let pass as its partner's launch (R173). -/
  passed : Option Nat
  /-- The segment that the node has last seen itself in (R137). -/
  seg : Nat
  /-- The half of the carry buffer that is the source of the next launch, and whether it holds a frame (R153). -/
  half : Nat
  built : Bool
  /-- The launch of the last SHEAF and of the one before it, in units of 2^-18 ns within their seconds (R151). -/
  launch : Nat
  prior : Nat
  /-- The layout in force: its version, and node and length of each slot (R146). -/
  version : Nat
  slots : List (Nat × Nat)
  /-- The layout that is to take effect: version, slots, and whether word 1 has reached NODES (R147). -/
  change : Option (Nat × List (Nat × Nat) × Bool)
  /-- The next SHEAF carries NEXTLAYOUT; it has been sent (R147). -/
  next : Bool
  sent : Bool
  /-- A wire program is staged in the inactive bank, with frame offset and length of the node's own slot, if it has one
  (R147). -/
  staged : Option (Option (Nat × Nat))
  /-- Factory ID and MOVED of the entries of the last scout (R145). -/
  scout : List (Nat × Bool)
  /-- SHEAFs since the last LAYOUT frame (R147). -/
  layoutAge : Nat
  /-- The sequence number of the last echo request; the exchanges under way, newest first: number, t1 once its descriptor has
  returned, and t2 and t4 once they are known; twice the mean link delay of the last valid exchanges, newest first, all in
  units of 2^-16 ns; and the sequence number and t3 of the last echo reply sent, as bytes (R155, R156). -/
  echoSeq : Nat
  exchanges : List (Nat × Option Nat × Option (Nat × Nat))
  /-- The echo request and the echo reply whose descriptors have not returned: sequence number and descriptor index. -/
  echoTx : Option (Nat × Nat)
  replyTx : Option (Nat × Nat)
  echoes : List Int
  reply : List Byte
  /-- Consecutive cycles in which the offset stayed within 50 ns (R157). -/
  within : Nat
  deriving DecidableEq, Repr, Inhabited

/-- Everything of the twin controller that its registers do not hold (R166-R192). -/
structure TwinSt where
  /-- Frames sent on PT, and the SEQ expected next (R191, R192). -/
  sent : BitVec 32
  expect : Option (BitVec 32)
  /-- Region writes received since the last CUT, oldest first (R177). -/
  batch : List (Nat × List Byte)
  /-- A publication received in part: port, SEQ and data (R192). -/
  part : Option (Nat × Nat × List Byte)
  /-- A planned handover has been ordered and waits for the next cut (R186). -/
  ordered : Bool
  /-- A handover sent or received: the cut it happens at, the new epoch, and whether ACK has been received (R186). -/
  handover : Option (Nat × Nat × Bool)
  /-- The image transfer: the permit has been granted, the next page of the bulk pass, and the pages to be resent (R187). -/
  pushing : Bool
  page : Nat
  marked : List Nat
  /-- The partner reported HOLD in its last heartbeat (R189). -/
  peerHold : Bool
  /-- Domain 0 in ns when the image transfer began: at the pusher the grant of its permit, at the puller the first page
  (TWN.RSYNCUS). -/
  began : Option Nat
  /-- Cuts sent or applied (R176, R191). -/
  cuts : Word
  /-- The unit named by TWN.PEERFID has passed the checks of R170, and nothing has said otherwise since. -/
  agreed : Bool
  /-- A third fault of ME0 or ME1 has stopped the heartbeats (R178). -/
  spent : Bool
  /-- ENG_CLK cycles since the last valid heartbeat, and the periods counted as missed since then (R179, R193). -/
  quiet : Nat
  missed : Nat
  deriving DecidableEq, Repr, Inhabited

/-! ### The host (file 12) -/

/-- An ABORT that waits for the reply of the command it names (R358). -/
structure Aborter where
  tag : BitVec 16
  noReply : Bool
  /-- Another ABORT has named it: it replies LATE, whatever NOREPLY says (R358). -/
  late : Bool
  deriving DecidableEq, Repr, Inhabited

/-- An outstanding command of a channel (R350, R352, R358): its tag, opcode and parameters, NOREPLY, whether it is past its
commit point, and the ABORTs that wait for its reply. -/
structure HostCmd where
  tag : BitVec 16
  op : BitVec 16
  params : List Byte
  noReply : Bool
  /-- The firmware has begun the command; it now waits for the hardware. -/
  started : Bool
  committed : Bool
  /-- ABORTs that wait for its reply, in the order of their own replies. -/
  aborters : List Aborter
  deriving DecidableEq, Repr, Inhabited

/-- A reply that waits for B2H: its packet, and the tag that is outstanding until it is posted (R350, R352). -/
structure Reply where
  bytes : List Byte
  tag : BitVec 16
  deriving DecidableEq, Repr, Inhabited

/-- What waits to be written to B2H: a reply, or an event by its code and DETAIL (R352, R360). -/
inductive Post where
  | reply (r : Reply)
  | event (code detail : Nat)
  deriving DecidableEq, Repr, Inhabited

/-- A mailbox channel (R339-R360). -/
structure ChanSt where
  cmds : List HostCmd
  /-- Replies and events that wait, in the order of completion (R352, R360). -/
  due : List Post
  /-- Events dropped (R360). -/
  lost : Nat
  /-- The EVENTS mask (R353). -/
  mask : BitVec 16
  /-- The crossing timer has fired while both flags stayed set (R347). -/
  crossed : Bool
  /-- The crossing timer runs: XUS as it stood when the timer started from 0 (R347). -/
  crossUs : Option Nat
  deriving DecidableEq, Repr, Inhabited

/-- The replies of a channel that wait, and its unsent events. -/
def ChanSt.replies (x : ChanSt) : List Reply := x.due.filterMap (fun d => match d with | .reply r => some r | .event .. => none)
def ChanSt.events (x : ChanSt) : List (Nat × Nat) := x.due.filterMap (fun d => match d with | .event c d => some (c, d) | .reply _ => none)

/-- A DMA channel (R363-R365). -/
structure DmaSt where
  /-- The descriptor in progress must still be read. -/
  fetch : Bool
  src : Nat
  dst : Nat
  left : Nat
  /-- NOTIFY, LAST and NEXT of the descriptor in progress. -/
  notify : Bool
  last : Bool
  next : Nat
  /-- The transfer needs a permit (R364). -/
  heavy : Bool
  /-- ABORT has been written: the channel stops after the chunk in progress. -/
  abort : Bool
  /-- What the channel waits for on the master port: 0 nothing, 1 a read, 2 the writes of a chunk (R413). -/
  phase : Nat
  deriving DecidableEq, Repr, Inhabited

/-- A bit line (R425-R428): the transmit FIFO as written to BL.TXD, the receive FIFO as read from BL.RXD, the armed start, the
received bits that wait to fill a word, and the last bit received with how many equal bits end in it. -/
structure BitSt where
  tx : List Word32
  rx : List Word32
  start : Option Word
  shift : List Bool
  last : Bool
  run : Nat
  /-- The entries of the occupancy in progress that have left the FIFO, and the ENG_CLK cycles since its first edge. -/
  gone : List Word32
  age : Nat
  /-- The bit-stream receiver: the level of BL_RX at the last PER_CLK edge, the cycles since the start of the bit, whether the bit has been
  sampled, and how many recessive bits were sampled last. -/
  level : Bool
  pos : Nat
  sampled : Bool
  quiet : Nat
  deriving DecidableEq, Repr, Inhabited

/-! ### Start-up, power and the boundary (files 13 to 16) -/

/-- How the boot port reads the flash (R369): the instruction; the lanes of the address and of the data; mode and dummy clocks;
PER_CLK cycles to a BOOT_SCK period. -/
structure FlashRead where
  instr : Nat
  addrLanes : Nat
  dataLanes : Nat
  mode : Nat
  dummy : Nat
  sck : Nat
  deriving DecidableEq, Repr, Inhabited

/-- Instruction 0x03 at single I/O and 25 MHz (R369). -/
def FlashRead.plain : FlashRead := ⟨0x03, 1, 1, 0, 0, 8⟩

/-- A part of a command on the boot port: bytes shifted out, mode clocks, dummy clocks, and bytes sampled (R369, R433). -/
inductive BootPhase where
  | out (lanes : Nat) (bytes : List Byte)
  | mode (lanes clocks : Nat)
  | dummy (clocks : Nat)
  | read (lanes bytes : Nat)
  deriving DecidableEq, Repr, Inhabited

/-- Start-up (R378-R381, R406): the block reset is in force, with the bits of GLB.RST.CAUSE to set at its release; a reset
asked for while the block erases, by its cause bit (R447); the slots left to try; the staged image has been accepted and its
records applied, and it waits for IMAGE_START. -/
structure BootSt where
  inReset : Bool
  causes : Nat
  queued : Option Nat
  tries : List Nat
  accepted : Bool
  /-- BOOT_SEL and BOOT_DIV as sampled at the release of RST_N (R368). -/
  sel : Bool
  div : BitVec 2
  /-- How the loader reads the flash (R369). -/
  read : FlashRead
  /-- An image has begun to be read into the staging area since the block reset (step 5 of R378, R379). -/
  staging : Bool
  /-- What is still to be done with the staged image. -/
  job : Option LoadJob
  deriving DecidableEq, Repr, Inhabited

/-- A handshake with the power controller (R397): the domain, the mode it is to enter, whether it is a wake, and PCH_REQ. -/
structure PchSt where
  dom : Nat
  mode : Nat
  wake : Bool
  req : Bool
  deriving DecidableEq, Repr, Inhabited

/-- Power modes (R396-R399): a request that waits for drains and parks, with the engines parked for it; the handshake; the
level of PCH_ACK; the domains that a wake event still has to wake; the value of PWR.WAKE's timer has been started. -/
structure PowerSt where
  wait : Option (Nat × Nat)
  parked : List Nat
  /-- The engines that a request for IDLE has parked (R395). -/
  idled : List Nat
  pch : Option PchSt
  ack : Bool
  wakes : List Nat
  /-- The domain and mode of a request that wakes a domain and is not yet done (R396, R398). -/
  asked : Option (Nat × Nat)
  timer : Bool
  /-- The deepest mode that a sleeping domain has been in since it last ran: what is lost in it is lost (R394). -/
  depth : List (Nat × Nat)
  deriving DecidableEq, Repr, Inhabited

/-- The states of the TAP controller (R441, IEEE 1149.1). -/
inductive TapCtl where
  | testLogicReset | runTestIdle
  | selectDr | captureDr | shiftDr | exit1Dr | pauseDr | exit2Dr | updateDr
  | selectIr | captureIr | shiftIr | exit1Ir | pauseIr | exit2Ir | updateIr
  deriving DecidableEq, Repr, Inhabited

/-- An access that the TAP has asked for (R449). -/
structure TapReq where
  addr : BitVec 27
  write : Bool
  active : Bool
  value : Word32
  deriving DecidableEq, Repr, Inhabited

/-- The debug TAP (R441, R448, R449): whether SCAN_MODE has risen, and whether the scan chains are connected (R442); the controller's
state, the instruction, the shift path in use with the bit next to TDO first, and the level of TDO; the read data and response code of
the last access, and an access that has not completed; the TCK cycles that the tester has applied and that are still to come: TMS and
TDI of each (log entry 78). -/
structure TapSt where
  scanDue : Bool
  scan : Bool
  ctl : TapCtl
  ir : BitVec 5
  path : List Bool
  tdo : Bool
  data : Word32
  code : Nat
  busy : Option TapReq
  edges : List (Bool × Bool)
  deriving DecidableEq, Repr, Inhabited

/-- A command of the slave port that waits in the command buffer, with its write beats: data and byte enables (R414, R415). -/
structure SlCmd where
  write : Bool
  cnt : Fin 16
  sz : Fin 8
  wrap : Bool
  tag : BitVec 8
  sec : Bool
  addr : BitVec 27
  beats : List (BitVec 128 × BitVec 16)
  deriving DecidableEq, Repr, Inhabited

/-- The credits of the system ports (R413): those that the block holds on the lanes it sends on, read return and write completion of
the slave port, command and write data of the master port; and those of its own buffers that the other side holds, command and write
data of the slave port, read return and write completion of the master port. -/
structure CreditSt where
  rd : Nat
  wc : Nat
  cmd : Nat
  wd : Nat
  slCmd : Nat
  slWd : Nat
  mlRd : Nat
  mlWc : Nat
  deriving DecidableEq, Repr, Inhabited

/-! ### The block -/

/-- What has left the block on its boundary (the model's own record of its outputs). -/
inductive Out where
  /-- A frame on a media interface, its FCS included. -/
  | frame (port : Nat) (bytes : List Byte)
  /-- A transaction request, or an abort, on the husk interface (R256, R257). -/
  | huskReq (write : Bool) (port eng : Nat) (data : Word)
  | huskAbort (eng : Nat)
  /-- A command of the system master port: ML_CMD_TAG, ML_CMD_SEC, write, address, length, device attribute and the bytes
  written (R417, R418). -/
  | master (tag : Nat) (sec write : Bool) (addr len : Nat) (dev : Bool) (bytes : List Byte)
  /-- A write beat of the command before it on the master port, by the row it writes (R413). -/
  | mlBeat (row : Nat)
  /-- A beat of a read answered on the slave port, with SL_RD_END; the status of a write (R414-R416). -/
  | slRead (tag status : Nat) (bytes : List Byte) (last : Bool)
  | slWrite (tag : Nat) (status : Nat)
  /-- An occupancy of a bit line: whether BL_DE is 1 through it, and BL_TX bit by bit, each with its length in PER_CLK cycles
  (R424-R426). -/
  | bitline (line : Nat) (de : Bool) (wave : List (Nat × Bool))
  /-- The repair chain: REP_LOAD is raised for this many cycles of REP_CLK, at ROOT_CLK / 64 (R434). -/
  | repair (clocks : Nat)
  /-- A command on the boot port, from the fall of BOOT_CS_N to its rise, with the PER_CLK cycles of a BOOT_SCK period (R369,
  R370, R433). -/
  | boot (sck : Nat) (phases : List BootPhase)
  /-- Bytes programmed into the boot flash (R354). -/
  | flash (offset : Nat) (bytes : List Byte)
  /-- A word of the trace output (R461). -/
  | trace (w : Word32)
  deriving DecidableEq, Repr

/-- The state of the block. Register fields lie in `cells`, everything else in typed fields. -/
structure State where
  /-- Register fields: address × 8 + … ↦ value, for fields that differ from their reset value. -/
  cells : List (Nat × Nat)
  /-- On-block memory by block-relative address; an unlisted byte reads 0 (log entry 3). -/
  mem : List Host.Cell
  /-- Codewords of on-block memory with a bit error: address / 8 ↦ double-bit (R298). -/
  ecc : List (Nat × Bool)
  ports : Vector PortSt 8
  clusters : Vector ClusterSt 4
  time : Vector TimeDom 4
  pps : Vector PpsSt 4
  calib : CalSt
  /-- Pins on which a timer or software has acted in this cycle: pin, rank of the source, level before (R115). -/
  pinActs : List (Nat × Nat × Bool)
  /-- Pins that software has set in this cycle (R7, R115). -/
  pinSets : List Nat
  eng : Vector EngSt 14
  /-- The second-level TLBs of C0 to C3 and of the management cluster (R319). -/
  l2 : Vector Tlb 5
  /-- The engines that the shootdown in progress waits for, with the place of their next access at its start (R333). -/
  sd : List (Nat × Nat)
  /-- The transaction outstanding on the husk interface, and the engine served last (R256). -/
  husk : Option HuskTx
  huskLast : Nat
  /-- The boundary inputs HSK_INT (R266). -/
  hskInt : BitVec 14
  /-- SENDs and RINGs on their way, oldest first (R246). -/
  parcels : List Parcel
  /-- The halt groups that act in the next cycle (R455). -/
  hgDue : List (Fin 4)
  trace : TraceSt
  /-- The ALIVE interval of the twin heartbeats runs (R178). -/
  alive : Bool
  /-- The twin capture buffer: writes into mirrored regions that have not been sent yet, oldest first (R176). -/
  capture : List (Nat × List Byte)
  tester : TesterSt
  rings : Vector RingSt 4
  twin : TwinSt
  chans : Vector ChanSt 4
  /-- The accumulators of the management firmware, by UNIT × 65,536 + INDEX × 256 + place (R355, R356). -/
  accum : List (Nat × Nat)
  /-- The time-protocol firmware that runs (R357): domain × 8 + port ↦ PROFILE; unlisted 0, none. -/
  ptp : List (Nat × Nat)
  /-- A reset ordered by RESET: channel, KIND and TARGET; its reply has been posted; the command's TAG (R354). -/
  resetDue : Option (Nat × Nat × Nat × Bool × BitVec 16)
  dma : Vector DmaSt 4
  /-- The DMA channel whose transfer holds or awaits the permit (R364). -/
  dmaPermit : Option Nat
  /-- The channel of the last chunk moved (R364). -/
  dmaLast : Fin 4
  /-- The RESULT that the firmware crypto job will end with, once it is known (R385). -/
  cry : Option Nat
  /-- ABORT has been written: the crypto job ends after the block of data in progress (R385). -/
  cryStop : Bool
  bits : Vector BitSt 8
  boot : BootSt
  power : PowerSt
  tap : TapSt
  credits : CreditSt
  /-- Commands of the master port, and answers of the slave port, that wait for credits (R413). -/
  mlQueue : List Out
  /-- The jobs whose reads of external memory still wait, or waited last, to leave on the master port: 0 to 7 the control-store
  loaders, 8 and 9 the cryptography unit, 10 IMGWRITE, 11 the ROM loader (R413). -/
  bulk : List Nat
  slQueue : List Out
  /-- The command buffer of the slave port, oldest first (R415). -/
  slCmds : List SlCmd
  permit : PermitSt
  /-- The domains whose time stopped for a sleep and has not been made up (R119, R120). -/
  stopped : List Nat
  /-- The slave port's last answer (R416). -/
  ans : Answer
  /-- The number of free values taken so far (the model's own, log entry 2). -/
  free : Nat
  /-- What has left the block, newest first (the model's own). -/
  out : List Out
  /-- The commands that wait, first in, first out. -/
  pending : List Instr
  deriving DecidableEq, Repr

/-- A wire sequencer after a block or cluster reset (R32). -/
def Seq.reset : Seq :=
  { sq := Vector.replicate 4 0, carry := false, cmp := Vector.replicate 4 ⟨0, 0, 0, false⟩, f0 := false, f1 := false,
    stk := [], upc := 0, wpc := 0, wop := 0, opc := 0, fresh := false, past := false, lastQ := 0, tmr0 := false,
    tmr1 := false, outnew := false, step := 0, part := 0, role := 0 }

/-- No gate list is in force. -/
def GateSt.reset : GateSt :=
  { cycle := 0, ext := 0, len := 0, dom := 0, valid := false, pend := none, idx := 0, since := 0, gates := 0xFF,
    hold := false }

/-- A port after a block or cluster reset. -/
def PortSt.reset : PortSt :=
  { seq := Seq.reset, tun := [], fctr := 0, ignore := false, late := none, thru := none,
    launched := Vector.replicate 4 ⟨0, 0, 0⟩, launchAge := 0, tx := none, txHeld := none, csld := none, csldAt := none,
    wpm := [], cs := [], csEcc := [], csFixed := [], ringWait := [], gcl := [], gate := GateSt.reset, committed := false, latchDue := false,
    inSeq := 0, outSeq := 0, pubSince := false }

/-- A port after a cluster reset: the counts of commits and publications go on, since they count from the block reset (R69). -/
def PortSt.cleared (x : PortSt) : PortSt := { PortSt.reset with inSeq := x.inSeq, outSeq := x.outSeq }

/-- A cluster's timer unit, window lines and tables after a block or cluster reset. -/
def ClusterSt.reset : ClusterSt :=
  { cnt := 0, cmp := Vector.replicate 8 0, held := Vector.replicate 8 0, win := Vector.replicate 4 none,
    seen := Vector.replicate 4 [], rise := Vector.replicate 4 (Vector.replicate 4 (-1)), streams := [], dups := [],
    restore := none }

/-- A time domain after a block reset (R91). -/
def TimeDom.reset : TimeDom := { hi := 0, lo := 0, ext := 0, adj := 0, held := 0, since := 0, past := [] }

/-- A PPS output after a block reset. -/
def PpsSt.reset : PpsSt := { active := false, age := 0, pulsed := [] }

/-- No calibration is under way, and every count starts (R102). -/
def CalSt.reset : CalSt := { next := none, counts := Vector.replicate 9 0 }

/-- An empty TLB. -/
def Tlb.empty : Tlb := ⟨[], 0⟩

/-- The exception and status unit after an engine reset (R282-R284). -/
def ExcSt.reset : ExcSt :=
  { sr := ⟨7, false, false, false, false, false⟩, ssr := 0, vbar := 0, epc := 0, enpc := 0, aepc := 0, cause := 0,
    faddr := 0, sp := 0, dsp := 0, sh := Vector.replicate 4 0, ien := 0, ilvl := 0x249249249249, flvl := 0x1FFFFFFFF,
    dz := false, ov := false, swi := 0, wdper := 0, wdOnce := false, wdWarn := false, holds := [], cyc := 0,
    reports := [] }

/-- Selectors, doorbell, queue and CRC unit after an engine reset (R245; log entry 4 for the selectors). -/
def MsgSt.reset : MsgSt :=
  { semIdx := 0, edbTgt := 0, msgTgt := 0, hdbCh := 0, sqSel := 0, tmCsel := 0, edb := 0, queue := [], sendFail := false,
    ringFail := false, crcCfg := 0, crcState := 0, crcXor := 0 }

/-- An engine after an engine reset (R391). -/
def EngSt.reset : EngSt :=
  { g := Vector.replicate 64 0, alu := Vector.replicate 2 ⟨0, 0, false⟩, mul := ⟨0, 0, 0, []⟩, div := ⟨0, 0, 0, none⟩,
    sh := ⟨0, 0, 0⟩, ag := Vector.replicate 4 ⟨0, 0, 0, 0, 0, 0, 0, false, none⟩, flow := ⟨0, none, 0, 0, 0, 0, 0⟩,
    exc := ExcSt.reset, msg := MsgSt.reset, xl := ⟨Tlb.empty, Tlb.empty, 0, 0, [], [], none, none, none, none, none⟩, posted := [],
    seqn := 0, resv := none, husk := none, ext := [], undo := none, retry := none, boot := false, haltReq := none, haltBy := [], moves := [],
    stepping := false, stalled := false, held := none, fresh := false }

/-- A ring after a block reset. -/
def RingSt.reset : RingSt :=
  { cycle := 0, da := 0x030000000001, sums := 2, carry := 0x70000, echoBuf := 0x6FF80, routes := [], passed := none, seg := 0, half := 0,
    built := false, launch := 0, prior := 0, version := 0, slots := [], change := none, next := false, sent := false,
    staged := none, scout := [], layoutAge := 0, echoSeq := 0, exchanges := [], echoTx := none, replyTx := none, echoes := [],
    reply := List.replicate 12 0, within := 0 }

/-- The twin controller after a block reset. -/
def TwinSt.reset : TwinSt :=
  { sent := 0, expect := none, batch := [], part := none, ordered := false, handover := none, pushing := false, page := 0,
    marked := [], peerHold := false, began := none, cuts := 0, agreed := false, spent := false, quiet := 0, missed := 0 }

/-- A mailbox channel after a block reset. -/
def ChanSt.reset : ChanSt := { cmds := [], due := [], lost := 0, mask := 0, crossed := false, crossUs := none }

/-- A DMA channel after a block reset. -/
def DmaSt.reset : DmaSt :=
  { fetch := false, src := 0, dst := 0, left := 0, notify := false, last := false, next := 0, heavy := false, abort := false, phase := 0 }

/-- A bit line after a block or cluster reset. -/
def BitSt.reset : BitSt :=
  { tx := [], rx := [], start := none, shift := [], last := true, run := 0, gone := [], age := 0, level := true, pos := 0,
    sampled := false, quiet := 0 }

/-- No mode change is under way. -/
def PowerSt.reset : PowerSt := { wait := none, parked := [], idled := [], pch := none, ack := false, wakes := [], asked := none, timer := false, depth := [] }

/-- The block right after reset: every field at the manual's reset value, or at the value that a log entry names
(log entries 3 and 4). -/
def State.reset : State :=
  { cells := [], mem := [], ecc := [], ports := Vector.replicate 8 PortSt.reset, clusters := Vector.replicate 4 ClusterSt.reset,
    time := Vector.replicate 4 TimeDom.reset, pps := Vector.replicate 4 PpsSt.reset, calib := CalSt.reset, pinActs := [], pinSets := [],
    eng := Vector.replicate 14 { EngSt.reset with boot := true }, l2 := Vector.replicate 5 Tlb.empty, sd := [], husk := none, huskLast := 13,
    hskInt := 0, parcels := [], hgDue := [], trace := ⟨[], [], 0, 0, 0, 0⟩, capture := [], alive := false,
    tester := ⟨none, 0, false, false, none, none, 13, false, none⟩,
    rings := Vector.replicate 4 RingSt.reset, twin := TwinSt.reset, chans := Vector.replicate 4 ChanSt.reset, accum := [], ptp := [],
    resetDue := none, dma := Vector.replicate 4 DmaSt.reset, dmaPermit := none, dmaLast := 3, cry := none, cryStop := false,
    bits := Vector.replicate 8 BitSt.reset, boot := ⟨true, 1, none, [], false, false, 0, FlashRead.plain, false, none⟩, power := PowerSt.reset, 
    tap := ⟨false, false, .testLogicReset, 1, [], false, 0, 0, none, []⟩,
    credits := ⟨0, 0, 0, 0, 0, 0, 0, 0⟩, mlQueue := [], bulk := [], slQueue := [], slCmds := [], permit := ⟨[], [], []⟩, stopped := [], ans := ⟨0, 0⟩,
    free := 0, out := [],
    pending := [] }

end Sys2Proof.Machine
end

