-- ==== Sys2Proof/Machine/Ops.lean ====
section
/-! DEFINITION. The named operations over the state: register fields, memory bytes, ports, free values, outputs. -/

namespace Sys2Proof.Machine

/-- The outcome of a command. -/
abbrev Res := Host.Outcome State Fault Refusal

/-! ### Register fields (R5, R6) -/

/-- The key of a field in the cells. -/
def Fld.key (f : Fld) : Nat := f.addr * 8 + f.lo

/-- The value of a register field. -/
def State.get (s : State) (f : Fld) : Nat := (lookup (Fld.key f) s.cells).getD f.rst

/-- A register field takes a value, cut to its width. -/
def State.put (s : State) (f : Fld) (v : Nat) : State :=
  { s with cells := putAt f.rst (Fld.key f) (v % 2 ^ f.w) s.cells }

/-- A one-bit field, or any bit of a field, is set. -/
def State.on (s : State) (f : Fld) : Bool := s.get f != 0

/-- Set a one-bit field. -/
def State.raise (s : State) (f : Fld) : State := s.put f 1

/-- Clear a field. -/
def State.lower (s : State) (f : Fld) : State := s.put f 0

/-- Bit `i` of a field is set. -/
def State.bit (s : State) (f : Fld) (i : Nat) : Bool := (s.get f).testBit i

/-- Set bit `i` of a field. -/
def State.raiseBit (s : State) (f : Fld) (i : Nat) : State := s.put f (s.get f ||| 2 ^ i)

/-- Clear bit `i` of a field. -/
def State.lowerBit (s : State) (f : Fld) (i : Nat) : State :=
  if s.bit f i then s.put f (s.get f - 2 ^ i) else s

/-- Bit `i` of a field becomes `b`. -/
def State.putBit (s : State) (f : Fld) (i : Nat) (b : Bool) : State := if b then s.raiseBit f i else s.lowerBit f i

/-- A saturating counter counts `n` events (R59, R89). -/
def State.count (s : State) (f : Fld) (n : Nat := 1) : State := s.put f (min (s.get f + n) (2 ^ f.w - 1))

/-- A 48-bit value held in two register fields, low 32 bits and high 16 bits. -/
def State.get48 (s : State) (lo hi : Fld) : Word := BitVec.ofNat 48 (s.get lo + 2 ^ 32 * s.get hi)

/-- Write a 48-bit value into two register fields. -/
def State.put48 (s : State) (lo hi : Fld) (v : Word) : State :=
  (s.put lo (v.toNat % 2 ^ 32)).put hi (v.toNat / 2 ^ 32)

/-- The cells of an address window return to their reset values. -/
def State.clearCells (s : State) (a b : Nat) : State :=
  { s with cells := s.cells.filter (fun e => decide (¬(a * 8 ≤ e.1 ∧ e.1 < b * 8))) }

/-! ### Power domains (R394) -/

/-- The mode code of a power domain: 0 MGMT, 1-4 CL0-CL3 (R394). -/
def State.mode (s : State) (d : Nat) : Nat :=
  match d with
  | 0 => s.get Reg.PWR.STAT.MGMT
  | 1 => s.get Reg.PWR.STAT.CL0
  | 2 => s.get Reg.PWR.STAT.CL1
  | 3 => s.get Reg.PWR.STAT.CL2
  | _ => s.get Reg.PWR.STAT.CL3

/-- The domain is in RUN or IDLE. -/
def State.up (s : State) (d : Nat) : Bool := decide (s.mode d ≤ 1)

/-! ### Free values and outputs -/

/-- A value of `w` bits that the manual leaves open (log entry 2). -/
def State.freeVal (s : State) (w : Nat) : BitVec w := Config.freeValue w s.free

/-- The free value has been taken. -/
def State.took (s : State) : State := { s with free := s.free + 1 }

/-- The first physical address of block space (R318). -/
def blockSpace : Nat := 0xFF00000000

/-- The address lies in external memory (R318). -/
def isExternal (pa : Nat) : Bool := decide (pa < blockSpace)

/-- The reads of external memory by an engine that have no answer yet: loads, reads of its exception hardware, its walk's (R417). -/
def EngSt.readsOpen (x : EngSt) : Nat :=
  x.ag.toList.countP (fun g => match g.flight with | some a => isExternal a.pa && a.kind != 2 | none => false) +
    x.ext.countP (fun r => r.answer.isNone) +
    (match x.xl.walk with
     | some w => (match w.at' with | some (_, a) => (isExternal a).toNat | none => 0)
     | none => 0)

/-- The writes to external memory by an engine that have no answer yet: posted stores, and the pushes of an entry (R417). -/
def EngSt.writesOpen (x : EngSt) : Nat := x.posted.countP (fun a => isExternal a.pa) + x.undo.elim 0 (fun u => u.left)

/-- A command of the master port that an engine's hardware waits for, one by one; the answers of a bulk transfer come as its commands
leave. -/
def Out.single (wr : Bool) : Out → Bool
  | .master t _ w _ n _ _ => w == wr && decide (t % 32 < 14) && decide (n ≤ 16)
  | _ => false

/-- How many more reads, or writes, may leave on the master port: at most 32 reads and 16 writes have no answer (R417). -/
def State.masterRoom (s : State) (wr : Bool) : Nat :=
  let opened := (s.eng.toList.map (fun x => if wr then x.writesOpen else x.readsOpen)).sum
  (if wr then 16 else 32) - (opened - s.mlQueue.countP (Out.single wr))

/-- Waiting transfers of the master port leave, each lane in order, while the credits of the lane suffice and the limits of R417 leave
room: what has left, what waits, and the credits of the command and the write-data lane that this took (R413). A command that must wait
holds the commands behind it. -/
def masterDrain : List Out → (cmd wd reads writes : Nat) → List Out × List Out × Nat × Nat
  | [], _, _, _, _ => ([], [], 0, 0)
  | .mlBeat i :: t, c, w, r, k =>
    if w = 0 then
      let q := masterDrain t c 0 r k
      (q.1, .mlBeat i :: q.2.1, q.2.2)
    else
      let q := masterDrain t c (w - 1) r k
      (.mlBeat i :: q.1, q.2.1, q.2.2.1, q.2.2.2 + 1)
  | o :: t, c, w, r, k =>
    let wr := match o with | .master _ _ x _ _ _ _ => x | _ => false
    if c = 0 ∨ (if wr then k else r) = 0 then
      let q := masterDrain t 0 w r k
      (q.1, o :: q.2.1, q.2.2)
    else
      let q := masterDrain t (c - 1) w (r - (o.single false).toNat) (k - (o.single true).toNat)
      (o :: q.1, q.2.1, q.2.2.1 + 1, q.2.2.2)

/-- The credits that a transfer of the slave port takes: read-return lane, write-completion lane (R413). -/
def slaveCost : Out → Nat × Nat
  | .slWrite _ _ => (0, 1)
  | _ => (1, 0)

/-- Waiting transfers of the slave port leave, each lane in order, while the credits of their lanes suffice: what has left, what waits,
and the credits that remain (R413). -/
def drain : List Out → Nat → Nat → List Out × List Out × Nat × Nat
  | [], a, b => ([], [], a, b)
  | o :: t, a, b =>
    if (slaveCost o).1 ≤ a ∧ (slaveCost o).2 ≤ b then
      let r := drain t (a - (slaveCost o).1) (b - (slaveCost o).2)
      (o :: r.1, r.2)
    else
      let r := drain t a b
      (r.1, o :: r.2.1, r.2.2)

/-- The system ports send what their credits allow (R413); the master port sends nothing while MGMT is not in RUN or IDLE
(R439). -/
def State.sendPorts (s : State) : State :=
  let k := s.credits
  let m := if s.up 0 then masterDrain s.mlQueue k.cmd k.wd (s.masterRoom false) (s.masterRoom true) else ([], s.mlQueue, 0, 0)
  let l := drain s.slQueue k.rd k.wc
  { s with out := l.1.reverse ++ m.1.reverse ++ s.out, mlQueue := m.2.1, slQueue := l.2.1,
           credits := { k with rd := l.2.2.1, wc := l.2.2.2, cmd := k.cmd - m.2.2.1, wd := k.wd - m.2.2.2 } }

/-- Commands of a requester, by its tag, still wait on the master port; of writes also any write beat (R413). No answer can have come to
them. -/
def State.unsent (s : State) (tag : Nat) (wr : Bool) : Bool :=
  s.mlQueue.any (fun o => match o with
    | .master t _ w _ _ _ _ => t == tag && w == wr
    | .mlBeat _ => wr
    | _ => false)

/-- The write beats of a command, one for each 16-byte row (R414). -/
def writeBeats (a n : Nat) : List Out := (List.range ((a % 16 + n + 15) / 16)).map (fun i => .mlBeat (a / 16 + i))

/-- Something leaves the block: on the system ports, once the lane's credits allow it. -/
def State.emit (s : State) (o : Out) : State :=
  match o with
  | .master _ _ w a n _ _ => State.sendPorts { s with mlQueue := s.mlQueue ++ o :: (if w then writeBeats a n else []) }
  | .slRead .. => State.sendPorts { s with slQueue := s.slQueue ++ [o] }
  | .slWrite .. => State.sendPorts { s with slQueue := s.slQueue ++ [o] }
  | _ => { s with out := o :: s.out }

/-! ### Bytes (R3, R4) -/

/-- The `n` low bytes of a number, lowest first (R3). -/
def bytesLE : Nat → Nat → List Byte
  | 0, _ => []
  | n + 1, v => BitVec.ofNat 8 v :: bytesLE n (v / 256)

/-- The `n` low bytes of a number, highest first: frame order (R4). -/
def bytesBE (n v : Nat) : List Byte := (bytesLE n v).reverse

/-- The number whose bytes are given lowest first. -/
def natLE : List Byte → Nat
  | [] => 0
  | b :: t => b.toNat + 256 * natLE t

/-- The number whose bytes are given highest first. -/
def natBE (l : List Byte) : Nat := natLE l.reverse

/-- A signed number of `w` bits. -/
def toSigned (w v : Nat) : Int := if v % 2 ^ w < 2 ^ (w - 1) then (v % 2 ^ w : Nat) else (v % 2 ^ w : Nat) - (2 ^ w : Nat)

/-! ### On-block memory -/

/-- The byte at a block-relative address; an unlisted byte reads 0 (log entry 3). -/
def memByte (m : List Host.Cell) (a : Nat) : Byte := (lookup a m).getD 0

/-- Write one byte. -/
def memSet (m : List Host.Cell) (a : Nat) (v : Byte) : List Host.Cell := putAt 0 a v m

/-- The entries of a run of bytes. -/
def runCells (a : Nat) : List Byte → List Host.Cell
  | [] => []
  | b :: t => if b = 0 then runCells (a + 1) t else (a, b) :: runCells (a + 1) t

/-- Write a run of bytes. -/
def memSetAll (m : List Host.Cell) (a : Nat) (bs : List Byte) : List Host.Cell :=
  m.filter (fun e => decide (e.1 < a)) ++ (runCells a bs ++ m.filter (fun e => decide (a + bs.length ≤ e.1)))

/-- The memory is in its canonical form. -/
abbrev Memory.wf (m : List Host.Cell) : Prop := canonical (0 : Byte) m = true

/-- The byte at a block-relative address. -/
def State.byte (s : State) (a : Nat) : Byte := memByte s.mem a

/-- `n` bytes from a block-relative address. -/
def State.bytes (s : State) (a : Nat) : Nat → List Byte
  | 0 => []
  | n + 1 => s.byte a :: State.bytes s (a + 1) n

/-- The number that `n` bytes from an address hold (R3). -/
def State.load (s : State) (a n : Nat) : Nat := natLE (s.bytes a n)

/-! ### Ports and clusters -/

def State.port (s : State) (p : Port) : PortSt := s.ports[p]

def State.setPort (s : State) (p : Port) (x : PortSt) : State := { s with ports := s.ports.set p x }

def State.modPort (s : State) (p : Port) (g : PortSt → PortSt) : State := s.setPort p (g (s.port p))

def State.clu (s : State) (n : Clu) : ClusterSt := s.clusters[n]

def State.setClu (s : State) (n : Clu) (x : ClusterSt) : State := { s with clusters := s.clusters.set n x }

def State.modClu (s : State) (n : Clu) (g : ClusterSt → ClusterSt) : State := s.setClu n (g (s.clu n))

/-- The cluster of a port (R13). -/
def cluOf (p : Port) : Clu := ⟨p.val / 2, by omega⟩

/-- The other port of the cluster (R15). -/
def partner (p : Port) : Port := ⟨if p.val % 2 = 0 then p.val + 1 else p.val - 1, by split <;> omega⟩

/-- The port of an index. -/
def portOf (n : Nat) : Port := Fin.ofNat 8 n

/-- The block-relative address of an offset in a cluster memory; offsets wrap within 512 KiB (R19, R70, R467). -/
def cluAddr (n : Clu) (off : Nat) : Nat := 0x400000 + 0x80000 * n.val + off % 0x80000

/-- A list with entry `i` replaced through a function. -/
def modAt {α : Type} (l : List α) (i : Nat) (g : α → α) : List α := l.modify i g

end Sys2Proof.Machine
end

