-- ==== Sys2Proof/Machine/Mem.lean ====
section
/-! DEFINITION. A write to on-block memory by any master, with everything that follows from it. -/

namespace Sys2Proof.Machine

/-! ### Where an address lies (R467) and whether its memory answers (R289, R303) -/

/-- The cluster's domain is in RUN or IDLE. -/
def State.cluUp (s : State) (n : Clu) : Bool := s.up (n.val + 1)

/-- The power domain of an engine (R9, R11). -/
def engDom (e : Nat) : Nat := if e < 2 then 0 else (e - 2) / 3 + 1

/-- The address lies in a cluster memory. -/
def inClu (a : Nat) : Bool := decide (0x400000 ≤ a ∧ a < 0x600000)

/-- The address lies in a scratchpad. -/
def inSp (a : Nat) : Bool := decide (0x600000 ≤ a ∧ a < 0x7C0000)

/-- The address lies in a control store. -/
def inCs (a : Nat) : Bool := decide (0xA00000 ≤ a ∧ a < 0xA80000)

/-- The address lies in the granary. -/
def inGran (a : Nat) : Bool := decide (0x1000000 ≤ a ∧ a < 0x1800000)

/-- The power domain that the memory at an address lies in. -/
def memDom (a : Nat) : Nat :=
  if inClu a then (a - 0x400000) / 0x80000 + 1
  else if inSp a then engDom ((a - 0x600000) / 0x20000)
  else if inCs a then (a - 0xA00000) / 0x20000 + 1
  else 0

/-- The physical bank of a granary address; 0x1F: unmapped (R303). -/
def State.bankOf (s : State) (a : Nat) : Nat := s.get (Reg.MEMT.MAP.PB ((a - 0x1000000) / 0x80000)) % 32

/-- The address lies in an unmapped granary bank (R303). -/
def State.unmapped (s : State) (a : Nat) : Bool := inGran a && s.bankOf a == 0x1F

/-- Some codeword that `n` bytes from an address touch holds a double-bit error (R298, R299). -/
def State.memBad (s : State) (a n : Nat) : Bool :=
  s.ecc.any (fun e => e.2 && decide (a / 8 ≤ e.1) && decide (e.1 * 8 < a + n))

/-- A write of `n` bytes from an address covers only part of a codeword that holds a double-bit error (R298, R299). -/
def State.mergeBad (s : State) (a n : Nat) : Bool :=
  s.ecc.any (fun e => e.2 && decide (a / 8 ≤ e.1) && decide (e.1 * 8 < a + n) &&
    !(decide (a ≤ e.1 * 8) && decide (e.1 * 8 + 8 ≤ a + n)))

/-- An uncorrectable error in the row of an address is recorded (R298). -/
def noteUe (a : Nat) (s : State) : State := (s.raise Reg.MEM.EVT.UE).put Reg.MEM.UEADDR.ROW (a / 16)

/-- The first codeword with a double-bit error that `n` bytes from an address touch is recorded (R298). -/
def noteBad (a n : Nat) (s : State) : State :=
  match s.ecc.find? (fun e => e.2 && decide (a / 8 ≤ e.1) && decide (e.1 * 8 < a + n)) with
  | some e => noteUe (8 * e.1) s
  | none => s

/-- The counter of corrected errors of an address (R314). -/
def ceCounter (s : State) (a : Nat) : Fld :=
  if inClu a then Reg.MEM.CE.CNT 17 else if inSp a then Reg.MEM.CE.CNT 18 else Reg.MEM.CE.CNT (s.bankOf a)

/-- A corrected error in codeword `k` is counted and recorded (R298). -/
def countCe (k : Nat) (s : State) : State := (s.count (ceCounter s (8 * k))).put Reg.MEM.CEADDR.ROW (k / 2)

/-- Corrected errors in the codewords that an access reads are counted and recorded (R298). -/
def noteCe (a n : Nat) (s : State) : State :=
  (s.ecc.filter (fun e => !e.2 && decide (a / 8 ≤ e.1) && decide (e.1 * 8 < a + n))).foldl (fun t e => countCe e.1 t) s

/-- What a read of `n` bytes by the block's own hardware leaves: its errors recorded (R298). -/
def noteRead (a n : Nat) (s : State) : State := noteBad a n (noteCe a n s)

/-- A read of `n` bytes of a cluster memory or the granary gets no error response (R289, R299, R303). -/
def State.readable (s : State) (a n : Nat) : Bool :=
  (inClu a || inGran a) && (inClu (a + n - 1) || inGran (a + n - 1)) && s.up (memDom a) && s.up (memDom (a + n - 1)) &&
    !(s.unmapped a) && !(s.unmapped (a + n - 1)) && !(s.memBad a n)

/-! ### The areas of a port in its cluster memory (R69-R71, R167, R187) -/

/-- The stride of an image (R69). -/
def stride (size : Nat) : Nat := (16 + size + 63) / 64 * 64

/-- The address of buffer `i` of the input image. -/
def inBuf (s : State) (p : Port) (i : Nat) : Nat :=
  cluAddr (cluOf p) (64 * s.get (Reg.PI.INBASE.BASE p) + i * stride (s.get (Reg.PI.INSIZE.SIZE p)))

/-- The address of buffer `i` of the output image. -/
def outBuf (s : State) (p : Port) (i : Nat) : Nat :=
  cluAddr (cluOf p) (64 * s.get (Reg.PI.OUTBASE.BASE p) + i * stride (s.get (Reg.PI.OUTSIZE.SIZE p)))

/-- An address in a port's private area. -/
def privAddr (s : State) (p : Port) (o : Nat) : Nat := cluAddr (cluOf p) (16 * s.get (Reg.PX.PRIVBASE.BASE p) + o)

/-- The ring of a cluster is twinned (R167). -/
def twinned (s : State) (n : Nat) : Bool := s.bit Reg.TWN.CTRL.RINGS n

/-- `n` bytes of memory lie in the input image or the private area of a twinned port, which a standby builds from the wire (R187). -/
def leftOut (s : State) (a n : Nat) : Bool :=
  (List.finRange 8).any (fun p : Port =>
    let i := inBuf s p 0
    let q := privAddr s p 0
    twinned s (p.val / 2) && (decide (i ≤ a ∧ a + n ≤ i + 3 * stride (s.get (Reg.PI.INSIZE.SIZE p))) ||
      decide (q ≤ a ∧ a + n ≤ q + 16 * s.get (Reg.PX.PRIVSIZE.SIZE p))))

/-! ### Errors in a control store or a dispatch table (R49) -/

/-- A double-bit error marks a word of the control store or, from 16,384, of the dispatch table (R49). -/
def csBad (s : State) (p : Port) (k : Nat) : Bool := (lookup k (s.port p).csEcc) == some true

/-- A single-bit error marks a word of the control store or of the dispatch table (R49). -/
def csSoft (s : State) (p : Port) (k : Nat) : Bool := (lookup k (s.port p).csEcc) == some false

/-- A word with a single-bit error was read: it is corrected and counted, WSQ.CSCE records where, and the corrected word waits to be
written back (R49, R59). -/
def noteSoft (s : State) (p : Port) (k : Nat) : State :=
  if csSoft s p k then
    (((s.count (Reg.WSQ.CSCE.CNT p)).put (Reg.WSQ.CSCE.ADDR p) (k % 16384)).put (Reg.WSQ.CSCE.DISP p) (k / 16384)).modPort p (fun x =>
      { x with csFixed := if x.csFixed.contains k then x.csFixed else x.csFixed ++ [k] })
  else s

/-- What a read of `n` bytes of a control store through its window leaves: every word it touches that is corrected is counted, as
a fetch counts it (R46, R49). -/
def noteCs (a n : Nat) (s : State) : State :=
  if inCs a then
    let lo := (a - 0xA00000) % 0x10000
    (List.range ((lo + n + 3) / 4 - lo / 4)).foldl (fun t i => noteSoft t (portOf ((a - 0xA00000) / 0x10000)) (lo / 4 + i)) s
  else s

/-! ### Writes and what follows from them -/

/-- The bytes from `a` touch a row. -/
def inRows (a n r : Nat) : Bool := decide (a / 16 ≤ r ∧ r ≤ (a + n - 1) / 16)

/-- A write of some bytes reaches an engine's reservation, and that of an SC of it which is under way (R228, R229). -/
def EngSt.loseRows (x : EngSt) (a n : Nat) : EngSt :=
  { x with
    resv := x.resv.filter (fun r => !inRows a n r)
    ag := x.ag.map (fun g => { g with flight := g.flight.map (fun f =>
      { f with held := f.held && !inRows a n ((f.pa - 0xFF00000000) / 16) }) }) }

/-- Rows written: reservations on them are lost, but for those of the engine that writes (R228). -/
def State.loseRows (s : State) (a n : Nat) (by' : Option Nat) : State :=
  { s with eng := s.eng.mapFinIdx (fun i x _ => if by' == some i then x else x.loseRows a n) }

/-- The unit streams region writes: HOT, and ACTIVE (4), or PUSH (2) once its permit has been granted (R176, R187). -/
def State.mirrors (s : State) : Bool :=
  decide (s.get Reg.TWN.CTRL.LEVEL = 2) && (let x := s.get Reg.TWN.STAT.STATE; (x == 2 && s.twin.pushing) || x == 4)

/-- The part of a write that lies in a mirrored region. -/
def mirrorPart (s : State) (a : Nat) (bs : List Byte) (m : Nat) : Option (Nat × List Byte) :=
  let base := 64 * s.get (Reg.TWN.MIR.BASE.BASE m)
  let size := 64 * s.get (Reg.TWN.MIR.SIZE.SIZE m)
  let lo := max a base
  let hi := min (a + bs.length) (base + size)
  if lo < hi then some (lo, (bs.drop (lo - a)).take (hi - lo)) else none

/-- A write into mirrored regions enters the capture buffer (R176). -/
def State.captureWrite (s : State) (a : Nat) (bs : List Byte) : State :=
  if s.mirrors then { s with capture := s.capture ++ (List.range 8).filterMap (mirrorPart s a bs) } else s

/-- The place of a block-relative address in the twin image: granary, then cluster memories (R187). -/
def imageOff (a : Nat) : Option Nat :=
  if inGran a then some (a - 0x1000000) else if inClu a then some (a - 0x400000 + 0x800000) else none

/-- The part of a write that falls in a page of 4 KiB is left out of the image (R187). -/
def pageLeftOut (s : State) (a n k : Nat) : Bool :=
  let page := if k < 2048 then 0x1000000 + 4096 * k else 0x400000 + (4096 * k - 0x800000)
  leftOut s (max a page) (min (a + n) (page + 4096) - max a page)

/-- Pages of 4 KiB that are written after they have been sent are marked, but for what the image leaves out (R187). -/
def State.markPages (s : State) (a n : Nat) : State :=
  if s.twin.pushing then
    match imageOff a, imageOff (a + n - 1) with
    | some lo, some hi =>
      let hit := (List.range (hi / 4096 + 1 - lo / 4096)).map (fun i => lo / 4096 + i)
      let new := hit.filter (fun k => decide (k < 2 * s.twin.page) && !s.twin.marked.contains k && !pageLeftOut s a n k)
      { s with twin := { s.twin with marked := s.twin.marked ++ new } }
    | _, _ => s
  else s

/-- A write of `n` bytes at an address leaves a codeword without an error: it touches the codeword, and covers it where the
error is a double-bit one, which a merge leaves as stored (R298). -/
def cleansed (a n : Nat) (e : Nat × Bool) : Bool :=
  decide (a / 8 ≤ e.1) && decide (e.1 * 8 < a + n) && (!e.2 || decide (a ≤ e.1 * 8) && decide (e.1 * 8 + 8 ≤ a + n))

/-- A write of `n` bytes touches a codeword and covers only part of it: what is stored merges (R298). -/
def mergesInto (a n : Nat) (e : Nat × Bool) : Bool :=
  decide (a / 8 ≤ e.1) && decide (e.1 * 8 < a + n) && !(decide (a ≤ e.1 * 8) && decide (e.1 * 8 + 8 ≤ a + n))

/-- Write bytes to on-block memory, for the engine `by'` or another master. A single-bit error that the write merges with is
corrected and counted; the codewords written carry no error afterwards, but for one with a double-bit error that is written in
part: it stays bad, and what it holds can not be read (R298). -/
def State.storeBy (s : State) (by' : Option Nat) (a : Nat) (bs : List Byte) : State :=
  let s := (s.ecc.filter (fun e => !e.2 && mergesInto a bs.length e)).foldl (fun t e => countCe e.1 t) s
  let s := ((s.loseRows a bs.length by').captureWrite a bs).markPages a bs.length
  { s with mem := memSetAll s.mem a bs
           ecc := s.ecc.filter (fun e => !cleansed a bs.length e) }

/-- A write by a master that is no engine. -/
def State.store (s : State) (a : Nat) (bs : List Byte) : State := s.storeBy none a bs

/-- Write the `n` low bytes of a number, lowest first (R3). -/
def State.storeN (s : State) (a n v : Nat) : State := s.store a (bytesLE n v)

/-! ### Accesses by the block's own hardware (R176, R177, R187, R289, R298, R299, R303) -/

/-- The memory at an address answers: its domain is in RUN or IDLE, and its bank is mapped. -/
def State.answers (s : State) (a : Nat) : Bool := (inClu a || inGran a) && s.up (memDom a) && !s.unmapped a

/-- Bytes that the twin controller reads within one memory bank, and what the read leaves. An unmapped bank reads 0; an error
response brings no data, and the manual does not say what the controller sends for it: a free value (log entry 70). -/
def twinRead (a n : Nat) (s : State) : List Byte × State :=
  if s.unmapped a then (List.replicate n 0, s)
  else if s.answers a && !s.memBad a n then (s.bytes a n, noteCe a n s)
  else (bytesLE n (s.freeVal (8 * n)).toNat, (noteRead a n s).took)

/-- A write by the block's own hardware within one memory bank: nothing is written where the memory does not answer, and a
codeword with a double-bit error that the write would only merge into stays as stored, with the error recorded. -/
def hwStore (a : Nat) (bs : List Byte) (s : State) : State :=
  if s.answers a then
    let t := s.store a bs
    if t.memBad a bs.length then noteBad a bs.length t else t
  else s

/-- A number written by the block's own hardware, lowest byte first (R3). -/
def hwStoreN (a n v : Nat) (s : State) : State := hwStore a (bytesLE n v) s

/-- What a read by the block's own hardware leaves: nothing where the memory does not answer. -/
def hwNote (a n : Nat) (s : State) : State := if s.answers a then noteRead a n s else s

/-- A number that the block's own hardware reads within one memory bank, if no error response comes. -/
def hwLoad (s : State) (a n : Nat) : Option Nat := if s.answers a && !s.memBad a n then some (s.load a n) else none

/-- A write by the twin controller of any length: banks and cluster memories are 512 KiB each. -/
def twinWrite (a : Nat) (bs : List Byte) (s : State) : State :=
  let room := 0x80000 - a % 0x80000
  let s := hwStore a (bs.take room) s
  if bs.length ≤ room then s else hwStore (a + room) (bs.drop room) s

end Sys2Proof.Machine
end

