-- ==== Sys2Proof/Machine/TimeOps.lean ====
section
/-! DEFINITION. TIME and its arithmetic (R91-R94, R99, R100), the windows of a line (R106-R109). -/

namespace Sys2Proof.Machine

/-- One second in units of 2^-50 ns, the resolution of TIME with its hidden extension (R91, R92). -/
def secUnits : Nat := 1000000000 * 2 ^ 50

/-- The increment of one ENG_CLK cycle in units of 2^-50 ns: 327,680 × 2^32 × (1 + ADJ × 2^-48) (R92). -/
def TimeDom.inc (t : TimeDom) : Int := 5 * 2 ^ 48 + 5 * toSigned 48 t.adj.toNat

/-- TIME as one number of units of 2^-50 ns. -/
def TimeDom.total (t : TimeDom) : Nat := t.hi.toNat * secUnits + t.lo.toNat * 2 ^ 32 + t.ext.toNat

/-- TIME from a number of units of 2^-50 ns; the seconds wrap at 2^48 (R91). -/
def TimeDom.ofTotal (t : TimeDom) (n : Int) : TimeDom :=
  let m : Nat := (n % ((2 ^ 48 * secUnits : Nat) : Int)).toNat
  { t with hi := BitVec.ofNat 48 (m / secUnits), lo := BitVec.ofNat 48 (m % secUnits / 2 ^ 32),
           ext := BitVec.ofNat 32 (m % 2 ^ 32) }

/-- TIME moves by a number of units of 2^-50 ns. -/
def TimeDom.move (t : TimeDom) (d : Int) : TimeDom := t.ofTotal ((t.total : Int) + d)

/-- TIME after `k` ENG_CLK cycles (R92). -/
def TimeDom.cycles (t : TimeDom) (k : Nat) : TimeDom := { t.move (t.inc * k) with since := t.since + k }

/-! ### The past of a domain (R94, R99, R100) -/

/-- The stretches that reach into the last `n` cycles. No edge that a stamp is asked for lies further back: the longest wait
is that for the 16 bytes of a grain at 10 Mb/s, some 10,300 cycles (R25). -/
def recentPieces : Nat → List TimePiece → List TimePiece
  | _, [] => []
  | n, x :: t => if n = 0 then [] else x :: recentPieces (n - x.len) t

/-- The domain changes its time or its rate in this cycle: `t` is the domain after the change. -/
def TimeDom.change (old t : TimeDom) : TimeDom :=
  { t with since := 0
           past := if old.since = 0 then old.past else recentPieces 16384 (⟨old.since, old.total, old.adj⟩ :: old.past) }

/-- TIME and the rate `age` cycles before the end of a list of stretches; before the oldest of them its rate is taken to have
held. -/
def TimeDom.inPast (t : TimeDom) : Nat → List TimePiece → TimeDom
  | age, [] => t.move (-(t.inc * age))
  | age, x :: l =>
    let u := { t.ofTotal (x.stop : Int) with adj := x.adj }
    if age ≤ x.len then u.move (-(u.inc * age)) else u.inPast (age - x.len) l

/-- TIME and the rate as they stood `age` cycles ago. -/
def TimeDom.ago (t : TimeDom) (age : Nat) : TimeDom :=
  if age ≤ t.since then t.move (-(t.inc * age)) else t.inPast (age - t.since) t.past

/-- The nanosecond field of TIME_LO (R91). -/
def TimeDom.ns (t : TimeDom) : Nat := t.lo.toNat / 2 ^ 18

/-- TIME in whole ns since the epoch of the domain. -/
def TimeDom.absNs (t : TimeDom) : Nat := t.hi.toNat * 1000000000 + t.ns

/-- A time domain by its index. -/
def State.dom (s : State) (d : Fin 4) : TimeDom := s.time[d]

def State.setDom (s : State) (d : Fin 4) (t : TimeDom) : State := { s with time := s.time.set d t }

/-- The stamp of an edge that fell `age` cycles before the current cycle, with interpolator tap `tap` (R99): the
domain's TIME at the preceding ENG_CLK edge plus the measured phase in the domain's rate; the phase counts only with
TU.CTRL.FINE set. TIME and the rate are those of the edge, whatever a SET, a STEP or a new rate has changed since (R94,
R100). The value is cut to units of 2^-18 ns (log entry 12). -/
def stampIn (s : State) (t : TimeDom) (age tap : Nat) : Stamp :=
  let u := t.ago age
  let r := u.move (if s.on Reg.TU.CTRL.FINE then u.inc * (tap % 16 : Nat) / 16 else 0)
  { hi := r.hi, lo := r.lo, adj := u.adj }

/-- A stamp within its second, in ps. -/
def Stamp.ps (x : Stamp) : Nat := x.lo.toNat * 1000 / 2 ^ 18

/-- The stamp of an edge in all four domains (R100). -/
def State.stamps (s : State) (age tap : Nat) : Vector Stamp 4 := s.time.map (fun t => stampIn s t age tap)

/-- The forwarding delay of R23 in a domain's rate, in units of 2^-18 ns, rounded to nearest (R100). -/
def delayUnits (ps : Nat) (adj : Word) : Int :=
  let n : Int := (ps : Int) * ((2 ^ 48 : Nat) + toSigned 48 adj.toNat)
  (n + 500 * 2 ^ 30) / (1000 * 2 ^ 30)

/-- A stamp plus a number of units of 2^-18 ns. -/
def Stamp.plus (x : Stamp) (d : Int) : Stamp :=
  let r := ({ TimeDom.reset with hi := x.hi, lo := x.lo }).move (d * 2 ^ 32)
  { x with hi := r.hi, lo := r.lo }

/-- The transmit point of a forwarded frame: the receive stamp plus the forwarding delay (R100). -/
def Stamp.txPoint (x : Stamp) (ps : Nat) : Stamp := x.plus (delayUnits ps x.adj)

/-- A start time in TIME_LO is due at a time in TIME_LO: it lies less than half a second back, or its nanosecond field is out of
range (R105). -/
def startDue (now t : Word) : Bool :=
  let sec := 1000000000 * 2 ^ 18
  decide (1000000000 ≤ t.toNat / 2 ^ 18) || decide ((now.toNat + sec - t.toNat % sec) % sec < sec / 2)

/-- The byte time of a port rate in ps (R60). -/
def byteTimePs (rate : Nat) : Nat :=
  match rate with
  | 0 => 800000
  | 1 => 80000
  | 2 => 8000
  | 3 => 3200
  | 4 => 1600
  | _ => 800

/-- The forwarding delay of R23 in ps, for a depth in grains and a rate. -/
def delayPs (depth rate : Nat) : Nat := 38750 + 16 * depth * byteTimePs rate

/-! ### Time-triggered windows (R106-R109) -/

/-- The used windows of a line's table: OPEN and LEN, LEN not 0. An unused one takes no part in the table's validity, wherever its OPEN
lies (R106; DESIGN CHOICE, log entry 76). -/
def windowList (s : State) (n l : Nat) : List (Nat × Nat) :=
  ((List.range 8).map (fun w => (s.get (Reg.TTW.W.OPEN.NS n l w), s.get (Reg.TTW.W.LEN.NS n l w)))).filter
    (fun w => w.2 != 0)

/-- No two windows overlap. -/
def disjointWins : List (Nat × Nat) → Bool
  | [] => true
  | w :: t => t.all (fun v => decide (w.1 + w.2 ≤ v.1 ∨ v.1 + v.2 ≤ w.1)) && disjointWins t

/-- The validity of a window table (R106). -/
def validWindows (period phase guard : Nat) (ws : List (Nat × Nat)) : Bool :=
  decide (1000 ≤ period) && decide (1000000000 % period = 0) && decide (phase < period) &&
    ws.all (fun w => decide (w.1 + w.2 ≤ period) && decide (2 * guard < w.2)) && disjointWins ws

/-- The table of line `l` of cluster `n` as it stands, if it is valid (R106). -/
def sampleWindows (s : State) (n l : Nat) : Option WinTab :=
  let period := s.get (Reg.TTW.PERIOD.NS n l)
  let phase := s.get (Reg.TTW.PHASE.NS n l)
  let guard := s.get (Reg.TTW.GUARD.NS n l)
  let ws := windowList s n l
  if validWindows period phase guard ws then
    some { dom := Fin.ofNat 4 (s.get (Reg.TTW.CTRL.DOM n l)), period := period, phase := phase, guard := guard,
           wins := ws }
  else none

/-- The domain, period and phase in ns that a line's period starts follow: those of its sampled table, or the registers while it
has none (R106). -/
def lineTiming (s : State) (n : Clu) (l : Fin 4) : Fin 4 × Nat × Nat :=
  match (s.clu n).win[l] with
  | some t => (t.dom, t.period, t.phase)
  | none => (Fin.ofNat 4 (s.get (Reg.TTW.CTRL.DOM n l)), s.get (Reg.TTW.PERIOD.NS n l), s.get (Reg.TTW.PHASE.NS n l))

/-- The last period start at or before a time, in ns since the domain's epoch (R106). -/
def periodStart (t : TimeDom) (period phase : Nat) : Int := (t.absNs : Int) - ((t.absNs : Int) - phase) % period

/-- The line has sampled its table at a period start, or passed over it, or the start lies before the rise of EN (R106). -/
def startSeen (s : State) (n : Clu) (l : Fin 4) (d : Fin 4) (start : Int) : Bool :=
  decide (start ≤ (s.clu n).rise[l][d]) || (s.clu n).seen[l].any (fun x => x.1 == d.val && decide (x.2.1 ≤ start ∧ start ≤ x.2.2))

/-- A period start joins those that the line has sampled. -/
def seeStart (d : Fin 4) (start : Int) : List (Nat × Int × Int) → List (Nat × Int × Int)
  | x :: t => if x.1 = d.val ∧ x.2.2 ≤ start then (x.1, x.2.1, start) :: t else (d.val, start, start) :: x :: t
  | [] => [(d.val, start, start)]

/-- TIME within its second, in ps. -/
def TimeDom.ps (t : TimeDom) : Nat := t.lo.toNat * 1000 / 2 ^ 18

/-- The whole of [start, start + len), in ps within the second, lies within one guarded span (R106, R107). -/
def WinTab.fits (t : WinTab) (start len : Nat) : Bool :=
  let x := (start + 1000 * (1000000000 - t.phase)) % (1000 * t.period)
  t.wins.any (fun w => decide (1000 * (w.1 + t.guard) ≤ x ∧ x + len ≤ 1000 * (w.1 + w.2 - t.guard)))

/-- An occupancy of `len` ps could lie within some guarded span (R107). -/
def WinTab.fitsAny (t : WinTab) (len : Nat) : Bool := t.wins.any (fun w => decide (len ≤ 1000 * (w.2 - 2 * t.guard)))

/-- The domain that a line's windows count in has UNSYNC set (R108). -/
def unsync (s : State) (d : Nat) : Bool := s.on (Reg.TU.D.STAT.UNSYNC d)

/-- The table in force on a line: none while its windows are closed (R106, R108). -/
def State.lineWin (s : State) (n : Clu) (l : Fin 4) : Option WinTab :=
  match (s.clu n).win[l] with
  | some t => if unsync s t.dom then none else some t
  | none => none

/-- A guarded span of the line is open now (TTW.STAT.OPEN, R109). -/
def State.lineOpen (s : State) (n : Clu) (l : Fin 4) : Bool :=
  s.on (Reg.TTW.CTRL.EN n l) &&
    match s.lineWin n l with
    | some t => t.fits (s.dom t.dom).ps 1
    | none => false

/-- The line of a port: port A is line 0, port B line 1 (R106). -/
def portLine (p : Port) : Fin 4 := ⟨p.val % 2, by omega⟩

end Sys2Proof.Machine
end

