-- ==== Sys2Proof/Machine/Tun.lean ====
section
/-! DEFINITION. Frames in the tun: access to their bytes, the end of their program, their release and their way out
(R21-R34, R40, R52-R54, R69-R79). -/

namespace Sys2Proof.Machine

open Reg

/-! ### Frames -/

/-- The frame whose program runs. -/
def State.running (s : State) (p : Port) : Option Frame := (s.port p).tun.find? (fun f => f.prog == .running)

/-- A frame changes; frames are told apart by FCTR. -/
def State.modFrame (s : State) (p : Port) (k : Word) (g : Frame → Frame) : State :=
  s.modPort p (fun x => { x with tun := x.tun.map (fun f => if f.fctr = k then g f else f) })

def State.modSeq (s : State) (p : Port) (g : Seq → Seq) : State := s.modPort p (fun x => { x with seq := g x.seq })

/-- The depth of the tun in bytes (R26). -/
def State.tunDepth (s : State) (p : Port) : Nat := 16 * s.get (LP.STAT.DEPTHACT p)

/-- A byte of a frame as the sequencer reads it: a deposit shows, but the last four bytes of a frame whose end is known
read as received (R33). -/
def Frame.byte (f : Frame) (o : Nat) : Byte :=
  if f.eof && decide (f.bytes.length ≤ o + 4) then f.bytes.getD o 0
  else (lookup o f.dep).getD (f.bytes.getD o 0)

/-- The `n` bytes of a frame from an offset; bytes past the end read 0. -/
def Frame.slice (f : Frame) (o : Nat) : Nat → List Byte
  | 0 => []
  | n + 1 => f.byte o :: f.slice (o + 1) n

/-- How an access to `n` frame bytes at an offset falls (R33). -/
inductive Touch where
  | ok | stall | violation
  deriving DecidableEq, Repr

/-- The window rule of R33. Bytes past the end of a frame whose end is known are no violation (log entry 13). -/
def Frame.touch (f : Frame) (depth o n : Nat) : Touch :=
  if o < 16 * f.cur then .violation
  else if f.eof then
    if decide (o < f.bytes.length) && decide (16 * f.cur + depth < min (o + n) f.bytes.length) then .violation else .ok
  else if 16 * f.cur + depth < o + n then .violation
  else if o + n ≤ f.bytes.length then .ok
  else .stall

/-- The access reads bytes past the frame's end (condition PAST, R38). -/
def Frame.pastEnd (f : Frame) (o n : Nat) : Bool := f.eof && decide (f.bytes.length < o + n)

/-- Deposit bytes; bytes past the end are discarded (R33). -/
def Frame.deposit (f : Frame) (o : Nat) : List Byte → Frame
  | [] => f
  | b :: t =>
    Frame.deposit (if f.eof && decide (f.bytes.length ≤ o) then f else { f with dep := insertAt o b f.dep }) (o + 1) t

/-- Grain 0 has been released, by the program or at its release point (TXSTART, R38). -/
def Frame.txStart (f : Frame) : Bool := decide (0 < f.cur) || decide (0 < f.left)

/-- All grains have reached their release points. -/
def Frame.allLeft (f : Frame) : Bool := f.eof && decide (f.bytes.length ≤ 16 * f.left)

/-- The bytes a frame's transmission carries before its FCS: deposits in place, the last four bytes left out (R33). -/
def Frame.payload (f : Frame) : List Byte :=
  (List.range (f.bytes.length - 4)).map (fun o => (lookup o f.dep).getD (f.bytes.getD o 0))

/-- The FCS received with the frame. -/
def Frame.rxFcs (f : Frame) : BitVec 32 := BitVec.ofNat 32 (natLE (f.bytes.drop (f.bytes.length - 4)))

/-- The received FCS is good (R22). -/
def Frame.fcsGood (f : Frame) : Bool :=
  !f.fate.cut && decide (4 < f.bytes.length) && (fcs (f.bytes.take (f.bytes.length - 4)) == f.rxFcs)

/-- The FCS the CRC fixer inserts: the received one changed by the CRC difference of the deposited bytes (R30), or the
inverted one of a stomped frame (R53). -/
def Frame.txFcs (f : Frame) : BitVec 32 :=
  if f.fate.stomp then ~~~ (fcs f.payload)
  else fcs f.payload ^^^ (fcs (f.bytes.take (f.bytes.length - 4)) ^^^ f.rxFcs)

/-- The frame as it leaves. -/
def Frame.wire (f : Frame) : List Byte := f.payload ++ bytesLE 4 f.txFcs.toNat

/-! ### Images (R69-R77) -/

/-- TIME_LO of domain 0 now. -/
def State.now0 (s : State) : Nat := (s.dom 0).lo.toNat

/-- Write a whole buffer header (R69, R73): SEQ, AGE 0, STAMP, FLAGS 0, INDEX. -/
def writeHeader (s : State) (a seqn i : Nat) : State :=
  hwStore a (bytesLE 6 seqn ++ bytesLE 2 0 ++ bytesLE 6 s.now0 ++ bytesLE 1 0 ++ bytesLE 1 i) s

/-- AGE of a buffer grows by one, saturating, and flag bits are set (R69, R73, R76). -/
def ageHeader (s : State) (a flag : Nat) : State :=
  hwStoreN (a + 14) 1 (s.load (a + 14) 1 ||| flag) (hwStoreN (a + 6) 2 (min (s.load (a + 6) 2 + 1) 0xFFFF) s)

/-- The commit of an input image (R73). No frame has written the buffer that now becomes FILL (R75). -/
def commitImage (s : State) (p : Port) : State :=
  let s := s.modPort p (fun x => { x with committed := x.committed || !(s.on (PI.INROLE.POISON p)) })
  if s.on (PI.INROLE.POISON p) then
    let s := s.raise (PI.ERR.POISON p)
    if 8 ≤ s.get (PI.CFG.ITICK p) then s.lower (PI.INROLE.POISON p) else s
  else
    let fill := s.get (PI.INROLE.FILL p)
    let ready := s.get (PI.INROLE.READY p)
    let n := (s.port p).inSeq + 1
    let s := ((s.put (PI.INROLE.FILL p) ready).put (PI.INROLE.READY p) fill).raise (PI.INROLE.NEW p)
    (writeHeader s (inBuf s p fill) n.toNat fill).modPort p (fun x =>
      { x with inSeq := n, tun := x.tun.map (fun f => { f with fate := { f.fate with wroteFill := false } }) })

/-- Take (R73). -/
def takeImage (s : State) (p : Port) : State :=
  if s.on (PI.INROLE.NEW p) then
    let held := s.get (PI.INROLE.HELD p)
    let ready := s.get (PI.INROLE.READY p)
    (((s.put (PI.INROLE.HELD p) ready).put (PI.INROLE.READY p) held).lower (PI.INROLE.NEW p)).raise (PI.INROLE.HVALID p)
  else s

/-- The input tick (R73). -/
def inputTick (s : State) (p : Port) : State :=
  let s :=
    if (s.port p).committed then s
    else
      let s := ageHeader s (inBuf s p (s.get (PI.INROLE.READY p))) 2
      let s := ageHeader s (inBuf s p (s.get (PI.INROLE.HELD p))) 2
      (s.raise (PI.ERR.MISS p)).count (PI.MISSCNT.CNT p)
  (s.modPort p (fun x => { x with committed := false })).lower (PI.INROLE.POISON p)

/-- Publish (R73). -/
def publishImage (s : State) (p : Port) : State :=
  let fill := s.get (PI.OUTROLE.FILL p)
  let ready := s.get (PI.OUTROLE.READY p)
  let n := (s.port p).outSeq + 1
  let s := ((s.put (PI.OUTROLE.FILL p) ready).put (PI.OUTROLE.READY p) fill).raise (PI.OUTROLE.NEW p)
  (writeHeader s (outBuf s p fill) n.toNat fill).modPort p (fun x => { x with outSeq := n, pubSince := true })

/-- The output latch at a frame start (R73, R76); it also sets condition OUTNEW (R38). -/
def latchImage (s : State) (p : Port) : State :=
  if (s.port p).latchDue || decide (8 ≤ s.get (PI.CFG.OTICK p)) then
    let s := s.modPort p (fun x => { x with latchDue := false })
    if s.on (PI.OUTROLE.NEW p) then
      let cur := s.get (PI.OUTROLE.CUR p)
      let ready := s.get (PI.OUTROLE.READY p)
      let s := (((s.put (PI.OUTROLE.CUR p) ready).put (PI.OUTROLE.READY p) cur).lower (PI.OUTROLE.NEW p)).raise
        (PI.OUTROLE.CVALID p)
      s.modPort p (fun x => { x with seq := { x.seq with outnew := x.pubSince }, pubSince := false })
    else
      let s := ageHeader s (outBuf s p (s.get (PI.OUTROLE.CUR p))) 1
      let s := (s.raise (PI.ERR.REPEAT p)).count (PI.REPCNT.CNT p)
      s.modPort p (fun x => { x with seq := { x.seq with outnew := false }, pubSince := false })
  else s.modPort p (fun x => { x with seq := { x.seq with outnew := false }, pubSince := false })

/-! ### Rings in the private area (R71, R78-R80) -/

/-- The pointers EVRD and EVWR of the event ring answer to a read (R79, R289, R299). -/
def ringReads (s : State) (p : Port) : Bool := (hwLoad s (privAddr s p 0x90) 8).isSome

/-- Post a 16-byte record into the event ring (R79). With pointers that cannot be read, nothing is posted: R299 says no more than
that the reader gets an error response (DESIGN CHOICE, log entry 75). -/
def postEvent (s : State) (p : Port) (r : List Byte) : State :=
  let ok := ringReads s p
  let wr := s.load (privAddr s p 0x94) 4 % 16
  let rd := s.load (privAddr s p 0x90) 4 % 16
  let s := noteRead (privAddr s p 0x90) 8 s
  if !ok then s
  else if (wr + 1) % 16 = rd then s.raise (PI.ERR.EVOVF p)
  else hwStoreN (privAddr s p 0x94) 4 ((wr + 1) % 16) (hwStore (privAddr s p (0xA0 + 16 * wr)) r s)

/-- An event record of the program running on a frame (R79). -/
def eventRecord (s : State) (p : Port) (f : Frame) (code wop : Nat) : List Byte :=
  bytesLE 1 code ++ bytesLE 1 p.val ++ bytesLE 2 ((s.port p).seq.wpc - 1).toNat ++ bytesLE 3 wop ++ bytesLE 1 0 ++
    bytesLE 6 (f.stamps[(0 : Fin 4)]).lo.toNat ++ bytesLE 2 0

/-- A receive queue is full or disabled (R78). -/
def queueFull (s : State) (p : Port) (q : Nat) : Bool :=
  decide ((s.get (PQ.RX.WR.WR p q) + 2 ^ 16 - s.get (PQ.RX.RD.RD p q)) % 2 ^ 16 = s.get (PQ.RX.CFG.SLOTS p q)) ||
    s.get (PQ.RX.CFG.SLOTS p q) == 0

/-- The slot size of a receive queue (R89). -/
def slotBytes (s : State) (p : Port) (q : Nat) : Nat :=
  let z := s.get (PQ.RX.CFG.SLOTSZ p q)
  2 ^ (if 7 ≤ z then z else 11)

/-- A queue copy becomes visible (R78). -/
def queueCopy (s : State) (p : Port) (f : Frame) (c : QCopy) : State :=
  let q := c.q.val
  if f.fate.verdict == some false && !(s.on (PX.CTRL.KEEPBAD p)) then s
  else if queueFull s p q then (s.count (PQ.DROPCNT.CNT p)).raise (PI.ERR.RXQDROP p)
  else
    let room := slotBytes s p q - 16
    let wr := s.get (PQ.RX.WR.WR p q)
    let a := cluAddr (cluOf p) (16 * s.get (PQ.RX.BASE.BASE p q) + wr % s.get (PQ.RX.CFG.SLOTS p q) * slotBytes s p q)
    let flags := (if f.fate.verdict == some true then 1 else 0) + (if room < f.bytes.length then 2 else 0) +
      (if f.fate.stomped then 4 else 0) + (if c.f0 then 8 else 0) + (if c.f1 then 16 else 0)
    let s := hwStore a (bytesLE 2 f.bytes.length ++ bytesLE 1 flags ++ bytesLE 1 0 ++
      bytesLE 6 (f.stamps[(0 : Fin 4)]).lo.toNat ++ bytesLE 6 f.fctr.toNat ++ f.bytes.take room) s
    s.put (PQ.RX.WR.WR p q) (wr + 1)

/-! ### The end of a frame's program (R40, R42, R43, R52, R54, R75) -/

/-- The FILL buffer is poisoned when the frame wrote it (R75). -/
def poisonIfWrote (s : State) (p : Port) (f : Frame) : State :=
  if (s.port p).tun.any (fun g => g.fctr == f.fctr && g.fate.wroteFill) then s.raise (PI.INROLE.POISON p) else s

/-- The frame's FCS is marked stomped, and the frame counts as chaff, once (R52, R53, R59). -/
def markStomped (s : State) (p : Port) (f : Frame) : State :=
  let s := s.modFrame p f.fctr (fun g => { g with fate := { g.fate with stomp := true, chaffed := true } })
  if f.fate.chaffed then s else s.count (WSQ.CHAFF.CNT p)

/-- A frame is stomped. One whose last grain has already left can be stomped only until its last FCS byte leaves (R53):
whether that byte is still to come is a matter of time, which the model leaves out, and a free value decides it (log
entry 7). -/
def stompFrame (s : State) (p : Port) (f : Frame) : State :=
  if f.allLeft then
    if (s.freeVal 1 : BitVec 1) == 1 then markStomped s.took p f else s.took
  else markStomped s p f

/-! ### The way out (R23, R30, R53) -/

/-- The handling of a frame is over: it has gone out, its program has ended, its verdict is known, and neither queue copies nor a
commit wait. -/
def Frame.isOver (f : Frame) : Bool := f.sent && f.prog == .done && f.fate.verdict.isSome && f.ques.isEmpty && !f.fate.cmt

/-- Frames whose handling is over leave the record of the tun. -/
def retireFrames (s : State) (p : Port) : State := s.modPort p (fun x => { x with tun := x.tun.filter (fun f => !f.isOver) })

/-- All grains of a frame have left, it has not gone out, and its program can no longer stomp it (R53). -/
def Frame.mayGo (f : Frame) : Bool := f.allLeft && !f.sent && f.prog != .running

/-- A frame goes out on its egress. A forwarded frame shorter than 5 bytes has no byte before its FCS and sends nothing: the
manual does not say what such a frame leaves as (DESIGN CHOICE, log entry 68). -/
def sendFrame (s : State) (p : Port) (f : Frame) : State :=
  let s := s.modFrame p f.fctr (fun g => { g with sent := true })
  match f.egress with
  | some e => if f.fate.gone || decide (f.bytes.length < 5) then s else s.emit (.frame e f.wire)
  | none => s

/-- A frame all of whose grains have left goes out once its program can no longer stomp it (R53), and frames whose handling
is over leave the record. -/
def settleFrame (s : State) (p : Port) (k : Word) : State :=
  match (s.port p).tun.find? (fun g => g.fctr == k) with
  | some g => retireFrames (if g.mayGo then sendFrame s p g else s) p
  | none => retireFrames s p

/-- The program of a frame ends; the armed commit stays or goes (R40). -/
def closeProgram (s : State) (p : Port) (f : Frame) (keepCmt : Bool) : State :=
  let s := s.modFrame p f.fctr (fun g =>
    { g with prog := .done, fate := { g.fate with cmt := g.fate.cmt && keepCmt } })
  s.modSeq p (fun q => { q with fresh := false })

/-- ENDF (R37, R40). -/
def endProgram (s : State) (p : Port) (f : Frame) : State := settleFrame (closeProgram s p f true) p f.fctr

/-- DISC (R54). -/
def discardFrame (s : State) (p : Port) (f : Frame) : State :=
  let s := poisonIfWrote (closeProgram s p f false) p f
  let s :=
    if f.txStart then stompFrame s p f
    else s.modFrame p f.fctr (fun g => { g with fate := { g.fate with gone := true } })
  settleFrame s p f.fctr

/-- The program was cut off and the frame is stomped as for an overrun (R33, R43, R52). -/
def abandonFrame (s : State) (p : Port) (f : Frame) : State :=
  let s := poisonIfWrote (closeProgram s p f false) p f
  let s := s.modFrame p f.fctr (fun g => { g with fate := { g.fate with stomped := true } })
  settleFrame (stompFrame s p f) p f.fctr

/-- A window violation (R33). -/
def windowViolation (s : State) (p : Port) (f : Frame) : State := (abandonFrame s p f).raise (WSQ.ERR.WIN p)

/-- WSQ.UNDEF records a microaddress, the wire op's index and its opcode (R42, R43, R61). -/
def recordUndef (s : State) (p : Port) (u : Nat) : State :=
  let q := (s.port p).seq
  ((s.put (WSQ.UNDEF.UADDR p) u).put (WSQ.UNDEF.WIDX p) (q.wpc - 1).toNat).put (WSQ.UNDEF.OPC p) q.opc.toNat

/-- UDF (R42). -/
def undefinedOp (s : State) (p : Port) (f : Frame) : State :=
  settleFrame (poisonIfWrote (closeProgram ((recordUndef s p 0).raise (WSQ.ERR.UNDEF p)) p f false) p f) p f.fctr

/-- An illegal microword, or with the other error bit a stack fault or an uncorrectable store error (R43, R49). -/
def illegalWord (s : State) (p : Port) (f : Frame) (err : Fld) : State :=
  abandonFrame ((recordUndef s p (s.port p).seq.upc.toNat).raise err) p f

/-- A grain overrun of grain `k` (R52). WSQ.OVR records the microprogram counter: for a wire op that runs as one command, and for
a Tiller op part-way, that is the first microaddress of its routine, since most routines are not printed (R61; DESIGN CHOICE,
log entry 68). -/
def overrun (s : State) (p : Port) (f : Frame) (k : Nat) : State :=
  let s := s.raise (WSQ.ERR.OVR p)
  let s := (s.put (WSQ.OVR.UADDR p) (s.port p).seq.upc.toNat).put (WSQ.OVR.GRAIN p) k
  abandonFrame s p f

/-! ### Dispatch and frame start (R39, R41, R49) -/

/-- An uncorrectable control-store or dispatch word was fetched (R49). It sets CSUE and not ILLUW: R49 names its own error
bit, as R43 does for a stack fault. For a dispatch entry no microword was fetched, and WSQ.UNDEF records the address that
the entry holds (R61 names none; DESIGN CHOICE, log entry 68). -/
def storeError (s : State) (p : Port) (f : Frame) : State :=
  (illegalWord s p f (WSQ.ERR.CSUE p)).lower (WSQ.CTRL.RUN p)

/-- NXW: fetch the wire op at WPC, increment WPC, load WOP and jump through the dispatch table (R39). -/
def dispatch (s : State) (p : Port) (f : Frame) : State :=
  let q := (s.port p).seq
  let w := (lookup (1024 * s.get (WSQ.STAT.WPBANKACT p) + q.wpc.toNat) (s.port p).wpm).getD 0
  let opc := BitVec.ofNat 8 (w / 2 ^ 24)
  let s := s.modSeq p (fun q =>
    { q with wpc := q.wpc + 1, wop := BitVec.ofNat 24 w, opc := opc, fresh := true, step := 0, part := 0,
             upc := BitVec.ofNat 14 (s.get (WSQ.DISP.UADDR p opc.toNat)) })
  if csBad s p (16384 + opc.toNat) then storeError s p f else noteSoft s p (16384 + opc.toNat)

/-- The role byte of a port (R169). -/
def roleByte (s : State) (p : Port) : Byte := if twinned s (p.val / 2) then s.byte (privAddr s p 0xC20) else 0

/-- The program for a frame starts (R39, R45): RUN and WPBANK are sampled, the output latch takes place (R73), the
flags, comparator results and call stack are cleared, and wire op 0 is dispatched. With RUN = 0 no program runs. -/
def startFrame (s : State) (p : Port) (f : Frame) : State :=
  let run := s.on (WSQ.CTRL.RUN p) && (s.port p).csld.isNone
  let s := (s.put (WSQ.STAT.RUNACT p) run.toNat).put (WSQ.STAT.WPBANKACT p) (s.get (WSQ.CTRL.WPBANK p))
  let s := latchImage s p
  let s := s.modSeq p (fun q =>
    { q with cmp := q.cmp.map (fun c => { c with res := false }), f0 := false, f1 := false, stk := [], tmr0 := false,
             tmr1 := false, wpc := 0, role := roleByte s p })
  let s := s.modFrame p f.fctr (fun g => { g with prog := if run then .running else .done, cur := 0 })
  if run then dispatch s p f else s

/-! ### Egress and release (R25, R27-R31, R40, R52, R81, R86) -/

/-- The egress of a frame that starts to arrive on a port (R27, R28, R86, R422). `fwd` says that its byte 0 reached the
receive interface before the last write of the partner's PX.CTRL.EN: while the partner drains only such a frame may leave on
it, and once the partner is back in service only a later one (R86, R87). -/
def egressOf (s : State) (p : Port) (fwd : Bool) : Option Nat :=
  match s.get (WSQ.CTRL.EGR p) with
  | 1 =>
    let q := partner p
    if !(s.bit GLB.MI.LINK.LINK p.val && s.bit GLB.MI.LINK.LINK q.val) then none
    else if s.get (LP.STAT.RATE p) ≠ s.get (LP.STAT.RATE q) then none
    else if !(s.on (PX.STAT.ENACT q)) || s.on (PX.STAT.DRAIN q) != fwd then none
    else some q.val
  | 2 => if s.bit GLB.MI.LINK.LINK p.val then some p.val else none
  | _ => none

/-- The rates of the two ports of a cluster differ while both links are up (R27). -/
def rateDiffers (s : State) (p : Port) : Bool :=
  s.bit GLB.MI.LINK.LINK p.val && s.bit GLB.MI.LINK.LINK (partner p).val &&
    s.get (LP.STAT.RATE p) != s.get (LP.STAT.RATE (partner p))

/-- WSQ.ERR.RATE is set while the rates differ, whatever EGR says (R27). -/
def noteRate (s : State) (p : Port) : State := if rateDiffers s p then s.raise (WSQ.ERR.RATE p) else s

/-- The oldest frame with grains still to leave. -/
def State.leaving (s : State) (p : Port) : Option Frame := (s.port p).tun.find? (fun f => !f.allLeft)

/-- Two forwarded streams meet on one egress: the port's own tun wins, and the partner's frame is handled as sunk with
WSQ.ERR.EGRCOL set on the partner (R29). A frame that transmits nothing because it was discarded or failed a
store-and-forward test still claims its egress: the egress stays idle for its time (R31, R54; that it also sinks the
partner's frame is DEDUCED, log entry 68). -/
def meetEgress (s : State) (p : Port) (f : Frame) : State :=
  let q := partner p
  match f.egress, s.leaving q with
  | some e, some g =>
    if decide (g.egress = some e) && decide (0 < g.left) then
      if e = p.val then (s.modFrame q g.fctr (fun h => { h with egress := none })).raise (WSQ.ERR.EGRCOL q)
      else (s.modFrame p f.fctr (fun h => { h with egress := none })).raise (WSQ.ERR.EGRCOL p)
    else s
  | _, _ => s

/-- The store-and-forward tests at the release of grain 0 (R31). SAFDROP counts every frame that fails one, a frame that is
sunk or already discarded too (DESIGN CHOICE, log entry 68). -/
def safTest (s : State) (p : Port) (f : Frame) : State :=
  if f.fate.saf && !(f.eof && f.fate.verdict == some true && decide (f.bytes.length + 16 ≤ s.tunDepth p)) then
    (s.modFrame p f.fctr (fun h => { h with fate := { h.fate with gone := true } })).count (WSQ.SAFDROP.CNT p)
  else s

end Sys2Proof.Machine
end

