-- ==== Sys2Proof/Machine/MicroOps.lean ====
section
/-! DEFINITION. The micro-ops of R37 and the handling of UDF and illegal microwords. A micro-op command carries out the
microword at the microprogram counter, if a program runs and that microword is the command's micro-op; otherwise the
sequencer is not about to execute it and nothing changes. A stalled micro-op changes nothing. -/

namespace Sys2Proof.Machine

open Reg

/-! ### Fetch and advance -/

/-- The microword at an address; address 0 holds UDF (R42), an unlisted word is blank. -/
def csWord (s : State) (p : Port) (u : Nat) : Word32 :=
  if u = 0 then 0 else BitVec.ofNat 32 ((lookup u (s.port p).cs).getD 0)

/-- The microword at the microprogram counter. -/
def fetchU (s : State) (p : Port) : UWord := decodeU (csWord s p (s.port p).seq.upc.toNat)

/-- The fetched word holds an uncorrectable error (R49). -/
def fetchBad (s : State) (p : Port) : Bool := csBad s p (s.port p).seq.upc.toNat

/-- The microword at the microprogram counter was read from a word with a single-bit error (R49): `t` is the state that the
micro-op leaves. -/
def noteFetch (s : State) (p : Port) (t : State) : State :=
  if csSoft s p (s.port p).seq.upc.toNat then noteSoft t p (s.port p).seq.upc.toNat else t

/-- Carry out the microword at the microprogram counter if it is the one that `g` knows; `g` answers nothing where the
micro-op stalls. A fetch that meets a single-bit error counts when its micro-op executes. -/
def microCmd (p : Port) (s : State) (g : Frame → UOp → Option State) : Res :=
  match s.running p, fetchU s p with
  | some f, .op u => if fetchBad s p then .next s else .next (((g f u).map (noteFetch s p)).getD s)
  | _, _ => .next s

/-- The microprogram counter moves. -/
def jumpU (p : Port) (u : BitVec 14) (s : State) : State := s.modSeq p (fun q => { q with upc := u, fresh := false })

/-- The next microword. After microaddress 16,383 the 14-bit counter wraps to 0, where UDF stands: the manual does not say
(DESIGN CHOICE, log entry 68). -/
def nextU (p : Port) (s : State) : State := jumpU p ((s.port p).seq.upc + 1) s

/-! ### Registers and arithmetic (R35-R37) -/

/-- A sequencer register. -/
def Seq.reg (q : Seq) (r : BitVec 2) : Word := q.sq[r.toFin]

/-- A sequencer register takes a value. -/
def Seq.setReg (q : Seq) (r : BitVec 2) (v : Word) : Seq := { q with sq := q.sq.set r.toNat v (by omega) }

def sqReg (s : State) (p : Port) (r : BitVec 2) : Word := (s.port p).seq.reg r

def setSq (p : Port) (r : BitVec 2) (v : Word) (s : State) : State := s.modSeq p (fun q => q.setReg r v)

/-- The ALU functions; ADD and SUB also give the carry (R36). -/
def aluFn (fn : BitVec 4) (a b : Word) : Word × Option Bool :=
  let sh := b.toNat % 64
  match fn.toNat with
  | 0x0 => (a + b, some (decide (2 ^ 48 ≤ a.toNat + b.toNat)))
  | 0x1 => (a - b, some (decide (a.toNat < b.toNat)))
  | 0x2 => (a &&& b, none)
  | 0x3 => (a ||| b, none)
  | 0x4 => (a ^^^ b, none)
  | 0x5 => (a &&& ~~~ b, none)
  | 0x6 => (a <<< sh, none)
  | 0x7 => (a >>> sh, none)
  | 0x8 => (a.sshiftRight sh, none)
  | 0x9 => (if a.toNat ≤ b.toNat then a else b, none)
  | 0xA => (if a.toNat ≤ b.toNat then b else a, none)
  | _ => (a, none)

/-- An ALU result goes to a register, and the carry where the function sets it. -/
def aluTo (p : Port) (d : BitVec 2) (r : Word × Option Bool) (s : State) : State :=
  s.modSeq p (fun q => { q.setReg d r.1 with carry := r.2.getD q.carry })

/-- A field of a frame or of memory as a number: the first byte highest, or lowest where `e` is set (R36). -/
def fieldNum (e : Bool) (l : List Byte) : Nat := if e then natLE l else natBE l

/-- The bytes of a number as a field. -/
def fieldBytes (e : Bool) (n v : Nat) : List Byte := if e then bytesLE n v else bytesBE n v

/-- The result of a comparator (R37). -/
def Cmp.test (c : Cmp) (v : Word) : Bool :=
  match c.mode.toNat with
  | 0 => (v &&& c.mask) == (c.ref &&& c.mask)
  | 1 => decide (v.toNat < c.ref.toNat)
  | 2 => decide (c.ref.toNat ≤ v.toNat)
  | _ => (v &&& c.mask) != 0

/-- A comparator latches its result. -/
def latchCmp (p : Port) (c : BitVec 2) (v : Word) (s : State) : State :=
  s.modSeq p (fun q => { q with cmp := q.cmp.set c.toNat { q.cmp[c.toFin] with res := (q.cmp[c.toFin]).test v } (by omega) })

/-! ### Frame fields (R33) -/

/-- A frame access: a stall, what `g` does, or a window violation, before which the reads of the access return 0 as `z` says
(R33). -/
def frameAccess (p : Port) (s : State) (f : Frame) (o n : Nat) (z g : State) : Option State :=
  match f.touch (s.tunDepth p) o n with
  | .ok => some g
  | .stall => none
  | .violation => some (windowViolation z p f)

/-- The frame offset that a register and a displacement name (R33). -/
def frameOff (s : State) (p : Port) (r : BitVec 2) (disp : BitVec 12) : Nat := (sqReg s p r).toNat % 2 ^ 16 + disp.toNat

/-- Deposit bytes into the running frame. -/
def depositAt (p : Port) (f : Frame) (o : Nat) (bs : List Byte) (s : State) : State :=
  s.modFrame p f.fctr (fun g => g.deposit o bs)

/-! ### Cluster memory (R35, R70) -/

/-- Where a memory access of a micro-op goes (R70). -/
inductive MemRef where
  | at (a : Nat)
  /-- Beyond the bounds of an image. -/
  | bound
  /-- A read of the current output buffer while there is none. -/
  | zero
  deriving DecidableEq, Repr

/-- The address of an access: base, offset and length (R36, R70). -/
def memRef (s : State) (p : Port) (b : BitVec 2) (off n : Nat) (read : Bool) : MemRef :=
  match b.toNat with
  | 0 => .at (cluAddr (cluOf p) off)
  | 1 => if off + n ≤ s.get (PI.INSIZE.SIZE p) then .at (inBuf s p (s.get (PI.INROLE.FILL p)) + 16 + off) else .bound
  | 2 =>
    if s.get (PI.OUTSIZE.SIZE p) < off + n then .bound
    else if read && !(s.on (PI.OUTROLE.CVALID p)) then .zero
    else .at (outBuf s p (s.get (PI.OUTROLE.CUR p)) + 16 + off)
  | _ => .at (privAddr s p off)

/-- A bounds violation (R70). -/
def boundError (p : Port) (s : State) : State := (s.raise (PI.ERR.BOUND p)).raise (PI.INROLE.POISON p)

/-- Bytes of a cluster memory from an address on: they wrap within its 512 KiB (R70). -/
def cluBytes (s : State) (a n : Nat) : List Byte := (List.range n).map (fun i => s.byte (a - a % 0x80000 + (a + i) % 0x80000))

/-- The bytes from an address to the end of its cluster memory. -/
def cluRoom (a : Nat) : Nat := 0x80000 - a % 0x80000

/-- Some codeword that the bytes touch holds a double-bit error (R299). -/
def cluBad (s : State) (a n : Nat) : Bool :=
  s.memBad a (min n (cluRoom a)) || s.memBad (a - a % 0x80000) (n - cluRoom a)

/-- A write would merge into a codeword with a double-bit error (R298, R299). -/
def cluMerges (s : State) (a n : Nat) : Bool :=
  s.mergeBad a (min n (cluRoom a)) || s.mergeBad (a - a % 0x80000) (n - cluRoom a)

/-- What a sequencer's read of cluster memory leaves: its errors recorded (R298). -/
def cluNote (a n : Nat) (s : State) : State :=
  let s := noteRead a (min n (cluRoom a)) s
  if n ≤ cluRoom a then s else noteRead (a - a % 0x80000) (n - cluRoom a) s

/-- A store of bytes into a cluster memory; they wrap within its 512 KiB (R70). -/
def cluStore (s : State) (a : Nat) (bs : List Byte) : State :=
  if bs.length ≤ cluRoom a then s.store a bs
  else (s.store a (bs.take (cluRoom a))).store (a - a % 0x80000) (bs.drop (cluRoom a))

/-- A sequencer's read of cluster memory: the bytes, or nothing where the codeword is bad (R299). -/
def seqRead (s : State) (p : Port) (b : BitVec 2) (off n : Nat) : Option (List Byte) × State :=
  match memRef s p b off n true with
  | .at a => (if cluBad s a n then none else some (cluBytes s a n), cluNote a n s)
  | .bound => (some (List.replicate n 0), boundError p s)
  | .zero => (some (List.replicate n 0), s)

/-- A sequencer's write of cluster memory; a write that merges into a codeword with a double-bit error abandons the frame (R299). A
write with base 0b01 marks the frame, and poisons the buffer at once where the frame's FCS is already known bad (R75). -/
def seqWrite (s : State) (p : Port) (f : Frame) (b : BitVec 2) (off : Nat) (bs : List Byte) : State × Bool :=
  match memRef s p b off bs.length false with
  | .at a =>
    if cluMerges s a bs.length then (abandonFrame (cluNote a bs.length s) p f, false)
    else
      let s := cluStore s a bs
      if b = 1 then
        let s := s.modFrame p f.fctr (fun g => { g with fate := { g.fate with wroteFill := true } })
        (if f.fate.verdict == some false then s.raise (PI.INROLE.POISON p) else s, true)
      else (s, true)
  | .bound => (boundError p s, true)
  | .zero => (s, true)

/-- The offset that a register names in cluster memory (R36). -/
def memOff (s : State) (p : Port) (r : BitVec 2) : Nat := (sqReg s p r).toNat % 2 ^ 19

/-- The field that ATM adds to: the memory adds where it stores, whatever CVALID says (R37, R70; log entry 66). Nothing where a
codeword of it is bad (R299). -/
def fieldAt (s : State) (p : Port) (b : BitVec 2) (off n : Nat) : Option Nat :=
  match memRef s p b off n false with
  | .at a => if cluBad s a n then none else some (natLE (cluBytes s a n))
  | _ => some 0

/-- What ATM's read of its field leaves: its errors recorded (R298). -/
def fieldNote (p : Port) (b : BitVec 2) (off n : Nat) (s : State) : State :=
  match memRef s p b off n false with
  | .at a => cluNote a n s
  | _ => s

/-! ### Special registers and conditions (R35, R38) -/

/-- DELAY in units of 2^-16 ns, rounded to nearest (R35). -/
def delayReg (s : State) (p : Port) : Nat := (s.get (LP.DELAY.PS p) * 65536 + 500) / 1000

/-- SLACK (R25, R35): the whole engine cycles from this one to the release point of the current grain, which lies 16 × cur + D byte
times and 17.5 ns behind byte 0 on the receive interface. The age of a frame counts the cycles that the clock has made since. -/
def slack (s : State) (p : Port) (f : Frame) : Nat :=
  (8 * ((16 * f.cur + s.tunDepth p) * byteTimePs (s.get (LP.STAT.RATE p)) + 17500) - 625 * f.age) / 10000

/-- A special register. FCTR is the port's count of frames, which a later frame has already raised once its grain 0 is
available (R35). -/
def specialReg (s : State) (p : Port) (f : Frame) (spec : Nat) : Word :=
  match spec with
  | 0 => (s.port p).seq.wop.zeroExtend 48
  | 1 => (s.port p).seq.wpc.zeroExtend 48
  | 2 => BitVec.ofNat 48 (16 * f.cur)
  | 3 => if f.eof then BitVec.ofNat 48 f.bytes.length else 0
  | 4 => (f.stamps[(0 : Fin 4)]).lo
  | 5 => BitVec.ofNat 48 (delayReg s p)
  | 6 => BitVec.ofNat 48 (slack s p f)
  | _ => (s.port p).fctr

/-- The egress gate of a class is open: always while the gate list is not in force (R83). -/
def gateOpen (s : State) (p : Port) (c : Nat) : Bool :=
  !(s.on (GCL.CTRL.GATEEN p)) || (s.port p).gate.gates.getLsbD c

/-- The condition inputs of BR and WAIT (R38). SLACKLOW compares SLACK with WSQ.CTRL.SLACKMIN. -/
def condition (s : State) (p : Port) (f : Frame) (c : Nat) : Bool :=
  let q := (s.port p).seq
  match c with
  | 0 => true
  | 1 => f.cur == 0
  | 2 => f.eof
  | 3 => f.fate.verdict == some true
  | 4 => f.fate.verdict == some false
  | 5 => f.txStart
  | 6 => decide (s.tunDepth p < f.bytes.length + 16)
  | 7 => q.past
  | 8 => (q.cmp[(0 : Fin 4)]).res
  | 9 => (q.cmp[(1 : Fin 4)]).res
  | 10 => (q.cmp[(2 : Fin 4)]).res
  | 11 => (q.cmp[(3 : Fin 4)]).res
  | 12 => q.reg 0 == 0
  | 13 => (q.reg 0).msb
  | 14 => q.reg 1 == 0
  | 15 => (q.reg 1).msb
  | 16 => q.reg 2 == 0
  | 17 => (q.reg 2).msb
  | 18 => q.reg 3 == 0
  | 19 => (q.reg 3).msb
  | 20 => q.carry
  | 21 => q.tmr0
  | 22 => q.tmr1
  | 23 => gateOpen s p (s.get (WSQ.CTRL.GCLS p))
  | 24 => s.lineOpen (cluOf p) (portLine p)
  | 25 => queueFull s p q.lastQ.toNat
  | 26 => s.load (privAddr s p 0) 4 != s.load (privAddr s p 4) 4
  | 27 => q.outnew
  | 28 => decide (slack s p f < s.get (WSQ.CTRL.SLACKMIN p))
  | 29 => q.f0
  | 30 => q.f1
  | _ => f.eof && decide (f.bytes.length < 64)

/-- The bytes of a timestamp in a TSI format (R37). -/
def tsiBytes (x : Stamp) (fmt : Nat) : List Byte :=
  match fmt with
  | 0 => bytesBE 6 x.hi.toNat ++ bytesBE 4 (x.lo.toNat / 2 ^ 18)
  | 1 => bytesBE 4 x.hi.toNat ++ bytesBE 4 (x.lo.toNat / 2 ^ 18)
  | _ => bytesBE 6 x.lo.toNat

/-- The timestamp that TSI deposits: domain, receive or transmit point (R37, R100). -/
def tsiStamp (s : State) (p : Port) (f : Frame) (dom : Fin 4) (tx : Bool) : Stamp :=
  if tx then (f.stamps[dom]).txPoint (s.get (LP.DELAY.PS p)) else f.stamps[dom]

/-! ### Releases and queues (R34, R78) -/

/-- The next grain becomes current at once (NXG, R34), also beyond the last grain of a frame whose end is known. Where the end
is not yet known and the frame then ends below the current grain, the last grain becomes current again (`Frame.addGrain`) and
must be released again: R34 says so of SKTO, and for NXG it is silent (DEDUCED, log entry 68). -/
def nextGrain (p : Port) (f : Frame) (s : State) : State := s.modFrame p f.fctr (fun g => { g with cur := g.cur + 1 })

/-- The grain that SKTO makes current (R34): never one below the current grain, and never beyond the last grain of a
frame whose end is known. -/
def skipTo (f : Frame) (o : Nat) : Nat :=
  let k := max f.cur (o / 16)
  if f.eof then max f.cur (min k ((f.bytes.length - 1) / 16)) else k

/-- A copy of the frame has gone to a queue: the duplicate table remembers it for the frame's pair (R85). -/
def noteQueued (p : Port) (f : Frame) (s : State) : State :=
  match f.dupKey with
  | some (a, b) => s.modClu (cluOf p) (fun c => { c with dups := c.dups.map (fun d =>
      if d.src = a ∧ d.seqn = b then { d with queued := true } else d) })
  | none => s

/-- QUE (R78). -/
def queFrame (p : Port) (f : Frame) (q : BitVec 2) (s : State) : State :=
  let s := s.modSeq p (fun x => { x with lastQ := q })
  if queueFull s p q.toNat then (s.count (PQ.DROPCNT.CNT p)).raise (PI.ERR.RXQDROP p)
  else if f.ques.any (fun c => c.q == q.toFin) then s
  else
    let x := (s.port p).seq
    noteQueued p f (s.modFrame p f.fctr (fun g => { g with ques := g.ques ++ [⟨q.toFin, x.f0, x.f1⟩] }))

/-! ### The commands -/

/-- UDF (R42): the microword fetched has code 0x00. -/
def execUdf (p : Port) (s : State) : Res :=
  match s.running p, fetchU s p with
  | some f, .udf => if fetchBad s p then .next s else .next (noteFetch s p (undefinedOp s p f))
  | _, _ => .next s

/-- ILLEGAL_MICROWORD (R36, R43, R49): the microword fetched is illegal, or holds an uncorrectable error. -/
def execIllegalMicroword (p : Port) (s : State) : Res :=
  match s.running p with
  | some f =>
    if fetchBad s p then .next (storeError s p f)
    else if fetchU s p = .illegal then .next (noteFetch s p (illegalWord s p f (WSQ.ERR.ILLUW p)))
    else .next s
  | none => .next s

def execUNop (p : Port) (s : State) : Res := microCmd p s (fun _ u =>
  match u with
  | .nop => some (nextU p s)
  | _ => none)

def execUAlu (p : Port) (s : State) : Res := microCmd p s (fun _ u =>
  match u with
  | .alu d a b fn => some (nextU p (aluTo p d (aluFn fn (sqReg s p a) (sqReg s p b)) s))
  | _ => none)

def execUAlui (p : Port) (s : State) : Res := microCmd p s (fun _ u =>
  match u with
  | .alui d a fn imm => some (nextU p (aluTo p d (aluFn fn (sqReg s p a) (imm.zeroExtend 48)) s))
  | _ => none)

def execULdi (p : Port) (s : State) : Res := microCmd p s (fun _ u =>
  match u with
  | .ldi d imm => some (nextU p (setSq p d (imm.zeroExtend 48) s))
  | _ => none)

def execULdih (p : Port) (s : State) : Res := microCmd p s (fun _ u =>
  match u with
  | .ldih d imm => some (nextU p (setSq p d (imm ++ (sqReg s p d).extractLsb' 0 24) s))
  | _ => none)

def execUMovs (p : Port) (s : State) : Res := microCmd p s (fun f u =>
  match u with
  | .movs r spec => some (nextU p (setSq p r (specialReg s p f spec.toNat) s))
  | _ => none)

def execUMovt (p : Port) (s : State) : Res := microCmd p s (fun _ u =>
  match u with
  | .movt r _ => some (nextU p (s.modSeq p (fun q => { q with wpc := (sqReg s p r).extractLsb' 0 10 })))
  | _ => none)

def execUExt (p : Port) (s : State) : Res := microCmd p s (fun f u =>
  match u with
  | .ext r a e len disp =>
    let o := frameOff s p a disp
    frameAccess p s f o len.toNat ((setSq p r 0 s).modSeq p (fun q => { q with past := f.pastEnd o len.toNat }))
      (nextU p ((setSq p r (BitVec.ofNat 48 (fieldNum e (f.slice o len.toNat))) s).modSeq p
        (fun q => { q with past := f.pastEnd o len.toNat })))
  | _ => none)

def execUDep (p : Port) (s : State) : Res := microCmd p s (fun f u =>
  match u with
  | .dep r a e len disp =>
    let o := frameOff s p a disp
    frameAccess p s f o len.toNat s (nextU p (depositAt p f o (fieldBytes e len.toNat (sqReg s p r).toNat) s))
  | _ => none)

def execUIncf (p : Port) (s : State) : Res := microCmd p s (fun f u =>
  match u with
  | .incf a e len disp x =>
    let o := frameOff s p a disp
    frameAccess p s f o len.toNat s
      (nextU p (depositAt p f o (fieldBytes e len.toNat (fieldNum e (f.slice o len.toNat) + x.toNat)) s))
  | _ => none)

/-- FADD (R37): an 8-byte field, first byte highest, plus a sign-extended register. -/
def faddField (f : Frame) (o : Nat) (v : Word) : List Byte :=
  bytesBE 8 (BitVec.ofNat 64 (natBE (f.slice o 8)) + v.signExtend 64).toNat

def execUFadd (p : Port) (s : State) : Res := microCmd p s (fun f u =>
  match u with
  | .fadd r a disp =>
    let o := frameOff s p a disp
    frameAccess p s f o 8 s (nextU p (depositAt p f o (faddField f o (sqReg s p r)) s))
  | _ => none)

/-- CPY (R37): frame bytes go to cluster memory. -/
def copyOut (p : Port) (f : Frame) (b : BitVec 2) (off o n : Nat) (s : State) : State :=
  let r := seqWrite s p f b off (f.slice o n)
  if r.2 then nextU p r.1 else r.1

/-- CPY outside the window: its read returns 0 (R33), so zeros go to cluster memory before the frame is abandoned (DEDUCED, log
entry 68). -/
def copyZero (p : Port) (f : Frame) (b : BitVec 2) (off n : Nat) (s : State) : State :=
  let r := seqWrite s p f b off (List.replicate n 0)
  if r.2 then r.1 else s

def execUCpy (p : Port) (s : State) : Res := microCmd p s (fun f u =>
  match u with
  | .cpy t a b n disp =>
    let o := frameOff s p a disp
    frameAccess p s f o (n.toNat + 1) (copyZero p f b (memOff s p t) (n.toNat + 1) s) (copyOut p f b (memOff s p t) o (n.toNat + 1) s)
  | _ => none)

/-- FIL (R37): cluster-memory bytes go to the frame. -/
def copyIn (p : Port) (f : Frame) (b : BitVec 2) (off o n : Nat) (s : State) : State :=
  match seqRead s p b off n with
  | (some bs, s) => nextU p (depositAt p f o bs s)
  | (none, s) => abandonFrame s p f

def execUFil (p : Port) (s : State) : Res := microCmd p s (fun f u =>
  match u with
  | .fil t a b n disp =>
    let o := frameOff s p a disp
    frameAccess p s f o (n.toNat + 1) s (copyIn p f b (memOff s p t) o (n.toNat + 1) s)
  | _ => none)

def execULdm (p : Port) (s : State) : Res := microCmd p s (fun f u =>
  match u with
  | .ldm r a b len disp =>
    match seqRead s p b (memOff s p a + disp.toNat) len.toNat with
    | (some bs, t) => some (nextU p (setSq p r (BitVec.ofNat 48 (natLE bs)) t))
    | (none, t) => some (abandonFrame t p f)
  | _ => none)

def execUStm (p : Port) (s : State) : Res := microCmd p s (fun f u =>
  match u with
  | .stm r a b len disp =>
    let x := seqWrite s p f b (memOff s p a + disp.toNat) (bytesLE len.toNat (sqReg s p r).toNat)
    some (if x.2 then nextU p x.1 else x.1)
  | _ => none)

def execUAtm (p : Port) (s : State) : Res := microCmd p s (fun f u =>
  match u with
  | .atm r a b len disp =>
    let off := memOff s p a + disp.toNat
    let s := fieldNote p b off len.toNat s
    match fieldAt s p b off len.toNat with
    | none => some (abandonFrame s p f)
    | some v =>
      let x := seqWrite s p f b off (bytesLE len.toNat (v + (sqReg s p r).toNat))
      some (if x.2 then nextU p x.1 else x.1)
  | _ => none)

def execUCmpr (p : Port) (s : State) : Res := microCmd p s (fun _ u =>
  match u with
  | .cmpr c a b mode => some (nextU p (s.modSeq p (fun q => { q with
      cmp := q.cmp.set c.toNat { q.cmp[c.toFin] with ref := q.reg a, mask := q.reg b, mode := mode } (by omega) })))
  | _ => none)

def execUCmp (p : Port) (s : State) : Res := microCmd p s (fun _ u =>
  match u with
  | .cmp c a => some (nextU p (latchCmp p c (sqReg s p a) s))
  | _ => none)

def execUCmpf (p : Port) (s : State) : Res := microCmd p s (fun f u =>
  match u with
  | .cmpf c a e len disp =>
    let o := frameOff s p a disp
    frameAccess p s f o len.toNat ((latchCmp p c 0 s).modSeq p (fun q => { q with past := f.pastEnd o len.toNat }))
      (nextU p ((latchCmp p c (BitVec.ofNat 48 (fieldNum e (f.slice o len.toNat))) s).modSeq p
        (fun q => { q with past := f.pastEnd o len.toNat })))
  | _ => none)

def execUBr (p : Port) (s : State) : Res := microCmd p s (fun f u =>
  match u with
  | .br c pol tgt => some (if condition s p f c.toNat = pol then jumpU p tgt s else nextU p s)
  | _ => none)

def execUJmp (p : Port) (s : State) : Res := microCmd p s (fun _ u =>
  match u with
  | .jmp tgt => some (jumpU p tgt s)
  | _ => none)

def execUCall (p : Port) (s : State) : Res := microCmd p s (fun f u =>
  match u with
  | .call tgt =>
    if 4 ≤ (s.port p).seq.stk.length then some (illegalWord s p f (WSQ.ERR.STK p))
    else some (jumpU p tgt (s.modSeq p (fun q => { q with stk := (q.upc + 1) :: q.stk })))
  | _ => none)

def execURet (p : Port) (s : State) : Res := microCmd p s (fun f u =>
  match u with
  | .ret =>
    match (s.port p).seq.stk with
    | [] => some (illegalWord s p f (WSQ.ERR.STK p))
    | a :: t => some (jumpU p a (s.modSeq p (fun q => { q with stk := t })))
  | _ => none)

def execUNxw (p : Port) (s : State) : Res := microCmd p s (fun f u =>
  match u with
  | .nxw => some (dispatch s p f)
  | _ => none)

def execUWjmp (p : Port) (s : State) : Res := microCmd p s (fun f u =>
  match u with
  | .wjmp src r widx =>
    some (dispatch (s.modSeq p (fun q => { q with wpc := if src then (q.reg r).extractLsb' 0 10 else widx })) p f)
  | _ => none)

def execUNxg (p : Port) (s : State) : Res := microCmd p s (fun f u =>
  match u with
  | .nxg => some (nextU p (nextGrain p f s))
  | _ => none)

def execUSkto (p : Port) (s : State) : Res := microCmd p s (fun f u =>
  match u with
  | .skto a disp => some (nextU p (s.modFrame p f.fctr (fun g => { g with cur := skipTo g (frameOff s p a disp) })))
  | _ => none)

def execUEndf (p : Port) (s : State) : Res := microCmd p s (fun f u =>
  match u with
  | .endf => some (endProgram s p f)
  | _ => none)

/-- CMT (R37): the commit is armed; a frame whose FCS is known bad has none (R73). -/
def armCommit (p : Port) (f : Frame) (s : State) : State :=
  s.modFrame p f.fctr (fun g => { g with fate := { g.fate with cmt := g.fate.verdict != some false } })

def execUCmt (p : Port) (s : State) : Res := microCmd p s (fun f u =>
  match u with
  | .cmt => some (nextU p (armCommit p f s))
  | _ => none)

def execUDisc (p : Port) (s : State) : Res := microCmd p s (fun f u =>
  match u with
  | .disc => some (discardFrame s p f)
  | _ => none)

def execUWait (p : Port) (s : State) : Res := microCmd p s (fun f u =>
  match u with
  | .wait c pol => if condition s p f c.toNat = pol then some (nextU p s) else none
  | _ => none)

def execUTsi (p : Port) (s : State) : Res := microCmd p s (fun f u =>
  match u with
  | .tsi dom a point fmt disp =>
    let bs := tsiBytes (tsiStamp s p f dom.toFin point) fmt.toNat
    let o := frameOff s p a disp
    frameAccess p s f o bs.length s (nextU p (depositAt p f o bs s))
  | _ => none)

/-- F0 or F1 takes a value. -/
def setFlag (p : Port) (flag v : Bool) (s : State) : State :=
  s.modSeq p (fun q => if flag then { q with f1 := v } else { q with f0 := v })

def execUSetf (p : Port) (s : State) : Res := microCmd p s (fun _ u =>
  match u with
  | .setf flag v => some (nextU p (setFlag p flag v s))
  | _ => none)

def execUQue (p : Port) (s : State) : Res := microCmd p s (fun f u =>
  match u with
  | .que q => some (nextU p (queFrame p f q s))
  | _ => none)

/-- The program on a frame posts an event record; a ring pointer with a double-bit error ends it like a window violation (R299), with
the registers as `regs` leaves them. -/
def signalEvent (p : Port) (f : Frame) (code : Nat) (regs next : State → State) (s : State) : State :=
  if s.memBad (privAddr s p 0x90) 8 then abandonFrame (noteRead (privAddr s p 0x90) 8 (regs s)) p f
  else next (postEvent s p (eventRecord s p f code (s.port p).seq.wop.toNat))

def execUSig (p : Port) (s : State) : Res := microCmd p s (fun f u =>
  match u with
  | .sig code => some (signalEvent p f code.toNat id (nextU p) s)
  | _ => none)

end Sys2Proof.Machine
end

