-- ==== Sys2Proof/Machine/Rings.lean ====
section
/-! DEFINITION. What the ports and the twin controller know of the Tiller rings: ring state, own address, events, the bank
switch at the end of a frame with NEXTLAYOUT, and a returned SHEAF that arrives late (R128, R139, R147, R149, R151, R165). -/

namespace Sys2Proof.Machine

open Reg

/-! ### Rings (R125, R128, R139) -/

def State.ring (s : State) (r : Clu) : RingSt := s.rings[r]

def State.modRing (s : State) (r : Clu) (g : RingSt → RingSt) : State := { s with rings := s.rings.set r (g s.rings[r]) }

/-- Port A or B of a ring. -/
def ringPort (r : Clu) (b : Bool) : Port := ⟨2 * r.val + b.toNat, by cases b <;> simp <;> omega⟩

/-- Both ports of a ring. -/
def ringPorts (r : Clu) : List Port := [ringPort r false, ringPort r true]

/-- TIL.RINGr.STAT.STATE (R139): 0 OFF, 1 LISTEN, 2 CLAIM, 3 MASTER, 4 UNNUMBERED, 5 MEMBER. -/
def ringState (s : State) (r : Clu) : Nat := s.get (TIL.RING.STAT.STATE r)

def setRingState (r : Clu) (st : Nat) (s : State) : State := s.put (TIL.RING.STAT.STATE r) st

/-- The node's own address as the private area of a port holds it, and whether it is numbered (R149). -/
def ownAddr (s : State) (p : Port) : Nat := s.load (privAddr s p 0x3A0) 4 % 2 ^ 18

def numbered (s : State) (p : Port) : Bool := (s.load (privAddr s p 0x3A0) 4).testBit 31

/-- A number goes to the private areas of both ports of a ring. -/
def putPriv (r : Clu) (o n v : Nat) (s : State) : State :=
  (ringPorts r).foldl (fun t p => hwStoreN (privAddr t p o) n v t) s

/-- The node is node 1, the master of its segment (R128). -/
def isMaster (s : State) (p : Port) : Bool := numbered s p && ownAddr s p % 512 == 1

/-! ### Fields of a frame (R130, R131) -/

/-- A field of the frame, its first byte highest (R130). -/
def Frame.num (f : Frame) (o n : Nat) : Nat := natBE (f.slice o n)

/-- A Tiller frame (R131). -/
def isTiller (s : State) (f : Frame) : Bool := f.num 12 2 == s.get TIL.ETYPE.TYPE && f.byte 14 == 1

/-! ### Events (R165) -/

/-- The record of a ring event that no wire program raises. The manual gives it the event's code and port A of the ring; it names
no wire op and no frame, and those fields are free (log entry 70). -/
def ringRecord (s : State) (r : Clu) (b : Nat) : List Byte :=
  let v := (s.freeVal 82).toNat
  bytesLE 1 (0x41 + b) ++ bytesLE 1 (ringPort r false).val ++ bytesLE 2 (v % 2 ^ 10) ++ bytesLE 3 (v / 2 ^ 10) ++ bytesLE 1 0 ++
    bytesLE 6 (v / 2 ^ 34) ++ bytesLE 2 0

/-- An event of a ring that no wire program raises: its bit, and its record on port A (R79, R165). -/
def ringEvent (r : Clu) (b : Nat) (s : State) : State :=
  postEvent (s.raiseBit (TIL.RING.EVT.EVT r) b).took (ringPort r false) (ringRecord s r b)

/-! ### The bank switch (R147) -/

/-- The own slot of a staged program goes into entry 0 of the slot table; without one, the entry names no own slot (R149). -/
def ownEntry (r : Clu) (own : Option (Nat × Nat)) (s : State) : State :=
  let a := privAddr s (ringPort r false) 0x820
  let rest := (s.load (a + 7) 1) / 2 * 2
  match own with
  | some (o, l) => hwStoreN (a + 7) 1 (rest + 1) (hwStore a (bytesLE 2 o ++ bytesLE 2 l) s)
  | none => hwStoreN (a + 7) 1 rest s

/-- Port A runs the staged program from its next frame start on, and the contribution to word 1 returns to 0 (R44, R147). -/
def takeStaged (r : Clu) (s : State) : State :=
  let p := ringPort r false
  let own := (s.ring r).staged
  let s := s.put (WSQ.CTRL.WPBANK p) (1 - s.get (WSQ.CTRL.WPBANK p))
  let s := match own with
    | some x => ownEntry r x s
    | none => s
  putPriv r 0x3D8 8 0 (s.modRing r (fun x => { x with staged := none }))

/-- The end of a frame that carried NEXTLAYOUT (R147). -/
def frameEnd (p : Port) (k : Word) (s : State) : State :=
  match (s.port p).tun.find? (fun g => g.fctr == k && g.swap && g.eof) with
  | some _ => takeStaged (cluOf p) (s.modFrame p k (fun g => { g with swap := false }))
  | none => s

/-! ### A returned SHEAF that arrives late (R151) -/

/-- The frame is a SHEAF of this master that has come round: it arrives on port A, with the node's own SRC and LAUNCHED set. -/
def returnedSheaf (s : State) (p : Port) (f : Frame) : Bool :=
  p == ringPort (cluOf p) false && !f.thru && ringState s (cluOf p) == 3 && isTiller s f && f.byte 15 == 1 &&
    f.num 16 3 % 2 ^ 18 == ownAddr s p && (f.num 30 2).testBit 15

/-- The ns from the launch of a returned SHEAF to its byte 0: of the last launch, or of the one before it where the frame's CYCLE
is an older one. -/
def loopStart (s : State) (p : Port) (f : Frame) : Nat :=
  let x := s.ring (cluOf p)
  let sec := 1000000000 * 2 ^ 18
  let from' := if f.num 24 6 = x.cycle.toNat then x.launch else x.prior
  ((f.stamps[(0 : Fin 4)]).lo.toNat + sec - from') % sec / 2 ^ 18

/-- The time in ns that a number of bytes takes on the receive interface. -/
def bytesNs (s : State) (p : Port) (n : Nat) : Nat := n * byteTimePs (s.get (LP.STAT.RATE p)) / 1000

/-- A returned SHEAF that is still arriving when the next launch begins: LOOPLONG is raised, and its length goes on being
counted (R151). -/
def noteLate (p : Port) (f : Frame) (s : State) : State :=
  if returnedSheaf s p f then
    ringEvent (cluOf p) 9 (s.modPort p (fun x => { x with late := some (loopStart s p f, f.bytes.length) }))
  else s

/-- A grain of an ignored frame: at the end of a late SHEAF LOOPNS takes its closed-loop time (R81, R151). -/
def ignoreGrain (p : Port) (n : Nat) (last : Bool) (s : State) : State :=
  let s' := s.modPort p (fun y => { y with ignore := !last, late := if last then none else y.late.map (fun l => (l.1, l.2 + n)) })
  match (s.port p).late with
  | some (t, k) => if last then s'.put (TIL.RING.LOOPNS.NS (cluOf p)) (t + bytesNs s p (k + n)) else s'
  | none => s'

end Sys2Proof.Machine
end

