-- ==== Sys2Proof/Machine/Lauter.lean ====
section
/-! DEFINITION. Grains, frame starts, release points, FCS verdicts, commits and queue entries (R22, R25, R39, R52, R73,
R78). -/

namespace Sys2Proof.Machine

open Reg

/-- The frame that is still arriving. -/
def State.arriving (s : State) (p : Port) : Option Frame := (s.port p).tun.find? (fun f => !f.eof)

/-- A grain joins its frame; with the last one the end of the frame is known, and a current grain beyond it falls back
to it (R34). -/
def Frame.addGrain (f : Frame) (bs : List Byte) (last : Bool) : Frame :=
  let g := { f with bytes := f.bytes ++ bs, eof := last }
  if last then { g with cur := min g.cur ((g.bytes.length - 1) / 16) } else g

/-- A grain as the pipeline packs it (R21): 16 bytes, or as the frame's last grain 1 to 16. -/
def grainShape (bytes : List Byte) (last : Bool) : Bool :=
  bytes.length == 16 || (last && decide (1 ≤ bytes.length ∧ bytes.length ≤ 16))

/-- A frame enters the lauter pipeline (R25, R28, R35, R45). EGR, SAF, the links, the partner's state and the rates are sampled
once for the frame, when its grain 0 becomes available: R28 and R31 name no instant (DESIGN CHOICE, log entry 68). -/
def enterFrame (s : State) (p : Port) (bs : List Byte) (last thru fwd : Bool) (st : Vector Stamp 4) (age : Nat) : State :=
  let s := noteRate s p
  let k := (s.port p).fctr + 1
  let f : Frame :=
    { fctr := k, bytes := bs, dep := [], eof := last, stamps := st, thru := thru, prog := .waiting, cur := 0, left := 0,
      egress := egressOf s p fwd, ques := [], dupKey := none, sent := false, swap := false, age := age,
      fate := { verdict := none, cut := false, linkLost := false, gone := false, stomp := false, chaffed := false, stomped := false,
                wroteFill := false, cmt := false, saf := s.on (WSQ.CTRL.SAF p) } }
  let busy := (s.port p).tun.any (fun g => g.prog != .done)
  let s := s.modPort p (fun x => { x with tun := x.tun ++ [f], fctr := k })
  if busy then s else startFrame s p f

/-- A grain joins a frame of the tun. -/
def growFrame (p : Port) (k : Word) (bs : List Byte) (last : Bool) (s : State) : State :=
  frameEnd p k (s.modFrame p k (fun g => g.addGrain bs last))

/-- The bytes of grain `k` of a THRU frame: memory bytes, then the FCS that the MAC appends (R81). -/
def thruBytes (s : State) (t : TxFrame) : List Byte :=
  let d := s.bytes t.addr t.len
  d ++ bytesLE 4 (fcs d).toNat

/-- The bytes of a THRU frame from offset `o` that make its next grain, as far as they can be read; whether the frame ends with
them; and whether a read error ends it (R81). -/
def thruPiece (s : State) (t : TxFrame) (o : Nat) : List Byte × Bool × Bool :=
  let n := min 16 (t.len - o)
  match (List.range n).find? (fun k => !s.readable (t.addr + o + k) 1) with
  | some k => (s.bytes (t.addr + o) k, true, true)
  | none =>
    let all := thruBytes s t
    ((all.drop o).take 16, decide (all.length ≤ o + 16), false)

/-- A THRU frame has entered the pipeline, with its status (R81). -/
def thruDone (p : Port) (t : TxFrame) (st : Nat) (s : State) : State :=
  s.modPort p (fun y => { y with thru := some { t with ended := some st } })

/-- A read error ends a THRU frame early: its last grain leaves with a stomped FCS, counted as chaff (R81). -/
def thruCut (p : Port) (t : TxFrame) (k : Word) (s : State) : State :=
  let s := s.modFrame p k (fun g => { g with fate := { g.fate with cut := true } })
  match (s.port p).tun.find? (fun g => g.fctr == k) with
  | some g => thruDone p t 6 (stompFrame s p g)
  | none => thruDone p t 6 s

/-- The next grain of a THRU frame enters; a read error ends the frame early with STATUS 0x06 (R81). -/
def thruGrain (p : Port) (f : Frame) (t : TxFrame) (s : State) : State :=
  let o := f.bytes.length
  let x := thruPiece s t o
  let s := growFrame p f.fctr x.1 x.2.1 (noteRead (t.addr + o) (min 16 (t.len - o)) s)
  if x.2.2 then thruCut p t f.fctr s else if x.2.1 then thruDone p t 0 s else s

/-- The first grain of a THRU frame enters. With a first byte that cannot be read any more, nothing has entered and nothing is sent
(R81). -/
def thruStart (p : Port) (t : TxFrame) (fwd : Bool) (s : State) : State :=
  let x := thruPiece s t 0
  let s := noteRead t.addr (min 16 t.len) s
  if x.1.isEmpty then thruDone p t 6 s
  else
    let s := if x.2.1 && !x.2.2 then thruDone p t 0 s else s
    let s := enterFrame s p x.1 x.2.1 true fwd (s.port p).launched (s.port p).launchAge
    if x.2.2 then thruCut p t (s.port p).fctr s else s

/-- GRAIN_AVAILABLE (R25): a grain of a received frame, or of the THRU frame that is entering (`thru`). `before` says
on which side of the last writes of PX.CTRL.EN the frame's byte 0 reached the receive interface (R86, R87). The pipeline never hands over a grain
that R21 excludes, and without link a port receives nothing (R422): such a command changes nothing. `age` and
`tap` place the receive edge of a first grain: cycles before this one, and interpolator tap (R99). PQ.DROPCNT counts the frames that
R81 ignores and not those of R86 and R87, of which the manual does not say it (DESIGN CHOICE, log entry 68). -/
def execGrainAvailable (p : Port) (bytes : List Byte) (last thru : Bool) (before : Before) (age tap : Nat) (s : State) : Res :=
  let x := s.port p
  if !thru && !s.bit GLB.MI.LINK.LINK p.val then .next s
  else
  match s.arriving p with
  | some f =>
    if f.thru = thru then
      match thru, x.thru with
      | true, some t => .next (thruGrain p f t s)
      | true, none => .next s
      | false, _ => if grainShape bytes last then .next (growFrame p f.fctr bytes last s) else .next s
    else if x.ignore then .next (ignoreGrain p bytes.length last s)
    else if f.thru then .next ((s.count (PQ.DROPCNT.CNT p)).modPort p (fun y => { y with ignore := !last }))
    else .next s
  | none =>
    if thru then
      match x.thru with
      | some t =>
        if t.ended.isSome then .next s else .next (thruStart p t before.partner s)
      | none => .next s
    else if x.ignore then .next (ignoreGrain p bytes.length last s)
    else if x.thru.isSome && (x.thru.map (·.ended)) == some none then
      .next ((s.count (PQ.DROPCNT.CNT p)).modPort p (fun y => { y with ignore := !last }))
    else if s.on (PX.STAT.ENACT p) && (s.on (PX.STAT.DRAIN p) == before.own) then
      if grainShape bytes last then .next (enterFrame s p bytes last false before.partner (s.stamps age tap) (16 * age - tap)) else .next s
    else .next (s.modPort p (fun y => { y with ignore := !last }))

/-- FRAME_START (R39): the program of the next waiting frame starts, once the previous program has ended and while
grain 0 has not reached its release point. -/
def execFrameStart (p : Port) (s : State) : Res :=
  match s.running p, (s.port p).tun.find? (fun f => f.prog == .waiting) with
  | none, some f => if f.left = 0 then .next (startFrame s p f) else .next s
  | _, _ => .next s

/-- Grain 0 of a frame whose program has not started reaches its release point: the running program ends as ENDF would
end it, and the frame is handled as overrun at grain 0 (R40). -/
def lateStart (s : State) (p : Port) (f : Frame) : State :=
  let s :=
    match s.running p with
    | some g => endProgram s p g
    | none => s
  let s := (s.raise (WSQ.ERR.OVR p)).put (WSQ.OVR.UADDR p) (s.port p).seq.upc.toNat
  let s := s.put (WSQ.OVR.GRAIN p) 0
  stompFrame (s.modFrame p f.fctr (fun g => { g with prog := .done })) p f

/-- The checks at a release point (R31, R29, R40, R52). -/
def releaseChecks (s : State) (p : Port) (f : Frame) : State :=
  let s :=
    if f.left = 0 && f.prog == .waiting then lateStart s p f
    else if f.prog == .running && decide (f.cur = f.left) then overrun s p f f.left
    else s
  if f.left = 0 then meetEgress (safTest s p f) p f else s

/-- RELEASE_POINT (R25, R52): the release point of the next grain to leave comes. With its last grain a frame goes out, unless
its program still runs: until its last FCS byte leaves it can still be stomped (R53). -/
def execReleasePoint (p : Port) (s : State) : Res :=
  match s.leaving p with
  | none => .next s
  | some f =>
    if 16 * f.left < f.bytes.length then
      let s := releaseChecks s p f
      let s := s.modFrame p f.fctr (fun g => { g with left := g.left + 1 })
      .next (settleFrame s p f.fctr)
    else .next s

/-- FCS_VERDICT (R22): the verdict of the oldest frame that waits for it. A bad verdict cancels an armed commit, poisons a
FILL buffer that the frame wrote (R75) and counts in WSQ.RXBAD (R30), a frame that the link's fall ended included (R422); a frame
that a THRU launch ended, or a THRU frame that a read error ended, was not received with a bad FCS (R81). -/
def execFcsVerdict (p : Port) (s : State) : Res :=
  match (s.port p).tun.find? (fun f => f.eof && f.fate.verdict.isNone) with
  | none => .next s
  | some f =>
    let good := f.fcsGood
    let s := s.modFrame p f.fctr (fun g =>
      { g with fate := { g.fate with verdict := some good, cmt := g.fate.cmt && good } })
    let s := if good then s else poisonIfWrote (if f.fate.cut && !f.fate.linkLost then s else s.count (WSQ.RXBAD.CNT p)) p f
    .next (retireFrames s p)

/-- An armed commit meets a good verdict (R73). -/
def bufferCommit (p : Port) (s : State) : State :=
  match (s.port p).tun.find? (fun f => f.fate.cmt && f.fate.verdict == some true) with
  | none => s
  | some f =>
    let s := s.modFrame p f.fctr (fun g => { g with fate := { g.fate with cmt := false } })
    retireFrames (commitImage s p) p

/-- The frame whose queue copies become visible next (R78): its end, verdict and program end are known. -/
def visibleFrame (s : State) (p : Port) : Option Frame :=
  (s.port p).tun.find? (fun f => f.eof && f.fate.verdict.isSome && f.prog == .done && !f.ques.isEmpty)

/-- The queue copies of a frame become visible (R78). -/
def showQueued (p : Port) (f : Frame) (s : State) : State :=
  let s := f.ques.foldl (fun t c => queueCopy t p f c) s
  retireFrames (s.modFrame p f.fctr (fun g => { g with ques := [] })) p

end Sys2Proof.Machine
end

