-- ==== Sys2Proof/Machine/Permit.lean ====
section
/-! DEFINITION. The power permit unit (R402-R404). -/

namespace Sys2Proof.Machine

open Reg

/-- The cost of a requester's permit in mW; the memory tester's operations are 0 copy, 1 march, 2 scratchpad test (R402). -/
def permitCost (r op : Nat) : Nat :=
  if r < 8 then 16
  else match r with
    | 8 => if op = 0 then 12 else if op = 1 then 18 else 10
    | 9 => 8
    | 10 => 40
    | 11 => 30
    | _ => 24

/-- The requester holds a permit. -/
def State.holds (s : State) (r : Nat) : Bool := s.permit.granted.any (fun e => e.1 == r)

/-- The requester has a request waiting, set aside or granted (R402). -/
def State.hasRequest (s : State) (r : Nat) : Bool :=
  s.holds r || s.permit.queue.any (fun e => e.1 == r) || s.permit.aside.any (fun e => e.1 == r)

/-- The sum of the costs granted. -/
def grantedMw (s : State) : Nat := (s.permit.granted.map (·.2)).sum

/-- A requester asks for a permit (R404). -/
def askPermit (r op : Nat) (s : State) : State :=
  let c := permitCost r op
  if s.hasRequest r then s
  else if s.get PERMIT.BUDGET.MW < c then
    { s with permit := { s.permit with aside := s.permit.aside ++ [(r, c)] } }.raise PWR.EVT.STUCK
  else { s with permit := { s.permit with queue := s.permit.queue ++ [(r, c)] } }

/-- A requester releases its permit, or withdraws its request (R402, R404). -/
def dropPermit (r : Nat) (s : State) : State :=
  let out (l : List (Nat × Nat)) := l.filter (fun e => e.1 != r)
  { s with permit := { granted := out s.permit.granted, queue := out s.permit.queue, aside := out s.permit.aside } }

/-- PERMIT_REQUEST (R404). -/
def execPermitRequest (r : Fin 13) (op : Nat) (s : State) : Res := .next (askPermit r op s)

/-- The copy or the march of a granary test begins with its permit (R304); while MGMT is in IDLE the tester pauses between
phases (R394). -/
def beginPhase (e : Nat × Nat) (s : State) : State :=
  if s.mode 0 == 0 && s.tester.test.isSome && e.1 == 8 then
    if e.2 = permitCost 8 0 then s.put MEMT.STAT.PHASE 1
    else if e.2 = permitCost 8 1 then s.put MEMT.STAT.PHASE 3
    else s
  else s

/-- The head of the queue is granted if it fits the available figure (R404). -/
def grantHead (s : State) : State :=
  match s.permit.queue with
  | [] => s
  | e :: t =>
    if grantedMw s + e.2 ≤ s.get PERMIT.BUDGET.MW then
      beginPhase e { s with permit := { s.permit with granted := s.permit.granted ++ [e], queue := t } }
    else s

/-- PERMIT_GRANT (R404). -/
def execPermitGrant (s : State) : Res := .next (grantHead s)

/-- PERMIT_RELEASE (R402). -/
def execPermitRelease (r : Fin 13) (s : State) : Res :=
  .next { s with permit := { s.permit with granted := s.permit.granted.filter (fun e => e.1 != r.val) } }

/-- BUDGET as R403 computes it. -/
def budgetOf (s : State) : Nat :=
  1500 - min (s.get PWR.CAP.RED) 500 - (if s.on TU.CTRL.FINE then 1418 else 1373)

/-- BUDGET is recomputed; requests that can no longer fit are set aside, and those that now can join the tail (R403,
R404). -/
def recomputeBudget (s : State) : State :=
  let b := budgetOf s
  let s := s.put PERMIT.BUDGET.MW b
  let q := s.permit
  let tooBig := q.queue.filter (fun e => decide (b < e.2))
  let s := { s with permit := { q with
    queue := q.queue.filter (fun e => decide (e.2 ≤ b)) ++ q.aside.filter (fun e => decide (e.2 ≤ b))
    aside := q.aside.filter (fun e => decide (b < e.2)) ++ tooBig } }
  if tooBig.isEmpty then s else s.raise PWR.EVT.STUCK

/-- BUDGET_CHANGE (R403). -/
def execBudgetChange (s : State) : Res := .next (recomputeBudget s)

end Sys2Proof.Machine
end

