-- ==== Sys2Proof/Machine/Timers.lean ====
section
/-! DEFINITION. The time unit's commands, PPS outputs, timer pins, compare and capture channels, windows, calibration and
the make-up after sleep (file 04). -/

namespace Sys2Proof.Machine

open Reg

/-! ### Power modes of the domains (R394) -/

/-- A register of a power domain's mode. -/
def modeFld (d : Nat) : Fld :=
  match d with
  | 0 => PWR.STAT.MGMT
  | 1 => PWR.STAT.CL0
  | 2 => PWR.STAT.CL1
  | 3 => PWR.STAT.CL2
  | _ => PWR.STAT.CL3

/-! ### PPS outputs (R110) -/

/-- The output is held inactive (R110). -/
def ppsHeld (s : State) (k : Nat) : Bool := s.on (TU.PPS.CTRL.GATEU k) && unsync s (s.get (TU.PPS.CTRL.DOM k))

def State.setPps (s : State) (k : Fin 4) (x : PpsSt) : State := { s with pps := s.pps.set k x }

/-- A pulse starts for a second, unless the output is off, held, or has pulsed in it (R110). -/
def startPulse (s : State) (k : Fin 4) (sec : Nat) : State :=
  if s.on (TU.PPS.CTRL.EN k) && !(ppsHeld s k) && !s.pps[k].pulsed.contains sec then
    s.setPps k ⟨true, 0, sec :: s.pps[k].pulsed⟩ else s

/-- The pulse width in force (R110). -/
def ppsWidth (s : State) (k : Nat) : Nat :=
  let w := s.get (TU.PPS.WIDTH.NS k)
  if w < 10 ∨ 1000000000 ≤ w then 100000000 else w

/-- The level of an output: its active level follows POL (R110), and while MGMT is not in RUN or IDLE it is inactive (R439). -/
def ppsLevel (s : State) (k : Fin 4) : Bool := (s.up 0 && s.pps[k].active) != s.on (TU.PPS.CTRL.POL k)

/-- A pulse has stood for its width. The width counts ENG_CLK time, 1.25 ns a cycle, as WIDTH stands (log entry 69). -/
def pulseOver (s : State) (k : Fin 4) : Bool := decide (4 * ppsWidth s k ≤ 5 * s.pps[k].age)

/-- Pulses in progress end where EN is clear, or where the output has become held (R110). -/
def cutPulses (s : State) : State :=
  { s with pps := s.pps.mapFinIdx (fun k x _ =>
      if s.on (TU.PPS.CTRL.EN k) && !(ppsHeld s k) then x else { x with active := false }) }

/-- The second in which the field last stood at OFFS, at a time in ns (R110). -/
def lastOffs (t : TimeDom) (offs : Nat) : Int := if offs ≤ t.ns then (t.hi.toNat : Int) else (t.hi.toNat : Int) - 1

/-- A forward jump of a domain starts the pulses whose OFFS it crosses (R110). The pulse counts for the second in which the field last
stood at OFFS, not for the TIME_HI that the jump leaves, so that the pulse of that second can still follow (DESIGN CHOICE, log entry 76). -/
def jumpPulse (d : Fin 4) (old new : TimeDom) (s : State) (k : Fin 4) : State :=
  let offs := s.get (TU.PPS.OFFS.NS k)
  let sec := lastOffs new offs
  if decide (s.get (TU.PPS.CTRL.DOM k) = d) && decide (offs < 1000000000) && decide (old.total < new.total) &&
      decide ((old.absNs : Int) < sec * 1000000000 + offs) && decide (0 ≤ sec)
  then startPulse s k sec.toNat else s

/-- A line samples its window table at a period start, once (R106). Where PERIOD is 0 no instant is a period start, and the table
is invalid. -/
def sampleLine (s : State) (n : Clu) (l : Fin 4) : State :=
  let g := lineTiming s n l
  let start := periodStart (s.dom g.1) g.2.1 g.2.2
  if startSeen s n l g.1 start then s
  else
  let s := s.modClu n (fun c => { c with seen := c.seen.set l (seeStart g.1 start c.seen[l]) })
  match sampleWindows s n l with
  | some t => s.modClu n (fun c => { c with win := c.win.set l (some t) })
  | none => (s.modClu n (fun c => { c with win := c.win.set l none })).raise (TTW.STAT.CFGERR n l)

/-- A forward jump of a domain across period starts makes its lines sample once (R106). -/
def jumpLine (d : Fin 4) (old new : TimeDom) (s : State) (n : Clu) (l : Fin 4) : State :=
  let g := lineTiming s n l
  if s.on (TTW.CTRL.EN n l) && decide (g.1 = d) && decide (old.total < new.total) && decide (0 < g.2.1) &&
      decide (periodStart old g.2.1 g.2.2 < periodStart new g.2.1 g.2.2)
  then sampleLine s n l else s

/-- EN of a line rises: every window is closed until the first period start after the rise, and none has been sampled (R106). -/
def closeWindows (n : Clu) (l : Fin 4) (s : State) : State :=
  s.modClu n (fun c =>
    { c with win := c.win.set l none, seen := c.seen.set l [], rise := c.rise.set l (s.time.map (fun t => (t.absNs : Int))) })

/-- A jump of a domain backward: the period starts that TIME passes once more are not those before the rise of EN (R106). -/
def unriseLines (d : Fin 4) (new : TimeDom) (c : ClusterSt) : ClusterSt :=
  { c with rise := c.rise.map (fun r => r.set d (min r[d] (new.absNs : Int))) }

/-- Every effect of a jump of a domain's time (R106, R110). -/
def timeJump (d : Fin 4) (new : TimeDom) (s : State) : State :=
  let old := s.dom d
  let s := s.setDom d (old.change new)
  let s := { s with clusters := s.clusters.map (unriseLines d new) }
  let s := (List.finRange 4).foldl (jumpPulse d old new) s
  (List.finRange 4).foldl (fun t n => (List.finRange 4).foldl (fun u l => jumpLine d old new u n l) t) s

/-! ### The domains' commands (R93, R94) -/

/-- The SET of R94: the staged time, unless its nanosecond field is out of range. -/
def stagedTime (s : State) (d : Fin 4) : Option TimeDom :=
  let lo := s.get48 (TU.D.SETL_L.LO d) (TU.D.SETL_H.LO d)
  if 1000000000 ≤ lo.toNat / 2 ^ 18 then none
  else some { s.dom d with hi := s.get48 (TU.D.SETS_L.SEC d) (TU.D.SETS_H.SEC d), lo := lo, ext := 0 }

/-- The STEP of R94. -/
def steppedTime (s : State) (d : Fin 4) (t : TimeDom) : TimeDom :=
  t.move (toSigned 48 (s.get48 (TU.D.STEP_L.STEP d) (TU.D.STEP_H.STEP d)).toNat * 2 ^ 32)

/-- TU.Dd.CMD (R94). -/
def timeCmd (d : Fin 4) (set step : Bool) (s : State) : State :=
  let base := if set then stagedTime s d else some (s.dom d)
  match base with
  | none => s.raise (TU.D.STAT.SETERR d)
  | some t =>
    if set || step then (timeJump d (if step then steppedTime s d t else t) s).raise (TU.D.STAT.STEPPED d) else s

/-- TIME_SET (R94). -/
def execTimeSet (d : Fin 4) (s : State) : Res := .next (timeCmd d true false s)

/-- TIME_STEP (R94). -/
def execTimeStep (d : Fin 4) (s : State) : Res := .next (timeCmd d false true s)

/-- A rate word within the clamp of R93. -/
def clampAdj (v : Word) : Word × Bool :=
  let x := toSigned 48 v.toNat
  if 2 ^ 39 < x then (BitVec.ofNat 48 (2 ^ 39), true)
  else if x < -(2 ^ 39) then (BitVec.ofInt 48 (-(2 ^ 39)), true)
  else (v, false)

/-- A rate word takes force (R93). The ADJ registers read as the word in force; the low half that the host holds stays. -/
def setAdj (d : Fin 4) (v : Word) (s : State) : State :=
  let r := clampAdj v
  let s := s.setDom d ((s.dom d).change { s.dom d with adj := r.1 })
  let s := s.put48 (TU.D.ADJ_L.ADJ d) (TU.D.ADJ_H.ADJ d) r.1
  if r.2 then s.raise (TU.D.STAT.RATECLAMP d) else s

/-- ADJ_WRITE (R93): a host write of ADJ_H applies the word together with the held low half. -/
def execAdjWrite (d : Fin 4) (v : BitVec 16) (s : State) : Res :=
  .next (setAdj d (v ++ (s.dom d).held) s)

/-- A host write of ADJ_L is held (R93). -/
def holdAdj (d : Fin 4) (v : BitVec 32) (s : State) : State :=
  (s.setDom d { s.dom d with held := v }).put (TU.D.ADJ_L.ADJ d) v.toNat

/-! ### Calibration (R102) -/

/-- Calibration is on. -/
def calibrates (s : State) : Bool := s.on TU.CTRL.CALEN && s.on TU.CTRL.FINE

/-- CALIBRATION_ROUND (R102): a round asks for its permit; it begins with port 0. -/
def execCalibrationRound (s : State) : Res :=
  .next (if calibrates s && s.calib.next.isNone then
    askPermit 9 0 { s with calib := { s.calib with next := some 0 } } else s)

/-- Calibration ends where CALEN or FINE is clear: the round stops and its permit is released or withdrawn (R99, R102). -/
def checkCalibration (s : State) : State :=
  if calibrates s || s.calib.next.isNone then s else dropPermit 9 { s with calib := { s.calib with next := none } }

/-- PORT_CALIBRATED (R102): within a round, in port-index order; the round ends with port 8. -/
def execPortCalibrated (p : Fin 9) (s : State) : Res :=
  if calibrates s && s.holds 9 && s.calib.next == some p.val then
    let s := s.raiseBit TU.STAT.CALOK p
    let last := decide (p.val = 8)
    let s := { s with calib := { next := if last then none else some (p.val + 1), counts := s.calib.counts.set p 0 } }
    .next (if last then dropPermit 9 s else s)
  else .next s

/-- The count of a port has reached 4 × CALPER seconds; CALPER 0 is handled as 1 (R102). -/
def overdue (s : State) (p : Fin 9) : Bool :=
  decide (16 * (max 1 (s.get TU.CTRL.CALPER) * 1000000000) ≤ 5 * s.calib.counts[p])

/-- CALSTALE (R102): the count of a port reaches 4 × CALPER seconds. -/
def execCalstale (p : Fin 9) (s : State) : Res := .next (if overdue s p then s.raiseBit TU.STAT.CALSTALE p else s)

/-- In this cycle the nanosecond field of a domain has reached OFFS, in the second that this answers (R110). -/
def offsReached (t : TimeDom) (offs : Nat) : Option Nat :=
  let sec := lastOffs t offs
  let point : Int := sec * secUnits + offs * 2 ^ 50
  if offs < 1000000000 ∧ 0 ≤ sec ∧ ((t.ago 1).total : Int) < point ∧ point ≤ t.total then some sec.toNat else none

/-- PPS_PULSE (R110): the leading edge, in the cycle in which the nanosecond field reaches OFFS. -/
def execPpsPulse (k : Fin 4) (s : State) : Res :=
  .next (match offsReached (s.dom (Fin.ofNat 4 (s.get (TU.PPS.CTRL.DOM k)))) (s.get (TU.PPS.OFFS.NS k)) with
    | some sec => startPulse s k sec
    | none => s)

/-- PPS_PULSE_END (R110): a pulse that has stood for its width ends. -/
def execPpsPulseEnd (k : Fin 4) (s : State) : Res :=
  .next (if pulseOver s k then s.setPps k { s.pps[k] with active := false } else s)

/-! ### Timer pins (R115) -/

/-- The level a pin action leaves. -/
def pinLevel (act : Nat) (old : Bool) : Bool :=
  match act with
  | 1 => true
  | 2 => false
  | 3 => !old
  | _ => old

/-- A pin action of a source of some rank; of several in one cycle only the highest-ranked one counts, and a pin that software sets in
the cycle ends set (R7, R115). -/
def pinAction (rank act pin : Nat) (s : State) : State :=
  if act = 0 then s
  else
    match s.pinActs.find? (fun e => e.1 == pin) with
    | some e =>
      if rank < e.2.1 then
        State.putBit { s with pinActs := s.pinActs.map (fun x => if x.1 = pin then (pin, rank, x.2.2) else x) }
          TU.TMO.SET.LVL pin (pinLevel act e.2.2 || s.pinSets.contains pin)
      else s
    | none =>
      let old := s.bit TU.TMO.SET.LVL pin
      State.putBit { s with pinActs := (pin, rank, old) :: s.pinActs } TU.TMO.SET.LVL pin (pinLevel act old)

/-- A hardware source has acted on the pin in this cycle (R115). -/
def hwActed (s : State) (pin : Nat) : Bool := (s.pinActs.find? (fun e => e.1 == pin)).any (fun e => decide (e.2.1 < 36))

/-- Software acts on a pin in this cycle: the level that it had before is kept for a hardware action of the same cycle. -/
def softActs (pin : Nat) (s : State) : State :=
  if (s.pinActs.find? (fun e => e.1 == pin)).isSome then s
  else { s with pinActs := (pin, 36, s.bit TU.TMO.SET.LVL pin) :: s.pinActs }

/-- A software set of one pin: it ends set, whatever the hardware does to it in the cycle (R7, R115). -/
def setPin (v : Nat) (s : State) (pin : Nat) : State :=
  if v.testBit pin then State.raiseBit { softActs pin s with pinSets := pin :: s.pinSets } TU.TMO.SET.LVL pin else s

/-- A software clear of one pin: what the hardware has done to it in the cycle stands (R7, R115). -/
def clearPin (v : Nat) (s : State) (pin : Nat) : State :=
  if v.testBit pin && !hwActed s pin then
    State.lowerBit { softActs pin s with pinSets := s.pinSets.filter (· != pin) } TU.TMO.SET.LVL pin
  else s

/-- A software set of pins (R115). -/
def setPins (v : Nat) (s : State) : State := (List.range 32).foldl (setPin v) s

/-- A software clear of pins (R115). -/
def clearPins (v : Nat) (s : State) : State := (List.range 32).foldl (clearPin v) s

/-- TMO_SET (R115). While the block is in reset the pins stay at 0 (R410). -/
def execTmoSet (v : BitVec 32) (s : State) : Res := .next (if s.boot.inReset then s else setPins v.toNat s)

/-- TMO_CLEAR (R115). -/
def execTmoClear (v : BitVec 32) (s : State) : Res := .next (if s.boot.inReset then s else clearPins v.toNat s)

/-- A software toggle of one pin: in a cycle with a hardware action on the pin the toggle loses, whichever comes first
(R115). Software ranks behind the 36 hardware sources. -/
def togglePin (v : Nat) (s : State) (pin : Nat) : State :=
  if v.testBit pin && !hwActed s pin then (softActs pin s).putBit TU.TMO.SET.LVL pin (!(s.bit TU.TMO.SET.LVL pin)) else s

/-- A software toggle of pins (R115). -/
def togglePins (v : Nat) (s : State) : State := (List.range 32).foldl (togglePin v) s

/-- TMO_TOGGLE (R115). -/
def execTmoToggle (v : BitVec 32) (s : State) : Res := .next (if s.boot.inReset then s else togglePins v.toNat s)

/-! ### Compare channels (R111-R114) -/

/-- A compare value takes force and arms the channel (R112). -/
def armCompare (n : Clu) (c : Fin 8) (v : Word) (s : State) : State :=
  ((s.modClu n (fun x => { x with cmp := x.cmp.set c v })).put48 (TMR.CH.CMP_L.CMP n c) (TMR.CH.CMP_H.CMP n c) v).raise
    (TMR.CH.CTRL.ARMED n c)

/-- COMPARE_WRITE (R112, R113): a host write of CMP_H with the held CMP_L. -/
def execCompareWrite (n : Clu) (c : Fin 8) (v : BitVec 16) (s : State) : Res :=
  .next (armCompare n c (v ++ (s.clu n).held[c]) s)

/-- A host write of CMP_L is held (R113). -/
def holdCompare (n : Clu) (c : Fin 8) (v : BitVec 32) (s : State) : State :=
  (s.modClu n (fun x => { x with held := x.held.set c v })).put (TMR.CH.CMP_L.CMP n c) v.toNat

/-- DISARM (R112). -/
def execDisarm (n : Clu) (c : Fin 8) (s : State) : Res := .next (s.lower (TMR.CH.CTRL.ARMED n c))

/-- The channel's value is passed (R112). -/
def comparePassed (s : State) (n : Clu) (c : Fin 8) : Bool :=
  decide (((s.clu n).cnt - (s.clu n).cmp[c]).toNat < 2 ^ 47)

/-- A timer channel's match reaches a port of the cluster: TMR0 and TMR1 (R38), then the input tick, then the output
latch becomes due (R73, R74). -/
def matchPort (c : Nat) (s : State) (p : Port) : State :=
  let t0 := decide (s.get (WSQ.CTRL.TSEL0 p) = c)
  let t1 := decide (s.get (WSQ.CTRL.TSEL1 p) = c)
  let s := s.modSeq p (fun q => { q with tmr0 := q.tmr0 || t0, tmr1 := q.tmr1 || t1 })
  let s := if s.get (PI.CFG.ITICK p) = c then inputTick s p else s
  if s.get (PI.CFG.OTICK p) = c then s.modPort p (fun x => { x with latchDue := true }) else s

/-- A channel fires (R112, R114, R115). -/
def fireCompare (n : Clu) (c : Fin 8) (s : State) : State :=
  let cmp := (s.clu n).cmp[c]
  let per := s.get (TMR.CH.PER.PER n c)
  let k := ((s.clu n).cnt - cmp).toNat / per + 1
  let s := s.raiseBit (TMR.CSTAT.MATCH n) c
  let s := pinAction (9 * n.val + c.val) (s.get (TMR.CH.CTRL.ACT n c)) (s.get (TMR.CH.CTRL.PIN n c)) s
  let s :=
    if per = 0 then s.lower (TMR.CH.CTRL.ARMED n c)
    else
      let v := cmp + BitVec.ofNat 48 (k * per)
      let s := (s.modClu n (fun x => { x with cmp := x.cmp.set c v })).put48 (TMR.CH.CMP_L.CMP n c)
        (TMR.CH.CMP_H.CMP n c) v
      if 1 < k then s.raiseBit (TMR.CSTAT.LAG n) c else s
  [portOf (2 * n.val), portOf (2 * n.val + 1)].foldl (matchPort c.val) s

/-- An armed channel whose value is passed fires, in a running cluster (R112, R115). -/
def tryCompare (n : Clu) (c : Fin 8) (s : State) : State :=
  if s.cluUp n && s.on (TMR.CH.CTRL.ARMED n c) && comparePassed s n c then fireCompare n c s else s

/-- COMPARE_MATCH (R112). -/
def execCompareMatch (n : Clu) (c : Fin 8) (s : State) : Res := .next (tryCompare n c s)

/-- What a wrap of the counter sets off: OVF and the overflow pin action (R111, R115). -/
def overflowActs (n : Clu) (s : State) : State :=
  let s := s.raise (TMR.STAT.OVF n)
  pinAction (9 * n.val + 8) (s.get (TMR.OVFACT.ACT n)) (s.get (TMR.OVFACT.PIN n)) s

/-- The counter wraps (R111). -/
def counterWrap (n : Clu) (s : State) : State := overflowActs n (s.modClu n (fun x => { x with cnt := 0 }))

/-- The counter counts one tick (R111). -/
def countTick (n : Clu) (s : State) : State :=
  if (s.clu n).cnt = BitVec.ofNat 48 (2 ^ 48 - 1) then counterWrap n s
  else s.modClu n (fun x => { x with cnt := x.cnt + 1 })

/-- COUNTER_WRAP (R111): the counter stands at 2^48 - 1 and takes its next tick. -/
def execCounterWrap (n : Clu) (s : State) : Res :=
  if s.cluUp n && (s.clu n).cnt == BitVec.ofNat 48 (2 ^ 48 - 1) then .next (counterWrap n s) else .next s

/-! ### Capture (R116, R117) -/

/-- The channel captures this event: source and edge (R116). -/
def captures (s : State) (n : Clu) (i : Fin 4) (src : Nat) (rising : Bool) : Bool :=
  let e := s.get (TMR.CAP.CTRL.EDGE n i)
  s.get (TMR.CAP.CTRL.SRC n i) == src &&
    (if src = 0 then e.testBit (if rising then 0 else 1) else e != 0)

/-- A capture writes CAP, counts SEQ and sets FULL, and CAPOVR where FULL was set (R117). -/
def capture (n : Clu) (i : Fin 4) (v : Word) (s : State) : State :=
  let full := s.on (TMR.CAP.CAP_H.FULL n i)
  let s := s.put48 (TMR.CAP.CAP_L.VAL n i) (TMR.CAP.CAP_H.VAL n i) v
  let s := (s.put (TMR.CAP.CAP_H.SEQ n i) (s.get (TMR.CAP.CAP_H.SEQ n i) + 1)).raise (TMR.CAP.CAP_H.FULL n i)
  if full then s.raiseBit (TMR.CSTAT.CAPOVR n) i else s

/-- CAPTURE (R116, R117): an edge or event of a source, `age` cycles before the current count. -/
def execCapture (n : Clu) (i : Fin 4) (src : Nat) (rising : Bool) (age : Nat) (s : State) : Res :=
  .next (if s.cluUp n && captures s n i src rising then capture n i ((s.clu n).cnt - BitVec.ofNat 48 age) s else s)

/-- CAPTURE_READ (R117): a host read of CAP_H. -/
def execCaptureRead (n : Clu) (i : Fin 4) (s : State) : Res :=
  let v := s.get (TMR.CAP.CAP_H.VAL n i) + 2 ^ 16 * s.get (TMR.CAP.CAP_H.SEQ n i) + 2 ^ 24 * s.get (TMR.CAP.CAP_H.FULL n i)
  .next { s.lower (TMR.CAP.CAP_H.FULL n i) with ans := ⟨0, v⟩ }

/-- WINDOW_PERIOD_START (R106). -/
def execWindowPeriodStart (n : Clu) (l : Fin 4) (s : State) : Res :=
  .next (if s.on (TTW.CTRL.EN n l) then sampleLine s n l else s)

/-! ### Make-up after sleep (R120, R121) -/

/-- The time unit makes up for `n` SLOW_CLK ticks. -/
def makeUpTime (n : Nat) (s : State) : State :=
  let s := cutPulses ((List.range 4).foldl (fun t d => t.raise (TU.D.STAT.UNSYNC d)) s)
  let s := (List.finRange 4).foldl (fun t d =>
    timeJump d ((t.dom d).move (n * 8000000000 * 2 ^ 32 : Nat)) t) s
  s.put TU.SLEEP.TICKS n

/-- Ticks of a cluster counter in `n` SLOW_CLK ticks: n × 24,414.0625, an exact half upward (R120). -/
def makeUpTicks (n : Nat) : Nat := (n * 390625 + 8) / 16

/-- A cluster counter makes up for `n` SLOW_CLK ticks, and the armed channels it passes fire (R120, R121). A jump past
2^48 - 1 is a wrap of R111 (log entry 67). -/
def makeUpCounter (k : Clu) (n : Nat) (s : State) : State :=
  let s := if 2 ^ 48 ≤ (s.clu k).cnt.toNat + makeUpTicks n then overflowActs k s else s
  let s := s.modClu k (fun x => { x with cnt := x.cnt + BitVec.ofNat 48 (makeUpTicks n) })
  let s := (s.put (TMR.SLEEP.TICKS k) n).raise (TMR.STAT.MAKEUP k)
  (List.finRange 8).foldl (fun t c => tryCompare k c t) s

/-- DOMAIN_RESTART (R120): the restart cycle of a domain after a wake, with the count of SLOW_CLK edges. -/
def execDomainRestart (dom : Fin 5) (n : BitVec 32) (s : State) : Res :=
  if s.stopped.contains dom.val && s.up dom.val && !s.boot.inReset then
    let s := { s with stopped := s.stopped.filter (· != dom.val) }
    .next (if dom.val = 0 then makeUpTime n.toNat s else makeUpCounter ⟨(dom.val - 1) % 4, by omega⟩ n.toNat s)
  else .next s

end Sys2Proof.Machine
end

