-- ==== Sys2Proof/Machine/TwinOps.lean ====
section
/-! DEFINITION. Twin frames, the stream of publications, and the queue hold of a standby (R168, R175-R177, R191, R192). -/

namespace Sys2Proof.Machine

open Reg

/-- TWN.STAT.STATE (R168): 0 SINGLE, 1 SEEK, 2 PUSH, 3 PULL, 4 ACTIVE, 5 SOLO, 6 STANDBY, 7 FENCED. -/
def twinState (s : State) : Nat := s.get TWN.STAT.STATE

/-- The states in which SBY is 1 (R168). -/
def sbyIn (st : Nat) : Bool := st == 1 || st == 3 || st == 6 || st == 7

/-- The block's factory ID (R144). -/
def State.fid (s : State) : Nat := s.get TIL.FID_L.FID + 2 ^ 32 * s.get TIL.FID_H.FID

/-- A debug hold is in force (R189). -/
def debugHold (s : State) : Bool := s.get DBG.HALTED.ENG != 0 || s.on DBG.WDHOLD.HOLD

/-! ### Frames on PT (R191) -/

/-- Bytes padded with zeros to a length. -/
def padTo (n : Nat) (l : List Byte) : List Byte := l ++ List.replicate (n - l.length) 0

/-- A frame with its FCS. -/
def withFcs (l : List Byte) : List Byte := l ++ bytesLE 4 (fcs l).toNat

/-- The header of a twin frame. The manual does not say where the station address of PT is held: a free value. -/
def ptHeader (s : State) (ty : Nat) : List Byte :=
  [3, 0, 0, 0, 0, 2] ++ bytesBE 6 (s.freeVal 48).toNat ++ bytesBE 2 (s.get TIL.ETYPE.TYPE) ++ [1] ++ bytesBE 1 ty ++
    bytesBE 2 (s.get TWN.PAIRID.ID) ++ bytesBE 2 (s.get TWN.EPOCH.EPOCH) ++ bytesBE 8 s.fid ++ bytesBE 4 s.twin.sent.toNat

/-- A frame goes out on PT, unless its link is down or MGMT is not in RUN or IDLE (R191, R422, R439). -/
def sendPt (ty : Nat) (body : List Byte) (s : State) : State :=
  if s.bit GLB.MI.LINK.LINK 8 && s.up 0 then
    let s' := (s.took).emit (.frame 8 (withFcs (padTo 60 (ptHeader s ty ++ body))))
    { s' with twin := { s'.twin with sent := s'.twin.sent + 1 } }
  else s

/-! ### Publications (R176, R177, R192) -/

/-- The PUBLISH frames of a publication, 8,192 data bytes at most in each. -/
def publishFrames (port seqn : Nat) : Nat → Nat → List Byte → List (List Byte)
  | 0, _, _ => []
  | k + 1, o, d =>
    let last := decide (d.length ≤ 8192)
    (bytesBE 1 port ++ bytesBE 1 last.toNat ++ bytesBE 6 seqn ++ bytesBE 4 o ++ [0, 0, 0, 0] ++ d.take 8192) ::
      (if last then [] else publishFrames port seqn k (o + 8192) (d.drop 8192))

/-- The unit streams to its partner: ACTIVE, or PUSH once its permit has been granted (R176, R187). -/
def streams (s : State) : Bool := (twinState s == 4 || twinState s == 2 && s.twin.pushing) && s.get TWN.CTRL.LEVEL != 0

/-- The data area of the new output READY buffer is streamed (R176). -/
def streamPublication (p : Port) (s : State) : State :=
  if streams s && twinned s (p.val / 2) then
    let r := twinRead (outBuf s p (s.get (PI.OUTROLE.READY p)) + 16) (s.get (PI.OUTSIZE.SIZE p)) s
    (publishFrames p.val (s.port p).outSeq.toNat 64 0 r.1).foldl (fun t b => sendPt 0x12 b t) r.2
  else s

/-- A publish by the block's own host or engines: on a twinned port of a standby it has no effect and raises PUBIGN
(R177). -/
def publishOwn (p : Port) (s : State) : State :=
  if twinned s (p.val / 2) && (twinState s == 6 || twinState s == 3) then s.raise TWN.EVT.PUBIGN
  else streamPublication p (publishImage s p)

/-! ### The queue hold (R175) -/

/-- A class of a port's queues is held: the port is twinned, SBY is 1, and the class's bit of TWN.QHOLD is set. -/
def classHeld (s : State) (p : Port) (c : Nat) : Bool := (roleByte s p).getLsbD 0 && s.bit TWN.QHOLD.CLS c

end Sys2Proof.Machine
end

