-- ==== Sys2Proof/Machine/Ports.lean ====
section
/-! DEFINITION. Port enable and disable, the transmit MAC, gate control lists, preemption, THRU frames, images, the
wire-program memory and the links (R29, R44, R49, R81-R89, R105, R107, R420-R423). -/

namespace Sys2Proof.Machine

open Reg

/-! ### Images and wire programs -/

/-- TAKE (R73). -/
def execTake (p : Port) (s : State) : Res := .next (takeImage s p)

/-- PUBLISH (R73, R177). -/
def execPublish (p : Port) (s : State) : Res := .next (publishOwn p s)

/-- The index register of the wire-program memory moves on after an access (R62). -/
def wpmNext (p : Port) (s : State) : State := s.put (WSQ.WPM.IDX.IDX p) (s.get (WSQ.WPM.IDX.IDX p) + 1)

/-- WPM_DATA_WRITE (R44, R62): a write to the active bank has no effect; IDX moves on after the access. -/
def wpmWrite (p : Port) (v : BitVec 32) (s : State) : State :=
  let bank := s.get (WSQ.WPM.IDX.BANK p)
  let s' :=
    if bank = s.get (WSQ.STAT.WPBANKACT p) then s
    else s.modPort p (fun x => { x with wpm := putAt 0 (1024 * bank + s.get (WSQ.WPM.IDX.IDX p)) v.toNat x.wpm })
  wpmNext p s'

def execWpmDataWrite (p : Port) (v : BitVec 32) (s : State) : Res := .next (wpmWrite p v s)

/-- CS_ECC_WRITEBACK (R49): the oldest corrected control-store or dispatch word is written back, and carries no error afterwards. The
read that met the error has counted it (`noteSoft`); what has been written meanwhile stays. -/
def execCsEccWriteback (p : Port) (s : State) : Res :=
  match (s.port p).csFixed with
  | [] => .next s
  | k :: rest =>
    .next (s.modPort p (fun x => { x with csFixed := rest, csEcc := if csSoft s p k then eraseAt k x.csEcc else x.csEcc }))

/-! ### Enable and disable (R86, R87) -/

/-- LP.DELAY shows the forwarding delay in use (R60). -/
def noteDelay (p : Port) (s : State) : State :=
  s.put (LP.DELAY.PS p) (delayPs (s.get (LP.STAT.DEPTHACT p)) (s.get (LP.STAT.RATE p)))

/-- The port comes into service (R26, R87). -/
def bringUp (p : Port) (s : State) : State :=
  let s := (s.put (LP.STAT.DEPTHACT p) (s.get (LP.CFG.DEPTH p))).raise (PX.STAT.ENACT p)
  noteDelay p (s.modPort p (fun x => { x with fctr := 0 }))

/-- A write of 1 to PX.CTRL.EN (R87). -/
def enablePort (p : Port) (s : State) : State :=
  let s := s.raise (PX.CTRL.EN p)
  if s.on (PX.STAT.ENACT p) then s else bringUp p s

/-- A write of 0 to PX.CTRL.EN (R86). -/
def disablePort (p : Port) (s : State) : State :=
  let s := s.lower (PX.CTRL.EN p)
  if s.on (PX.STAT.ENACT p) then s.raise (PX.STAT.DRAIN p) else s

/-- PORT_ENABLE (R87). -/
def execPortEnable (p : Port) (s : State) : Res := .next (enablePort p s)

/-- PORT_DISABLE (R86). -/
def execPortDisable (p : Port) (s : State) : Res := .next (disablePort p s)

/-! ### Descriptors (R81, R82) -/

/-- The address of a descriptor. -/
def descAddr (s : State) (p : Port) (c i : Nat) : Nat := cluAddr (cluOf p) (16 * s.get (PQ.TX.BASE.BASE p c) + 16 * i)

/-- The descriptor at the head of a class's queue, if the queue is enabled, not held (R175) and not empty, the descriptor can be
read and the block owns it. A descriptor whose read gets an error response holds its queue: R299 says no more than the response
(DESIGN CHOICE, log entry 75). -/
def headDesc (s : State) (p : Port) (c : Fin 8) : Option TxFrame :=
  let h := s.get (PQ.TX.HEAD.HEAD p c)
  let a := descAddr s p c h
  if s.get (PQ.TX.CFG.COUNT p c) = 0 ∨ h = s.get (PQ.TX.TAIL.TAIL p c) ∨ classHeld s p c = true ∨ hwLoad s a 16 = none then none
  else if (s.byte (a + 6)).getLsbD 7 then
    some { cls := c, idx := h, addr := s.load a 4 % 2 ^ 27, len := s.load (a + 4) 2, ctrl := s.byte (a + 6),
           stamp := BitVec.ofNat 48 (s.load (a + 8) 6), ended := none, sent := 0, behind := 0 }
  else none

/-- LAUNCH, THRU and IRQ of a descriptor. -/
def TxFrame.launch (t : TxFrame) : Bool := t.ctrl.getLsbD 0
def TxFrame.isThru (t : TxFrame) : Bool := t.ctrl.getLsbD 1
def TxFrame.irq (t : TxFrame) : Bool := t.ctrl.getLsbD 2

/-- ADDR in a cluster memory or the granary, LEN from 60 to 32,764 (R81, R82). -/
def TxFrame.good (t : TxFrame) : Bool :=
  (inClu t.addr || inGran t.addr) && (inClu (t.addr + t.len - 1) || inGran (t.addr + t.len - 1)) &&
    decide (60 ≤ t.len ∧ t.len ≤ 32764)

/-- A descriptor returns (R81, R100): STATUS, the stamp of a frame that was sent, OWN clear, and with IRQ a
transmit-completion record. -/
def returnDesc (p : Port) (t : TxFrame) (status : Nat) (s : State) : State :=
  let c := t.cls.val
  let a := descAddr s p c t.idx
  let s := if status = 0 then hwStoreN (a + 8) 6 t.stamp.toNat s else s
  let s := hwStoreN (a + 6) 1 (t.ctrl.toNat % 128) (hwStoreN (a + 7) 1 status s)
  if t.irq then
    postEvent s p (bytesLE 1 0x02 ++ bytesLE 1 p.val ++ bytesLE 2 c ++ bytesLE 2 t.idx ++ bytesLE 1 0 ++
      bytesLE 1 status ++ s.bytes (a + 8) 6 ++ bytesLE 2 0)
  else s

/-- The block finishes with a descriptor (R81): it returns, and HEAD moves on. -/
def completeDesc (p : Port) (t : TxFrame) (status : Nat) (s : State) : State :=
  let s := returnDesc p t status s
  s.put (PQ.TX.HEAD.HEAD p t.cls) ((t.idx + 1 + t.behind) % max 1 (s.get (PQ.TX.CFG.COUNT p t.cls)))

/-- A descriptor that is to return unsent: its CTRL, read with the errors that the read records. Where the read gets an error response,
CTRL counts as 0 and no record is posted (log entry 75). -/
def unsentDesc (p : Port) (c : Fin 8) (i : Nat) (s : State) : TxFrame × State :=
  let a := descAddr s p c i
  ({ cls := c, idx := i, addr := 0, len := 0, ctrl := BitVec.ofNat 8 ((hwLoad s (a + 6) 1).getD 0), stamp := 0, ended := none, sent := 0,
     behind := 0 }, noteRead (a + 6) 1 s)

/-- Every descriptor of a class that has not started returns with STATUS 0x01 (R86). -/
def flushClass (p : Port) (c : Fin 8) : Nat → State → State
  | 0, s => s
  | k + 1, s =>
    let h := s.get (PQ.TX.HEAD.HEAD p c)
    if s.get (PQ.TX.CFG.COUNT p c) = 0 ∨ h = s.get (PQ.TX.TAIL.TAIL p c) then s
    else
      let t := unsentDesc p c h s
      flushClass p c k (completeDesc p t.1 1 t.2)

/-- The descriptors from an index to TAIL return with STATUS 0x01; answers how many. -/
def returnRest (p : Port) (c : Fin 8) : Nat → Nat → State → Nat × State
  | 0, _, s => (0, s)
  | k + 1, i, s =>
    if i = s.get (PQ.TX.TAIL.TAIL p c) then (0, s)
    else
      let t := unsentDesc p c i s
      let r := returnRest p c k ((i + 1) % max 1 (s.get (PQ.TX.CFG.COUNT p c))) (returnDesc p t.1 1 t.2)
      (r.1 + 1, r.2)

/-- Every unstarted descriptor of a class returns with STATUS 0x01, behind one that has started too (R175). -/
def returnClass (p : Port) (s : State) (c : Fin 8) : State :=
  let x := s.port p
  let count := s.get (PQ.TX.CFG.COUNT p c)
  let mine (t : Option TxFrame) : Option TxFrame := t.filter (fun t => t.cls == c)
  match (mine x.tx).or ((mine x.txHeld).or (mine x.thru)) with
  | none => flushClass p c count s
  | some t =>
    let r := returnRest p c count ((t.idx + 1 + t.behind) % max 1 count) s
    let note (u : Option TxFrame) : Option TxFrame :=
      u.map (fun u => if u.cls = c then { u with behind := u.behind + r.1 } else u)
    r.2.modPort p (fun y => { y with tx := note y.tx, txHeld := note y.txHeld, thru := note y.thru })

/-- The port has nothing in flight (R86). -/
def portIdle (s : State) (p : Port) : Bool :=
  let x := s.port p
  x.tun.isEmpty && x.tx.isNone && x.txHeld.isNone && x.thru.isNone &&
    !((s.port (partner p)).tun.any (fun f => f.egress == some p.val && !f.allLeft))

/-- The end of a drain (R86, R87). -/
def finishDrain (p : Port) (s : State) : State :=
  let s := [7, 6, 5, 4, 3, 2, 1, 0].foldl (fun t c => flushClass p c (t.get (PQ.TX.CFG.COUNT p c)) t) s
  let s := ((s.lower (PX.STAT.ENACT p)).lower (PX.STAT.DRAIN p)).modPort p (fun x => { x with ringWait := [] })
  if s.on (PX.CTRL.EN p) then bringUp p s else s

/-- PORT_DRAIN_DONE (R86). -/
def execPortDrainDone (p : Port) (s : State) : Res :=
  .next (if s.on (PX.STAT.DRAIN p) && portIdle s p then finishDrain p s else s)

/-! ### Gate control lists (R83) -/

/-- A word of the gate list in a bank. -/
def gclWord (s : State) (p : Port) (bank entry word : Nat) : Nat :=
  (lookup (2048 * bank + 2 * entry + word) (s.port p).gcl).getD 0

/-- A list of gate states in a bank: its cycle and its number of entries. -/
structure GateList where
  bank : Nat
  cycle : Nat
  len : Nat

/-- The time an entry of a list holds, cut or stretched at the cycle's end (R83): its start within the cycle, and its
duration. -/
def GateList.span (g : GateList) (s : State) (p : Port) (i : Nat) : Nat × Nat :=
  let start := ((List.range i).map (fun j => gclWord s p g.bank j 0)).sum
  (min start g.cycle, if i + 1 = g.len then g.cycle - start else min (gclWord s p g.bank i 0) (g.cycle - start))

/-- The gate states of an entry. -/
def GateList.gates (g : GateList) (s : State) (p : Port) (i : Nat) : Byte := BitVec.ofNat 8 (gclWord s p g.bank i 1)

/-- A cycle of the list ends with an entry. -/
def GateList.lastAt (g : GateList) (s : State) (p : Port) (i : Nat) : Bool :=
  let x := g.span s p i
  decide (i + 1 = g.len ∨ g.cycle ≤ x.1 + x.2)

/-- The operational list of a port (R83). -/
def operList (s : State) (p : Port) : GateList :=
  ⟨s.get (GCL.STAT.OPERBANK p), (s.port p).gate.cycle, (s.port p).gate.len⟩

/-- The time an entry of the operational list holds. -/
def entrySpan (s : State) (p : Port) (i : Nat) : Nat × Nat := (operList s p).span s p i

/-- The gate states of an entry of the operational list. -/
def entryGates (s : State) (p : Port) (i : Nat) : Byte := (operList s p).gates s p i

/-- Class `c` is closed by an entry that holds for some time; one that the cycle's end cuts off closes nothing. -/
def GateList.shuts (g : GateList) (s : State) (p : Port) (c i : Nat) : Bool :=
  !(g.gates s p i).getLsbD c && (g.span s p i).2 != 0

/-- The time that class `c` stays open over the next `k` entries from entry `i`, and whether it stays open throughout. -/
def GateList.openRun (g : GateList) (s : State) (p : Port) (c : Nat) : Nat → Nat → Nat × Bool
  | 0, _ => (0, true)
  | k + 1, i =>
    if g.shuts s p c i then (0, false)
    else
      let r := g.openRun s p c k ((i + 1) % max 1 g.len)
      ((g.span s p i).2 + r.1, r.2)

/-- The time from the start of entry `i` to the instant at which class `c` closes, with a change of list in `swap` ns from there: that
many ns, or nothing where neither list closes it. At a cycle's end up to `ext` ns before the change, the entry holds until the change
(R83, IEEE 802.1Qbv). -/
def GateList.closesIn (g : GateList) (s : State) (p : Port) (c ext : Nat) (next : GateList) : Nat → Nat → Nat → Option Nat
  | 0, _, swap =>
    let r := next.openRun s p c next.len 0
    if r.2 then none else some (swap + r.1)
  | k + 1, i, swap =>
    if g.shuts s p c i then some 0
    else
      let d := (g.span s p i).2
      if swap ≤ d ∨ (g.lastAt s p i = true ∧ swap ≤ d + ext) then
        let r := next.openRun s p c next.len 0
        if r.2 then none else some (swap + r.1)
      else (g.closesIn s p c ext next k (if g.lastAt s p i then 0 else i + 1) (swap - d)).map (d + ·)

/-- The remaining open time of a class on a port's egress in ns; nothing: without end (R82, R83). It counts a change of list that is
pending: the entries of the operational list up to its start, as far as they go round once, then the new list. -/
def openFor (s : State) (p : Port) (c : Nat) : Option Nat :=
  let g := (s.port p).gate
  if !(s.on (GCL.CTRL.GATEEN p)) then none
  else
    let next (x : Nat × Nat × Nat × Nat × Fin 4) : GateList := ⟨1 - s.get (GCL.STAT.OPERBANK p), x.1, x.2.2.2.1⟩
    let wait (x : Nat × Nat × Nat × Nat × Fin 4) : Nat := x.2.2.1 - (s.dom x.2.2.2.2).absNs
    if !g.valid then
      if !g.gates.getLsbD c then some 0
      else
        match g.pend with
        | none => none
        | some x =>
          let r := (next x).openRun s p c (next x).len 0
          if r.2 then none else some (wait x + r.1)
    else
      let gone := (s.dom g.dom).absNs - g.since
      match g.pend with
      | none =>
        let r := (operList s p).openRun s p c g.len g.idx
        if r.2 then none else some (r.1 - gone)
      | some x => ((operList s p).closesIn s p c g.ext (next x) (g.len + 1) g.idx (wait x + gone)).map (· - gone)

/-- The longest open period of a class in the operational list; nothing: open without end. -/
def longestOpen (s : State) (p : Port) (c : Nat) : Option Nat :=
  let g := (s.port p).gate
  if !(s.on (GCL.CTRL.GATEEN p)) || !g.valid then none
  else
    let rs := (List.range g.len).map (fun i => (operList s p).openRun s p c g.len i)
    if rs.any (·.2) then none else some ((rs.map (·.1)).foldl max 0)

/-- The time in ns that a frame of LEN bytes with its FCS and 20 bytes of overhead takes (R82). -/
def frameNs (s : State) (p : Port) (len : Nat) : Nat := ((len + 24) * byteTimePs (s.get (LP.STAT.RATE p)) + 999) / 1000

/-- A limit that may be without end is long enough. -/
def enough (limit : Option Nat) (need : Nat) : Bool :=
  match limit with
  | none => true
  | some l => decide (need ≤ l)

/-- GCL_CHANGE (R83). -/
def gclChange (p : Port) (s : State) : State :=
  let len := s.get (GCL.LEN.LEN p)
  let cycle := s.get (GCL.CYCLE.NS p)
  if len = 0 ∨ 1024 < len ∨ cycle = 0 then s.raise (GCL.STAT.CFGERR p)
  else
    let d : Fin 4 := Fin.ofNat 4 (s.get (GCL.CTRL.TDOM p))
    let base := (s.get (GCL.BTS_LO.S p) + 2 ^ 32 * s.get (GCL.BTS_HI.S p)) * 1000000000 + s.get (GCL.BTNS.NS p)
    let now := (s.dom d).absNs
    let start := if now ≤ base then base else base + (now - base + cycle - 1) / cycle * cycle
    (s.raise (GCL.STAT.PENDING p)).modPort p (fun x => { x with gate := { x.gate with
      pend := some (cycle, s.get (GCL.EXT.NS p), start, len, d) } })

def execGclChange (p : Port) (s : State) : Res := .next (gclChange p s)

/-- An entry of the operational list takes force. -/
def enterEntry (p : Port) (i since : Nat) (s : State) : State :=
  let op := gclWord s p (s.get (GCL.STAT.OPERBANK p)) i 1 / 256 % 4
  let gates := entryGates s p i
  s.modPort p (fun x => { x with gate := { x.gate with
    idx := i, since := since, gates := gates,
    hold := if op = 1 then true else if op = 2 then false else x.gate.hold } })

/-- GCL_ACTIVATE (R83). -/
def execGclActivate (p : Port) (s : State) : Res :=
  match (s.port p).gate.pend with
  | some (cycle, ext, start, len, d) =>
    if start ≤ (s.dom d).absNs then
      let s := (s.put (GCL.STAT.OPERBANK p) (1 - s.get (GCL.STAT.OPERBANK p))).lower (GCL.STAT.PENDING p)
      let s := s.modPort p (fun x => { x with gate := { x.gate with
        cycle := cycle, ext := ext, len := len, dom := d, valid := true, pend := none } })
      .next (enterEntry p 0 start s)
    else .next s
  | none => .next s

/-- GATE_INTERVAL_END (R83): the next entry takes force; at a cycle's end a pending list that starts within the cycle
time extension keeps the last entry in force (IEEE 802.1Qbv). -/
def execGateIntervalEnd (p : Port) (s : State) : Res :=
  let g := (s.port p).gate
  let span := entrySpan s p g.idx
  let stop := g.since + span.2
  if g.valid && decide (stop ≤ (s.dom g.dom).absNs) then
    let last := (operList s p).lastAt s p g.idx
    let stretched := match g.pend with
      | some (_, _, start, _, _) => decide (start ≤ stop + g.ext)
      | none => false
    if last then (if stretched then .next s else .next (enterEntry p 0 stop s)) else .next (enterEntry p (g.idx + 1) stop s)
  else .next s

/-- Preemption is active (R84). -/
def preemptActive (s : State) (p : Port) : Bool :=
  s.on (GCL.CTRL.PREEN p) && (s.on (GCL.STAT.VERIFIED p) || !(s.on (GCL.CTRL.VERIFY p)))

/-- A class is preemptable (R84). -/
def preemptable (s : State) (p : Port) (c : Nat) : Bool := s.bit (GCL.PRE.PRE p) c

/-- IEEE_802_3BR_VERIFICATION (R84): the verification has succeeded. -/
def execIeee8023brVerification (p : Port) (s : State) : Res := .next (s.raise (GCL.STAT.VERIFIED p))

/-! ### The transmit MAC (R29, R81, R82, R105, R107) -/

/-- A forwarded frame is leaving on the port's egress (R29). -/
def forwarding (s : State) (p : Port) : Bool :=
  ((s.port p).tun ++ (s.port (partner p)).tun).any (fun f => f.egress == some p.val && decide (0 < f.left) && !f.allLeft)

/-- The transmit MAC of a port in service is idle: link up, nothing leaving. -/
def macIdle (s : State) (p : Port) : Bool :=
  s.on (PX.STAT.ENACT p) && s.bit GLB.MI.LINK.LINK p.val && (s.port p).tx.isNone && !(forwarding s p)

/-- The port can start a queued frame: it does not drain (R86). -/
def macFree (s : State) (p : Port) : Bool := macIdle s p && !(s.on (PX.STAT.DRAIN p))

/-- The outcome of the window check of a line (R107, R108). -/
inductive WinCheck where
  | ok | wait | never
  deriving DecidableEq, Repr

/-- The window check of an occupancy that starts at a time in ps within the second of the line's domain. -/
def windowCheck (s : State) (n : Clu) (l : Fin 4) (start : TimeDom → Int) (len : Nat) : WinCheck :=
  if !(s.on (TTW.CTRL.EN n l)) then .ok
  else
    match (s.clu n).win[l] with
    | none => .wait
    | some t =>
      if !(t.fitsAny len) then .never
      else if unsync s t.dom then .wait
      else if t.fits ((start (s.dom t.dom) % 1000000000000).toNat) len then .ok else .wait

/-- The occupancy of a frame whose byte 0 starts `delay` ps from now: from 8 byte times before byte 0 to the end of its
FCS (R107). `tap` places the beat within the cycle. Byte times and the forwarding delay count as ns of the line's domain, not scaled
by its rate word (DESIGN CHOICE, log entry 76). -/
def frameCheck (s : State) (q : Port) (rate len tap : Nat) (delay : Nat) : WinCheck :=
  let bt := byteTimePs rate
  windowCheck s (cluOf q) (portLine q) (fun t => ((stampIn s t 0 tap).ps : Int) + delay - 8 * bt) ((len + 12) * bt)

/-- A descriptor has been read for good: the errors that the read meets are recorded (R298). -/
def takeDesc (p : Port) (t : TxFrame) (s : State) : State := noteRead (descAddr s p t.cls t.idx) 16 s

/-- The frame is taken off its queue and starts. -/
def startTx (p : Port) (t : TxFrame) (tap : Nat) (s : State) : State :=
  let d := s.dom (Fin.ofNat 4 (s.get (PX.CTRL.TDOM p)))
  (takeDesc p t s).modPort p (fun x => { x with tx := some { t with stamp := (stampIn s d 0 tap).lo } })

/-- Preemptable traffic of a class is held back: by Set-And-Hold-MAC, or behind a preempted frame (R84). -/
def heldBack (s : State) (p : Port) (c : Nat) : Bool :=
  preemptable s p c && ((s.port p).gate.hold && preemptActive s p || (s.port p).txHeld.isSome)

/-- The head of a class has started: it is leaving, preempted, or entering the pipeline. -/
def headStarted (s : State) (p : Port) (c : Fin 8) : Bool :=
  let x := s.port p
  [x.tx, x.txHeld, x.thru].any (fun t => t.any (fun u => u.cls == c))

/-- LTIME of a descriptor is due (R105) at the time of this beat, which `tap` places within the cycle with FINE set. -/
def launchDue (s : State) (p : Port) (t : TxFrame) (tap : Nat) : Bool :=
  startDue (stampIn s (s.dom (Fin.ofNat 4 (s.get (PX.CTRL.TDOM p)))) 0 tap).lo t.stamp

/-- A launch that fails the window check (R107). -/
def lateLaunch (p : Port) (t : TxFrame) (n : Clu) (l : Fin 4) (s : State) : State :=
  completeDesc p t 3 (s.count (TTW.LATE.CNT n l))

/-- A received frame is still arriving when a THRU frame launches: it ends at once with a bad verdict and a stomped FCS,
and the rest of it is ignored (R81, R151). -/
def cutArriving (p : Port) (s : State) : State :=
  match s.arriving p with
  | some f =>
    let s := growFrame p f.fctr [] true (noteLate p f s)
    let s := s.modFrame p f.fctr (fun g => { g with fate := { g.fate with cut := true } })
    (stompFrame s p f).modPort p (fun x => { x with ignore := true }) |>.count (PQ.DROPCNT.CNT p)
  | none => s

/-- A received frame is arriving, one whose bytes are ignored included (R81). -/
def receiving (s : State) (p : Port) : Bool := (s.arriving p).isSome || (s.port p).ignore

/-- A THRU frame launches at a beat of the receive interface, unless its window check at the egress, made with its start at the
launch plus the forwarding delay, or a read of its bytes fails (R81, R107). Its launch instant is kept as its receive stamp
(R100). One THRU frame enters at a time. -/
def startThru (p : Port) (t : TxFrame) (tap : Nat) (s : State) : Option State :=
  if (s.port p).thru.isSome then none
  else
    let egress := egressOf s p false
    let check := match egress with
      | some e => frameCheck s (portOf e) (s.get (LP.STAT.RATE p)) t.len tap (s.get (LP.DELAY.PS p))
      | none => .ok
    if check ≠ .ok then
      let q := portOf (egress.getD p.val)
      some (lateLaunch p t (cluOf q) (portLine q) s)
    else if !(s.readable t.addr 1) then some (completeDesc p t 6 (noteRead t.addr 1 s))
    else some ((cutArriving p (takeDesc p t s)).modPort p (fun x =>
      { x with thru := some t, launched := s.stamps 0 tap, launchAge := 0 - tap }))

/-- How the head of a class acts: as a queued frame, as a scheduled launch, or as a THRU frame without LAUNCH. -/
inductive StartKind where
  | queued | launched | thru
  deriving DecidableEq, Repr

/-- The transmit MAC starts a frame, or ends it before byte 0 where its first byte cannot be read (R81). -/
def beginTx (p : Port) (t : TxFrame) (tap : Nat) (s : State) : State :=
  if s.readable t.addr 1 then startTx p t tap s else completeDesc p t 6 (noteRead t.addr 1 s)

/-- What the head of one class does at a beat (R82, R105, R107): nothing where the class must wait. A THRU frame with LAUNCH is
not selected by class. -/
def classStart (p : Port) (tap : Nat) (s : State) (c : Fin 8) : Option (StartKind × State) :=
  match if headStarted s p c then none else headDesc s p c with
  | none => none
  | some t =>
    let need := frameNs s p t.len
    if !t.good then some (.queued, completeDesc p t 4 s)
    else if t.launch && (t.isThru || !launchDue s p t tap) then none
    else
      let kind : StartKind := if t.isThru then .thru else if t.launch then .launched else .queued
      if !(enough (longestOpen s p c) need) then some (kind, completeDesc p t 5 s)
      else if !(enough (openFor s p c) need) then none
      else if t.isThru then (if receiving s p then none else (startThru p t tap s).map (fun u => (kind, u)))
      else if heldBack s p c then none
      else
        match frameCheck s p (s.get (LP.STAT.RATE p)) t.len tap 0, t.launch with
        | .ok, _ => some (kind, beginTx p t tap s)
        | _, true => some (kind, lateLaunch p t (cluOf p) (portLine p) s)
        | .never, false => some (kind, completeDesc p t 5 s)
        | .wait, false => none

/-- The first class, from 7 down, for which `f` answers. -/
def firstClass {α : Type} (f : Fin 8 → Option α) : Option α := ([7, 6, 5, 4, 3, 2, 1, 0] : List (Fin 8)).findSome? f

/-- The highest class that can act goes first, whatever the kinds of the heads (R82): what it does, if it is of a kind. -/
def startOf (p : Port) (tap : Nat) (k : StartKind) (s : State) : Option State :=
  match firstClass (classStart p tap s) with
  | some (k', t) => if k' = k then some t else none
  | none => none

/-- A preempted frame resumes where no class can act, unless it is held (R84). It resumes in a drain too: it is leaving the
transmit MAC (R86). -/
def resumeTx (p : Port) (tap : Nat) (s : State) : State :=
  match (s.port p).txHeld with
  | some h =>
    if (s.on (PX.STAT.DRAIN p) || (firstClass (classStart p tap s)).isNone) && !((s.port p).gate.hold && preemptActive s p) then
      s.modPort p (fun x => { x with tx := some h, txHeld := none })
    else s
  | none => s

/-- The descriptors at the heads of the queues are read: the errors that their reads record (R298). -/
def noteHeads (p : Port) (s : State) : State :=
  (List.range 8).foldl (fun t c =>
    let h := t.get (PQ.TX.HEAD.HEAD p c)
    if t.get (PQ.TX.CFG.COUNT p c) ≠ 0 ∧ h ≠ t.get (PQ.TX.TAIL.TAIL p c) then noteRead (descAddr t p c h) 16 t else t) s

/-- The first frame of the Tiller firmware that waits for a guarded span leaves, if it now fits one (R107). -/
def sendWaiting (p : Port) (tap : Nat) (s : State) : Option State :=
  match (s.port p).ringWait with
  | f :: rest =>
    if frameCheck s p (s.get (LP.STAT.RATE p)) (f.length - 4) tap 0 = .ok then
      some ((s.modPort p (fun x => { x with ringWait := rest })).emit (.frame p.val f))
    else none
  | [] => none

/-- TX_DESCRIPTOR_START (R82): a frame of the Tiller firmware that waits for a guarded span leaves; else the highest class that can
act starts, if its head is a queued frame without LAUNCH; with nothing else to start, a preempted frame resumes (R84). `tap` is the interpolator tap of the transmit edge. -/
def execTxDescriptorStart (p : Port) (tap : Nat) (s : State) : Res :=
  if macIdle s p then
    match sendWaiting p tap s with
    | some t => .next t
    | none =>
      let s := noteHeads p s
      .next (if macFree s p then (startOf p tap .queued s).getD (resumeTx p tap s) else resumeTx p tap s)
  else .next s

/-- TX_LAUNCH (R105): the highest class that can act starts, if its head has LAUNCH set and LTIME is due. -/
def execTxLaunch (p : Port) (tap : Nat) (s : State) : Res :=
  if macFree s p then
    let s := noteHeads p s
    .next ((startOf p tap .launched s).getD s)
  else .next s

/-- The THRU frame at the head of one class launches at its LTIME, whatever the egress and the other classes do (R81, R105). -/
def tryThru (p : Port) (tap : Nat) (s : State) (c : Fin 8) : Option State :=
  match headDesc s p c with
  | none => none
  | some t =>
    if !t.isThru then none
    else if !t.good then some (completeDesc p t 4 s)
    else if t.launch && launchDue s p t tap then startThru p t tap s
    else none

/-- THRU_LAUNCH (R81): a THRU frame whose LTIME is due, or one without LAUNCH that is selected under R82. -/
def execThruLaunch (p : Beat) (s : State) : Res :=
  if s.on (PX.STAT.ENACT p.port) && !(s.on (PX.STAT.DRAIN p.port)) then
    let s := noteHeads p.port s
    .next (((firstClass (tryThru p.port p.tap s)).or (startOf p.port p.tap .thru s)).getD s)
  else .next s

/-- A queued frame as it leaves, with its FCS, or cut short after `sent` bytes with a stomped one (R29, R53, R81). -/
def txBytes (s : State) (t : TxFrame) (status sent : Nat) : List Byte :=
  if status = 0 then thruBytes s t
  else
    let d := s.bytes t.addr (min sent t.len)
    d ++ bytesLE 4 (~~~ (fcs d)).toNat

/-- The bytes that left before the read that met an error: those before the first byte that cannot be read. Where not even the
first can be read any more, byte 0 had left, and how many more had is a free value (R81, log entry 7). -/
def sentAtError (s : State) (t : TxFrame) : Nat × State :=
  match (List.range t.len).find? (fun k => !s.readable (t.addr + k) 1) with
  | some (k + 1) => (max (k + 1) t.sent, s)
  | _ => (max t.sent (1 + (s.freeVal 16 : BitVec 16).toNat % t.len), s.took)

/-- The end of a queued frame (R81, R82): a read error ends it early, a stomped frame counts as chaff. A port without link sends
nothing (R422). -/
def finishTx (p : Port) (t : TxFrame) (s : State) : State :=
  let ok := s.readable t.addr t.len
  let status := if ok then t.ended.getD 0 else 6
  let r := if ok then (t.sent, s) else sentAtError s t
  let s := (noteRead t.addr t.len r.2).modPort p (fun x => { x with tx := none })
  let s := if s.bit GLB.MI.LINK.LINK p.val then s.emit (.frame p.val (txBytes s t status r.1)) else s
  let s := if status = 0 then s else s.count (WSQ.CHAFF.CNT p)
  completeDesc p t status s

/-- The transmit point of a THRU frame goes into its descriptor (R100): the launch stamp plus the forwarding delay. -/
def thruStamp (s : State) (p : Port) : Word :=
  let d : Fin 4 := Fin.ofNat 4 (s.get (PX.CTRL.TDOM p))
  (((s.port p).launched[d]).txPoint (s.get (LP.DELAY.PS p))).lo

/-- The frame that the transmit MAC sends ends, or the THRU frame that has entered the pipeline (R81). -/
def txComplete (p : Port) (s : State) : State :=
  match (s.port p).tx, (s.port p).thru with
  | some t, _ => finishTx p t s
  | none, some t =>
    match t.ended with
    | some st =>
      let s := s.modPort p (fun x => { x with thru := none })
      completeDesc p { t with stamp := thruStamp s p } st s
    | none => s
  | none, none => s

/-- TX_PREEMPT (R29, R84): a forwarded frame (`fwd`) or an express queued frame is due while `sent` bytes of the frame
have left; those of its current fragment count against the smallest fragment. -/
def execTxPreempt (p : Port) (sent : Nat) (fwd : Bool) (s : State) : Res :=
  match (s.port p).tx with
  | some t =>
    if t.ended.isSome then .next s
    else
      let frag := 64 * (1 + s.get (GCL.CTRL.FRAG p))
      if preemptActive s p && preemptable s p t.cls && (s.port p).txHeld.isNone && decide (t.sent + frag ≤ sent) &&
          decide (sent + 64 ≤ t.len + 4) then
        .next (s.modPort p (fun x => { x with tx := none, txHeld := some { t with sent := sent } }))
      else if fwd then .next (s.modPort p (fun x => { x with tx := some { t with ended := some 2, sent := sent } }))
      else .next s
  | none => .next s

/-! ### Redundancy timers (R85) -/

/-- STREAM_RESET_TIMER (R85). -/
def execStreamResetTimer (n : Clu) (i : Fin 512) (s : State) : Res :=
  if s.get (FRER.CFG.RESETMS n) = 0 then .next s
  else .next (s.modClu n (fun c =>
    match lookup i.val c.streams with
    | some x => { c with streams := insertAt i.val { x with takeAny := true } c.streams }
    | none => c))

/-- DUP_FORGET (R85): the oldest entry of the duplicate table is forgotten. -/
def execDupForget (n : Clu) (s : State) : Res := .next (s.modClu n (fun c => { c with dups := c.dups.drop 1 }))

/-! ### Links (R420, R422, R423) -/

/-- MI_LINK_UP (R420): the port samples its rate; any rate of PT but 10 Gb/s counts as link down. While LINK stays high a change
is ignored. -/
def execMiLinkUp (p : Fin 9) (rate : BitVec 3) (s : State) : Res :=
  if s.bit GLB.MI.LINK.LINK p.val then .next s
  else if p = 8 then .next (if rate = 5 then s.raiseBit GLB.MI.LINK.LINK 8 else s.lowerBit GLB.MI.LINK.LINK 8)
  else
    let q : Port := portOf p.val
    let s := (s.raiseBit GLB.MI.LINK.LINK p.val).put (LP.STAT.RATE q) rate.toNat
    .next (noteRate (noteRate (noteDelay q s) q) (partner q))

/-- A forwarded frame on its way out of the port is cut off (R422). -/
def cutForwarded (p : Port) (s : State) (q : Port) : State :=
  s.modPort q (fun x => { x with tun := x.tun.map (fun f => if f.egress = some p.val then { f with egress := none } else f) })

/-- A frame being received ends with a bad verdict; forwarded to the partner, it leaves stomped (R422). -/
def endReception (p : Port) (s : State) : State :=
  match s.arriving p with
  | some f =>
    if f.thru then s
    else
      let s := growFrame p f.fctr [] true s
      let s := s.modFrame p f.fctr (fun g => { g with fate := { g.fate with cut := true, linkLost := true } })
      if f.egress = some (partner p).val then stompFrame s p f else s
  | none => s

/-- A preempted frame is a queued frame being transmitted: it ends, and its descriptor returns with STATUS 0x02 (R82, R422). -/
def endHeld (p : Port) (s : State) : State :=
  match (s.port p).txHeld with
  | some t => completeDesc p t 2 ((s.modPort p (fun x => { x with txHeld := none })).count (WSQ.CHAFF.CNT p))
  | none => s

/-- MI_LINK_DOWN (R422). -/
def execMiLinkDown (p : Fin 9) (s : State) : Res :=
  let s := s.lowerBit GLB.MI.LINK.LINK p.val
  if p = 8 then .next s
  else
    let q : Port := portOf p.val
    let s := endReception q s
    let s := s.modPort q (fun x => { x with ignore := false, late := none, ringWait := [], tx := x.tx.map (fun t => { t with ended := some 2 }) })
    .next (cutForwarded q (cutForwarded q (endHeld q s) q) (partner q))

/-- The frame of a port's tun that is leaving as a forwarded frame on an egress. -/
def forwardedOn (s : State) (p q : Port) : Option Frame :=
  (s.port q).tun.find? (fun f => f.egress == some p.val && decide (0 < f.left) && !f.allLeft)

/-- TRANSMIT_SLIP (R423): the forwarded frame in flight on the egress is stomped, SLIP counts and SLIPPORT names the port. With no
such frame the crossing finds nothing broken. -/
def execTransmitSlip (p : Port) (s : State) : Res :=
  let hit (q : Port) (t : State) : State := ((forwardedOn s p q).map (stompFrame t q)).getD t
  if (forwardedOn s p p).isSome || (forwardedOn s p (partner p)).isSome then
    .next (((hit (partner p) (hit p s)).count GLB.MI.SLIP.CNT).raiseBit GLB.MI.SLIPPORT.PORT p.val)
  else .next s

end Sys2Proof.Machine
end

