-- ==== Sys2Proof/Machine/BitLines.lean ====
section
/-! DEFINITION. The bit lines (R424-R428). -/

namespace Sys2Proof.Machine

open Reg

/-- A bit line. -/
abbrev Line := Fin 8

def State.line (s : State) (k : Line) : BitSt := s.bits[k]

def State.modLine (s : State) (k : Line) (g : BitSt → BitSt) : State := { s with bits := s.bits.set k (g s.bits[k]) }

/-- The cluster of a bit line, and its line in the cluster's window tables (R106). -/
def lineClu (k : Line) : Clu := ⟨k.val / 2, by omega⟩

def lineNo (k : Line) : Fin 4 := ⟨2 + k.val % 2, by omega⟩

/-- The entries that each FIFO holds (R425). -/
def lineDepth : Nat := 64

/-- BITSTREAM framing (R425). -/
def isBitstream (s : State) (k : Line) : Bool := s.get (BL.CTRL.MODE k) == 2

/-! ### Transmit (R425, R426) -/

/-- A write of BL.TXD (R425): a full FIFO drops it. A line out of service keeps its FIFOs empty. -/
def lineWrite (k : Line) (v : Word32) (s : State) : State :=
  if !s.on (BL.CTRL.EN k) then s
  else if lineDepth ≤ (s.line k).tx.length then s.raise (BL.STAT.TXOVF k)
  else s.modLine k (fun x => { x with tx := x.tx ++ [v] })

/-- BL_TXD (R425, R428). -/
def execBlTxd (k : Line) (v : Word32) (s : State) : Res := .next (lineWrite k v s)

/-- The data bits of a character (R428). -/
def charBits (s : State) (k : Line) : Nat := let b := s.get (BL.FMT.BITS k); if 5 ≤ b ∧ b ≤ 9 then b else 8

/-- A bit on the line: its length in PER_CLK cycles, the level of BL_TX, and whether it is arbitrated (R424, R425). -/
structure LineBit where
  len : Nat
  level : Bool
  arb : Bool
  deriving DecidableEq, Repr, Inhabited

/-- The parity of data bits: 1 where an odd number of them is 1. -/
def oddBits (l : List Bool) : Bool := l.foldl (· != ·) false

/-- The parity bit of a character, if it has one (R428). -/
def parityBit (s : State) (k : Line) (l : List Bool) : List Bool :=
  match s.get (BL.FMT.PAR k) with
  | 1 => [oddBits l]
  | 2 => [!oddBits l]
  | _ => []

/-- A character: start bit, data bits least significant first, parity, stop bits (R425). -/
def charWave (s : State) (k : Line) (v : Word32) : List Bool :=
  let d := (List.range (charBits s k)).map (fun i => v.getLsbD i)
  false :: d ++ parityBit s k d ++ List.replicate (1 + s.get (BL.FMT.STOP2 k)) true

/-- The bits of a group, most significant first (R425). -/
def groupBits (v : Nat) : List Bool := let n := v / 2 ^ 16 % 16 + 1; (List.range n).map (fun i => v.testBit (n - 1 - i))

/-- How many equal bits end in a bit. -/
def runLength (last : Bool) (run : Nat) (b : Bool) : Nat := if run ≠ 0 ∧ b = last then run + 1 else 1

/-- Bits with stuff bits inserted, behind a run of equal bits: after five equal bits, their complement (R425). Answers also the
last bit and its run. -/
def stuffBits : List Bool → Bool → Nat → List Bool × Bool × Nat
  | [], last, run => ([], last, run)
  | b :: t, last, run =>
    if runLength last run b = 5 then let r := stuffBits t (!b) 1; (b :: (!b) :: r.1, r.2)
    else let r := stuffBits t b (runLength last run b); (b :: r.1, r.2)

/-- BITSTREAM groups as they leave: STUFF, FAST and ARB are those of each group (R425, R428). -/
def groupWave (div ddiv : Nat) : List Word32 → Bool → Nat → List LineBit
  | [], _, _ => []
  | v :: t, last, run =>
    let bit (b : Bool) : LineBit := ⟨(if v.getLsbD 25 then ddiv else div) + 1, b, v.getLsbD 26⟩
    if v.getLsbD 24 then
      let r := stuffBits (groupBits v.toNat) last run
      r.1.map bit ++ groupWave div ddiv t r.2.1 r.2.2
    else (groupBits v.toNat).map bit ++ groupWave div ddiv t false 0

/-- What entries put on a line: in ASYNC, LEAD bit times, the characters and LAG bit times; in BITSTREAM, the groups. A DIV below 3 is
handled as 3 (R424-R426). -/
def entriesWave (s : State) (k : Line) (lag : Nat) (l : List Word32) : List LineBit :=
  let div := max 3 (s.get (BL.RATE.DIV k))
  if isBitstream s k then groupWave div (s.get (BL.RATE.DDIV k)) l false 0
  else
    let bit (b : Bool) : LineBit := ⟨div + 1, b, false⟩
    List.replicate (s.get (BL.DE.LEAD k)) (bit true) ++ (l.flatMap (charWave s k)).map bit ++ List.replicate lag (bit true)

/-- The wave of an occupancy: of the entries that have left the FIFO since its start, and of those in it. -/
def lineWave (s : State) (k : Line) : List LineBit :=
  let x := s.line k
  entriesWave s k (s.get (BL.DE.LAG k)) (x.gone ++ x.tx)

/-- The length of a wave in PER_CLK cycles. -/
def waveLength (l : List LineBit) : Nat := (l.map (·.len)).sum

/-- An entry leaves the FIFO as its first bit begins: there are four ENG_CLK cycles in one of PER_CLK (R388, R425). -/
def takeEntry (k : Line) (s : State) : State :=
  let x := s.line k
  match x.tx with
  | v :: t =>
    if 4 * waveLength (entriesWave s k 0 x.gone) ≤ x.age then s.modLine k (fun y => { y with gone := x.gone ++ [v], tx := t }) else s
  | [] => s

/-- An occupancy begins. -/
def startOccupancy (k : Line) (s : State) : State :=
  takeEntry k ((s.raise (BL.STAT.TXBUSY k)).modLine k (fun x => { x with gone := [], age := 0 }))

/-- The line's cluster is in RUN or IDLE; else its outputs stay idle (R439). -/
def lineUp (s : State) (k : Line) : Bool := s.cluUp (lineClu k)

/-- BL_TRANSMIT_START (R426): in service, with an entry queued and no timed start armed. -/
def execBlTransmitStart (k : Line) (s : State) : Res :=
  let x := s.line k
  .next (if lineUp s k && s.on (BL.CTRL.EN k) && !x.tx.isEmpty && x.start.isNone && !s.on (BL.STAT.TXBUSY k) then startOccupancy k s else s)

/-- One ENG_CLK cycle of an occupancy. -/
def tickLine (s : State) (k : Line) : State :=
  if s.on (BL.STAT.TXBUSY k) && lineUp s k then takeEntry k (s.modLine k (fun x => { x with age := x.age + 1 })) else s

/-- What has been on a line leaves the block as a record of its output. DE is driven in ASYNC (R426). -/
def showWave (k : Line) (l : List LineBit) (s : State) : State :=
  s.emit (.bitline k (!isBitstream s k) (l.map (fun b => (b.len, b.level))))

/-- The occupancy ends: what has been on the line leaves the block, and the FIFO is empty. -/
def endOccupancy (k : Line) (l : List LineBit) (s : State) : State :=
  ((showWave k l s).lower (BL.STAT.TXBUSY k)).modLine k (fun x => { x with tx := [], gone := [], age := 0 })

/-- The first cycles of a wave. -/
def cutWave : Nat → List LineBit → List LineBit
  | _, [] => []
  | n, b :: t => if n = 0 then [] else if n < b.len then [{ b with len := n }] else b :: cutWave (n - b.len) t

/-- An occupancy is cut off: the line goes idle where it stands, and the entries that had not begun stay queued. -/
def cutLine (k : Line) (s : State) : State :=
  if s.on (BL.STAT.TXBUSY k) then
    let l := cutWave ((s.line k).age / 4) (lineWave s k)
    let s := if l.isEmpty then s else showWave k l s
    (s.lower (BL.STAT.TXBUSY k)).modLine k (fun x => { x with gone := [], age := 0 })
  else s

/-- BL_TRANSMIT_END (R425, R426): the queued entries have been sent and the occupancy ends; or arbitration was lost in a bit of
it, sent recessive in a group with ARB: transmission stops after that bit, LOST is set and the FIFO is emptied. -/
def execBlTransmitEnd (k : Line) (lost : Option Nat) (s : State) : Res :=
  if !(s.on (BL.STAT.TXBUSY k) && lineUp s k) then .next s
  else
    let w := lineWave s k
    match lost with
    | none => .next (endOccupancy k w s)
    | some i =>
      if (w[i]?).any (fun b => b.arb && b.level) then .next ((endOccupancy k (w.take (i + 1)) s).raise (BL.STAT.LOST k)) else .next s

/-! ### Receive (R425, R428) -/

/-- An entry for BL.RXD: one that finds it full is dropped (R425). -/
def lineReceive (k : Line) (v : Nat) (s : State) : State :=
  if lineDepth ≤ (s.line k).rx.length then s.raise (BL.STAT.RXOVF k)
  else s.modLine k (fun x => { x with rx := x.rx ++ [BitVec.ofNat 32 v] })

/-- A received bit of BITSTREAM: with RXSTUFF the bit after five equal ones is a stuff bit and is removed; a sixth equal bit sets
STUFFERR and stays (R425). -/
def receiveBit (k : Line) (s : State) (b : Bool) : State :=
  let x := s.line k
  let stuff := s.on (BL.CTRL.RXSTUFF k) && x.run == 5
  let y := { x with last := b, run := runLength x.last x.run b }
  if stuff && b != x.last then s.modLine k (fun _ => y)
  else (if stuff then s.raise (BL.STAT.STUFFERR k) else s).modLine k (fun _ => { y with shift := x.shift ++ [b] })

/-- Sixteen bits make a word, the first at bit 15 (R425). -/
def packBits (k : Line) (s : State) : State :=
  let l := (s.line k).shift
  if 16 ≤ l.length then
    let v := (l.take 16).foldl (fun v b => 2 * v + b.toNat) 0
    lineReceive k (v + 2 ^ 16) (s.modLine k (fun x => { x with shift := l.drop 16 }))
  else s

/-- The parity of a received character is wrong: `par` is its parity bit (R425). -/
def parityBad (s : State) (k : Line) (d : List Bool) (par : Bool) : Bool := (parityBit s k d).any (· != par)

/-- The start of the bit moves to an edge from recessive to dominant: after at least 11 recessive bits the receiver takes up the edge as the
start of a bit; else by at most SJW cycles, later where the bit has not been sampled, earlier where it has (R425; log entry 52). -/
def edgeSync (n sjw : Nat) (x : BitSt) : BitSt :=
  if 11 ≤ x.quiet then { x with pos := 0, sampled := false, quiet := 0 }
  else if !x.sampled then { x with pos := x.pos - min x.pos sjw }
  else if n - x.pos ≤ sjw then { x with pos := 0, sampled := false }
  else { x with pos := x.pos + sjw }

/-- One PER_CLK cycle of the bit-stream receiver at a level of BL_RX: it synchronizes at edges, and samples a bit of `n` cycles at the
sample point (R425). -/
def receiveLevel (k : Line) (n sp : Nat) (s : State) (v : Bool) : State :=
  let x := s.line k
  let y := if x.level && !v then edgeSync n (s.get (BL.FMT.SJW k)) x else x
  let hit := decide (y.pos = sp) && !y.sampled
  let y := if hit then { y with sampled := true, quiet := if v then y.quiet + 1 else 0 } else y
  let y := if n ≤ y.pos + 1 then { y with pos := 0, sampled := false } else { y with pos := y.pos + 1 }
  let s := s.modLine k (fun _ => { y with level := v })
  if hit then packBits k (receiveBit k s v) else s

/-- BL_RECEIVE (R425). In ASYNC, a character: `data` are its data bits, the first one first, `err` whether a stop bit was wrong, `par` the
parity bit as received. In BITSTREAM, `data` are the levels of BL_RX at successive PER_CLK edges, with 1 recessive, and `err` tells whether
the line is at the data rate: the manual does not say what takes the receiver to DSP. In half duplex, nothing is received while DE is
1 unless ECHO is set. -/
def execBlReceive (k : Line) (data : List Bool) (err par : Bool) (s : State) : Res :=
  let deaf := s.get (BL.CTRL.MODE k) == 0 && s.on (BL.STAT.TXBUSY k) && !s.on (BL.CTRL.ECHO k)
  if !lineUp s k || !s.on (BL.CTRL.EN k) || deaf then .next s
  else if isBitstream s k then
    let n := (if err then s.get (BL.RATE.DDIV k) else max 3 (s.get (BL.RATE.DIV k))) + 1
    .next (data.foldl (receiveLevel k n (if err then s.get (BL.FMT.DSP k) else s.get (BL.FMT.SP k))) s)
  else
    let d := (List.range (charBits s k)).map (fun i => data.getD i false)
    let bad := err || parityBad s k d par
    .next (lineReceive k ((d.zipIdx.map (fun b => b.1.toNat * 2 ^ b.2)).sum + 2 ^ 16 + 2 ^ 17 * bad.toNat) s)

/-- A read of BL.RXD: the oldest entry, which it removes, or 0. -/
def lineRead (k : Line) (s : State) : Nat × State :=
  match (s.line k).rx with
  | v :: t => (v.toNat, s.modLine k (fun x => { x with rx := t }))
  | [] => (0, s)

/-- BL_RXD_READ (R428). -/
def execBlRxdRead (k : Line) (s : State) : Res :=
  let (v, s) := lineRead k s
  .next { s with ans := ⟨0, v⟩ }

/-! ### Occupancy and timed starts (R424, R426, R427) -/

/-- The occupancy of a line's FIFO in ps (R426). -/
def occupancy (s : State) (k : Line) : Nat := 5000 * waveLength (lineWave s k)

/-- A write of BL.TSTART_H arms a timed start (R427). -/
def armLine (k : Line) (v : Nat) (s : State) : State :=
  let s := s.put (BL.TSTART_H.T k) v
  let t := s.get48 (BL.TSTART_L.T k) (BL.TSTART_H.T k)
  s.modLine k (fun x => { x with start := some t })

/-- BL_TSTART (R427). -/
def execBlTstart (k : Line) (v : BitVec 16) (s : State) : Res := .next (armLine k v.toNat s)

/-- TIMED_START_DUE (R427): the occupancy begins, or the window check refuses it and the request is disarmed. -/
def execTimedStartDue (k : Line) (s : State) : Res :=
  match (s.line k).start with
  | none => .next s
  | some t =>
    let n := lineClu k
    let l := lineNo k
    if !startDue (s.dom (Fin.ofNat 4 (s.get (TTW.CTRL.DOM n l)))).lo t || s.on (BL.STAT.TXBUSY k) || !lineUp s k then .next s
    else
      let s' := s.modLine k (fun x => { x with start := none })
      if (s.line k).tx.isEmpty || !s.on (BL.CTRL.EN k) then .next s'
      else if windowCheck s n l (fun d => (d.ps : Int)) (occupancy s k) = .ok then .next (startOccupancy k s')
      else .next ((s'.raise (BL.STAT.LATE k)).count (TTW.LATE.CNT n l))

/-- A timed start is disarmed (R428). -/
def disarmLine (k : Line) (s : State) : State := s.modLine k (fun x => { x with start := none })

/-- BL_DISARM (R428). -/
def execBlDisarm (k : Line) (s : State) : Res := .next (disarmLine k s)

/-- EN of a line falls: both FIFOs are emptied and the line is driven idle (R428). -/
def stopLine (k : Line) (s : State) : State :=
  (cutLine k s).modLine k (fun x => { BitSt.reset with start := x.start })

end Sys2Proof.Machine
end

