-- ==== Sys2Proof/Machine/Arith.lean ====
section
/-! DEFINITION. The arithmetic of an engine's units as functions of their operands: ALU, multiplier, divider, shifter and
CRC unit (R200, R234-R239, R249). -/

namespace Sys2Proof.Machine

/-! ### Width modifiers (R200, R201) -/

/-- The bits of a lane, by its width modifier (R200). -/
def laneBits (w : Nat) : Nat :=
  match w with
  | 1 | 5 => 8
  | 2 | 6 => 16
  | 3 | 7 => 24
  | 4 | 8 => 32
  | _ => 48

/-- The bytes of an access, by its width modifier (R223). -/
def laneBytes (w : Nat) : Nat := laneBits w / 8

/-- A value through a width modifier (R200). -/
def widen (w : Nat) (v : Word) : Word :=
  if 5 ≤ w ∧ w ≤ 8 then BitVec.ofInt 48 (toSigned (laneBits w) v.toNat)
  else BitVec.ofNat 48 (v.toNat % 2 ^ laneBits w)

/-! ### ALU (R234, R235) -/

/-- The operations of an ALU, in the order of their ports from +0x04 (R234). -/
inductive AluFn where
  | add | addc | sub | subc | rsub | and | or | xor | andn | min | max | minu | maxu | abs | neg | seq | slt | sltu
  | adds | subs | pass
  deriving DecidableEq, Repr

/-- What a trigger leaves: R, C where the trigger sets it, and overflow (R235). -/
structure AluOut where
  r : Word
  c : Option Bool
  ov : Bool
  deriving DecidableEq, Repr

/-- The exact signed result of an arithmetic trigger, wrapped, with its overflow (R235). -/
def aluExact (x : Int) (c : Option Bool) : AluOut :=
  { r := BitVec.ofInt 48 x, c := c, ov := decide (x < -(2 ^ 47) ∨ 2 ^ 47 ≤ x) }

/-- A result that changes no carry and cannot overflow. -/
def aluPlain (r : Word) : AluOut := { r := r, c := none, ov := false }

/-- Saturation to 48 bits, signed. -/
def saturate (x : Int) : Word :=
  if x < -(2 ^ 47) then BitVec.ofInt 48 (-(2 ^ 47)) else if 2 ^ 47 ≤ x then BitVec.ofInt 48 (2 ^ 47 - 1) else BitVec.ofInt 48 x

/-- An ALU operation on A, B and C (R234, R235). -/
def aluOp (fn : AluFn) (a b : Word) (c : Bool) : AluOut :=
  let k : Nat := c.toNat
  match fn with
  | .add => aluExact (a.toInt + b.toInt) (some (decide (2 ^ 48 ≤ a.toNat + b.toNat)))
  | .addc => aluExact (a.toInt + b.toInt + k) (some (decide (2 ^ 48 ≤ a.toNat + b.toNat + k)))
  | .sub => aluExact (a.toInt - b.toInt) (some (decide (a.toNat < b.toNat)))
  | .subc => aluExact (a.toInt - b.toInt - k) (some (decide (a.toNat < b.toNat + k)))
  | .rsub => aluExact (b.toInt - a.toInt) (some (decide (b.toNat < a.toNat)))
  | .and => aluPlain (a &&& b)
  | .or => aluPlain (a ||| b)
  | .xor => aluPlain (a ^^^ b)
  | .andn => aluPlain (a &&& ~~~ b)
  | .min => aluPlain (if a.toInt ≤ b.toInt then a else b)
  | .max => aluPlain (if a.toInt ≤ b.toInt then b else a)
  | .minu => aluPlain (if a.toNat ≤ b.toNat then a else b)
  | .maxu => aluPlain (if a.toNat ≤ b.toNat then b else a)
  | .abs => aluExact (if b.toInt < 0 then -b.toInt else b.toInt) none
  | .neg => aluExact (-b.toInt) none
  | .seq => aluPlain (if a = b then 1 else 0)
  | .slt => aluPlain (if a.toInt < b.toInt then 1 else 0)
  | .sltu => aluPlain (if a.toNat < b.toNat then 1 else 0)
  | .adds => aluPlain (saturate (a.toInt + b.toInt))
  | .subs => aluPlain (saturate (a.toInt - b.toInt))
  | .pass => aluPlain b

/-- The triggers marked A in R234. -/
def AluFn.arith : AluFn → Bool
  | .add | .addc | .sub | .subc | .rsub | .abs | .neg => true
  | _ => false

/-! ### Multiplier (R236, R237) -/

/-- The product of a trigger. -/
def mulProduct (fn : MulFn) (a b : Word) : Int :=
  match fn with
  | .mulu => (a.toNat : Int) * b.toNat
  | .mulsu => a.toInt * b.toNat
  | _ => a.toInt * b.toInt

/-- PH:PL after a trigger completes, and whether a MAC or MSU leaves the 96-bit signed range (R237). -/
def mulDone (m : MulOp) (pair : BitVec 96) : BitVec 96 × Bool :=
  let p := mulProduct m.fn m.a m.b
  let x : Int :=
    match m.fn with
    | .mac => pair.toInt + p
    | .msu => pair.toInt - p
    | _ => p
  let acc := decide (m.fn = .mac) || decide (m.fn = .msu)
  (BitVec.ofInt 96 x, acc && decide (x < -(2 ^ 95) ∨ 2 ^ 95 ≤ x))

/-! ### Divider (R238) -/

/-- Quotient and remainder of a divide (R238). -/
def divide (signed : Bool) (a b : Word) : Word × Word :=
  if signed then
    if b = 0 then (if a.toInt < 0 then 1 else BitVec.ofInt 48 (-1), a)
    else (BitVec.ofInt 48 (a.toInt.tdiv b.toInt), BitVec.ofInt 48 (a.toInt.tmod b.toInt))
  else
    if b = 0 then (BitVec.ofInt 48 (-1), a)
    else (BitVec.ofNat 48 (a.toNat / b.toNat), BitVec.ofNat 48 (a.toNat % b.toNat))

/-- A signed divide that overflows (R238). -/
def divOverflows (signed : Bool) (a b : Word) : Bool :=
  signed && decide (a.toInt = -(2 ^ 47)) && decide (b.toInt = -1)

/-! ### Shifter and bit-field unit (R239) -/

/-- The operations of the shifter, in the order of their ports from 0x0A4 (R239). -/
inductive ShFn where
  | shl | shr | sar | rol | ror | extu | exts | ins | clz | ctz | popc | brev | bswap | bswap4 | bswap2
  deriving DecidableEq, Repr

/-- The width of the field described by a value, cut at bit 47; 0 for an empty field. -/
def fieldWidth (b : Word) : Nat :=
  let pos := b.toNat % 64
  let w := b.toNat / 256 % 64
  min (if w = 0 ∨ 48 < w then 48 else w) (48 - pos)

/-- The number of set bits among the low `n`. -/
def popCount (v : Nat) : Nat → Nat
  | 0 => 0
  | n + 1 => (v.testBit n).toNat + popCount v n

/-- The first set bit at or above `i`, at most `n` places further. -/
def firstSet (v i : Nat) : Nat → Nat
  | 0 => 0
  | n + 1 => if v.testBit i then 0 else firstSet v (i + 1) n + 1

/-- The `n` low bits in reverse order. -/
def revBits : Nat → Nat → Nat
  | 0, _ => 0
  | n + 1, v => (v % 2) * 2 ^ n + revBits n (v / 2)

/-- The `n` low bytes in reverse order. -/
def revBytes (n v : Nat) : Nat := natBE (bytesLE n v)

/-- A shifter operation on A, B and I (R239). -/
def shOp (fn : ShFn) (a b i : Word) : Word :=
  let n := b.toNat % 64
  let w := fieldWidth b
  match fn with
  | .shl => if 47 < n then 0 else a <<< n
  | .shr => if 47 < n then 0 else a >>> n
  | .sar => a.sshiftRight (min n 47)
  | .rol => a.rotateLeft (n % 48)
  | .ror => a.rotateRight (n % 48)
  | .extu => BitVec.ofNat 48 (a.toNat / 2 ^ n % 2 ^ w)
  | .exts => if w = 0 then 0 else BitVec.ofInt 48 (toSigned w (a.toNat / 2 ^ n))
  | .ins =>
    let m := BitVec.ofNat 48 ((2 ^ w - 1) * 2 ^ n)
    if w = 0 then a else (a &&& ~~~ m) ||| ((i <<< n) &&& m)
  | .clz => BitVec.ofNat 48 (firstSet (revBits 48 b.toNat) 0 48)
  | .ctz => BitVec.ofNat 48 (firstSet b.toNat 0 48)
  | .popc => BitVec.ofNat 48 (popCount b.toNat 48)
  | .brev => BitVec.ofNat 48 (revBits 48 b.toNat)
  | .bswap => BitVec.ofNat 48 (revBytes 6 b.toNat)
  | .bswap4 => BitVec.ofNat 48 (revBytes 4 b.toNat)
  | .bswap2 => BitVec.ofNat 48 (revBytes 2 b.toNat)

/-! ### CRC unit (R249) -/

/-- Width and polynomial by POLY (R249). -/
def crcPoly (p : Nat) : Nat × Nat :=
  match p with
  | 0 => (32, 0x04C11DB7)
  | 1 => (32, 0x1EDC6F41)
  | 2 => (16, 0x1021)
  | 3 => (16, 0x8005)
  | 4 => (17, 0x1685B)
  | 5 => (21, 0x102899)
  | 6 => (8, 0x07)
  | _ => (24, 0x864CFB)

/-- One bit enters the remainder. -/
def crcBit (w poly st : Nat) (b : Bool) : Nat :=
  let top := st.testBit (w - 1) != b
  let sh := st * 2 % 2 ^ w
  if top then sh ^^^ (poly % 2 ^ w) else sh

/-- The bits of a byte in the order in which they enter: lowest first under REFIN. -/
def crcBits (refin : Bool) (b : Byte) : List Bool :=
  let l := (List.range 8).map (fun i => b.getLsbD i)
  if refin then l else l.reverse

/-- Bytes enter the remainder in order (R249). -/
def crcFeed (cfg : BitVec 5) (st : Nat) (bs : List Byte) : Nat :=
  let (w, poly) := crcPoly (cfg.toNat % 8)
  bs.foldl (fun st b => (crcBits (cfg.getLsbD 3) b).foldl (crcBit w poly) st) (st % 2 ^ w)

/-- CRC.STATE as it reads (R249). -/
def crcRead (cfg : BitVec 5) (st : BitVec 32) : Nat := st.toNat % 2 ^ (crcPoly (cfg.toNat % 8)).1

/-- CRC.OUT (R249). -/
def crcOut (cfg : BitVec 5) (st xor : BitVec 32) : Nat :=
  let w := (crcPoly (cfg.toNat % 8)).1
  let v := crcRead cfg st
  (if cfg.getLsbD 4 then revBits w v else v) ^^^ (xor.toNat % 2 ^ w)

/-! ### Post-update of an address generator (R226) -/

/-- The `k` with 2^k = n, below 25. -/
def log2? (n : Nat) : Option Nat := (List.range 25).find? (fun k => decide (2 ^ k = n))

/-- ADDR after an LD or ST (R226). -/
def postUpdate (x : AgSt) : BitVec 24 :=
  let a := x.addr.toNat
  let st := x.start.toNat
  let len := x.len.toNat
  let e := min (x.mode.toNat / 4) 4
  let modulo : BitVec 24 :=
    if len = 0 then x.addr + x.step
    else BitVec.ofNat 24 (st + (((a : Int) - st + x.step.toInt) % (len : Int)).toNat)
  match x.mode.toNat % 4 with
  | 0 => x.addr
  | 1 => x.addr + x.step
  | 2 => modulo
  | _ =>
    match log2? len with
    | some k =>
      if e < k then
        let w := k - e
        let off := (((a : Int) - st) % (2 ^ k : Nat)).toNat
        let f := revBits w ((revBits w (off / 2 ^ e) + revBits w (x.step.toNat / 2 ^ e % 2 ^ w)) % 2 ^ w)
        BitVec.ofNat 24 (st + f * 2 ^ e + off % 2 ^ e)
      else modulo
    | none => modulo

end Sys2Proof.Machine
end

