-- ==== Sys2Proof/Machine/Bundle.lean ====
section
/-! DEFINITION. The 48-bit bundles of an engine: formats, decoder and encoder (R194-R207), and the port table: directions,
kinds, units and population (R231-R261). -/

namespace Sys2Proof.Machine

/-! ### Formats (R198-R207) -/

/-- One slot of a dual move: destination port, source field and width modifier (R198). -/
structure Slot where
  dst : BitVec 9
  src : BitVec 10
  width : BitVec 4
  deriving DecidableEq, Repr

/-- A bundle by its format (R198, R207). `bad` is an extended bundle with a reserved subop or a set must-be-0 bit. -/
inductive Bundle where
  | dual (s0 s1 : Slot)
  | long (dst : BitVec 9) (imm : BitVec 37)
  | branch (cond : BitVec 4) (a b : BitVec 10) (disp : BitVec 22)
  | repeat (src int : Bool) (count : BitVec 16)
  | trap (n : BitVec 5)
  | bad (w : BitVec 46)
  deriving DecidableEq, Repr

/-- A slot from 23 bits: destination, source, width from the top (R198). -/
def decodeSlot (v : BitVec 23) : Slot :=
  { dst := v.extractLsb' 14 9, src := v.extractLsb' 4 10, width := v.extractLsb' 0 4 }

/-- The 23 bits of a slot. -/
def encodeSlot (s : Slot) : BitVec 23 := s.dst ++ s.src ++ s.width

/-- A bundle from its 48 bits (R198, R207). -/
def decodeBundle (v : Word) : Bundle :=
  let top : BitVec 2 := v.extractLsb' 46 2
  let rest : BitVec 46 := v.extractLsb' 0 46
  if top = 0 then .dual (decodeSlot (v.extractLsb' 23 23)) (decodeSlot (v.extractLsb' 0 23))
  else if top = 1 then .long (v.extractLsb' 37 9) (v.extractLsb' 0 37)
  else if top = 2 then .branch (v.extractLsb' 42 4) (v.extractLsb' 32 10) (v.extractLsb' 22 10) (v.extractLsb' 0 22)
  else
    let sub : BitVec 4 := v.extractLsb' 42 4
    if sub = 0 ∧ v.extractLsb' 16 24 = 0#24 then
      .repeat (v.getLsbD 41) (v.getLsbD 40) (v.extractLsb' 0 16)
    else if sub = 8 ∧ v.extractLsb' 5 37 = 0#37 then .trap (v.extractLsb' 0 5)
    else .bad rest

/-- The 48 bits of a bundle (R198, R207). -/
def encodeBundle : Bundle → Word
  | .dual s0 s1 => 0#2 ++ encodeSlot s0 ++ encodeSlot s1
  | .long dst imm => 1#2 ++ dst ++ imm
  | .branch c a b d => 2#2 ++ c ++ a ++ b ++ d
  | .repeat src int count => 3#2 ++ 0#4 ++ BitVec.ofBool src ++ BitVec.ofBool int ++ 0#24 ++ count
  | .trap n => 3#2 ++ 8#4 ++ 0#37 ++ n
  | .bad w => 3#2 ++ w

/-- The bundle is one that a decoder can give: `bad` holds only the encodings that R207 reserves. -/
def Bundle.wf : Bundle → Bool
  | .bad w =>
    let sub : BitVec 4 := w.extractLsb' 42 4
    !(decide (sub = 0) && decide (w.extractLsb' 16 24 = 0#24)) && !(decide (sub = 8) && decide (w.extractLsb' 5 37 = 0#37))
  | _ => true

/-! ### The port table (R231-R261) -/

/-- Management engine (R12). -/
def isMe (e : Eng) : Bool := decide (e.val < 2)

/-- The port clusters' number of an engine; 4 for the management cluster. -/
def engCluster (e : Eng) : Nat := if e.val < 2 then 4 else (e.val - 2) / 3

/-- The number lies in a range, both ends included. -/
def within (p lo hi : Nat) : Bool := decide (lo ≤ p ∧ p ≤ hi)

/-- Ports that exist on this engine (R261). -/
def populated (e : Eng) (p : Nat) : Bool :=
  if within p 0x150 0x153 then isMe e
  else if within p 0x160 0x167 || within p 0x18C 0x191 then !isMe e
  else true

/-- The number is a husk port that is present (R255). -/
def huskPresent (s : State) (p : Nat) : Bool :=
  if p < 0x1E0 then s.bit Reg.HSK.PRES_L.PRES (p - 0x1C0) else s.bit Reg.HSK.PRES_H.PRES (p - 0x1E0)

/-- A number in the tables of R233 to R253 that may be a destination. -/
def destListed (p : Nat) : Bool :=
  within p 0x000 0x03F ||
  (within p 0x040 0x07F && (let o := p % 0x20; o == 0 || o == 2 || within o 4 0x18)) ||
  within p 0x080 0x087 || within p 0x090 0x092 ||
  p == 0x0A0 || p == 0x0A2 || within p 0x0A4 0x0B2 ||
  (within p 0x0C0 0x0FF && within (p % 0x10) 0 0xB) ||
  within p 0x100 0x102 || within p 0x104 0x109 ||
  within p 0x120 0x125 || within p 0x129 0x12A || within p 0x12C 0x12F || within p 0x134 0x136 ||
  p == 0x140 || p == 0x142 || p == 0x148 || p == 0x149 || p == 0x14B || p == 0x14C || p == 0x14D ||
  p == 0x150 || p == 0x151 || p == 0x153 || p == 0x160 || p == 0x163 || p == 0x165 || p == 0x167 ||
  within p 0x170 0x172 || within p 0x174 0x177 || within p 0x188 0x18B || within p 0x18D 0x18F || within p 0x1A0 0x1BF

/-- A number in the tables that may be a source. -/
def srcListed (p : Nat) : Bool :=
  within p 0x000 0x03F ||
  (within p 0x040 0x07F && within (p % 0x20) 0 2) ||
  p == 0x080 || within p 0x086 0x088 || p == 0x090 || within p 0x093 0x094 || within p 0x0A0 0x0A2 ||
  (within p 0x0C0 0x0FF && (within (p % 0x10) 0 5 || within (p % 0x10) 0xC 0xD)) ||
  within p 0x102 0x107 || p == 0x120 || within p 0x122 0x133 || within p 0x136 0x138 ||
  p == 0x140 || p == 0x141 || p == 0x143 || p == 0x144 || p == 0x148 || p == 0x14A || p == 0x14C || p == 0x14E ||
  p == 0x14F || p == 0x150 || p == 0x152 || within p 0x160 0x162 || p == 0x164 || p == 0x166 ||
  within p 0x170 0x173 || within p 0x180 0x191 || within p 0x1A0 0x1A9

/-- A move may write the port (R204, R231). -/
def canWrite (s : State) (e : Eng) (p : Nat) : Bool :=
  if 0x1C0 ≤ p then huskPresent s p else populated e p && destListed p

/-- A move may read the port (R204, R231). -/
def canRead (s : State) (e : Eng) (p : Nat) : Bool :=
  if 0x1C0 ≤ p then huskPresent s p else populated e p && srcListed p

/-- The unit that a move to the port triggers: Trig and Act ports (R232). Unit numbers are the model's own. -/
def destUnit (p : Nat) : Option Nat :=
  if within p 0x040 0x07F then if within (p % 0x20) 4 0x18 then some (if p < 0x060 then 0 else 1) else none
  else if within p 0x081 0x085 then some 2
  else if within p 0x091 0x092 then some 3
  else if within p 0x0A4 0x0B2 then some 4
  else if within p 0x0C0 0x0FF then if within (p % 0x10) 6 0xB then some (5 + (p - 0x0C0) / 0x10) else none
  else if p == 0x100 || p == 0x101 || p == 0x108 || p == 0x109 then some 9
  else if p == 0x121 || p == 0x134 || p == 0x135 then some 10
  else if p == 0x142 then some 11
  else if p == 0x149 || p == 0x14B then some 12
  else if p == 0x14D then some 13
  else if p == 0x151 || p == 0x153 then some 14
  else if p == 0x163 || p == 0x165 || p == 0x167 then some 15
  else if within p 0x174 0x177 then some 16
  else if within p 0x188 0x18B then some 17
  else if p == 0x18E then some 18
  else if within p 0x1A0 0x1BF then some (32 + (p - 0x1A0))
  else if 0x1C0 ≤ p then some 20
  else none

/-- The unit on which a read of the port acts: Req ports (R232). -/
def srcUnit (p : Nat) : Option Nat :=
  if p == 0x141 then some 11
  else if p == 0x14E then some 13
  else if within p 0x180 0x18B then some 17
  else if p == 0x190 then some 18
  else if within p 0x1A2 0x1A9 then some 19
  else if 0x1C0 ≤ p then some 20
  else none

/-- The ports whose width modifier is the size of the access (R200, R223). -/
def sizedPort (p : Nat) : Bool := within p 0x0C0 0x0FF && within (p % 0x10) 6 0xA

/-! ### Illegal bundles (R203, R206, R208, R213, R216, R218) -/

/-- The port that a source field names, if it names one (R199). -/
def srcPort (f : BitVec 10) : Option Nat := if f.toNat < 0x200 then some f.toNat else none

/-- The unit that a source field acts on. -/
def fieldUnit (f : BitVec 10) : Option Nat := (srcPort f).bind srcUnit

/-- A null move (R203). -/
def Slot.null (x : Slot) : Bool := decide (x.dst.toNat < 64) && decide (x.src.toNat = x.dst.toNat) && decide (x.width = 0)

/-- The units that a move triggers (R203, R232). -/
def Slot.units (x : Slot) : List Nat := (destUnit x.dst.toNat).toList ++ (fieldUnit x.src).toList

/-- A control transfer by its move (R200, chapter "Control transfers"). -/
def Slot.transfers (x : Slot) : Bool := x.dst == 0x100 || x.dst == 0x101 || x.dst == 0x121

/-- The bundle is a control transfer. -/
def Bundle.transfers : Bundle → Bool
  | .dual s0 s1 => s0.transfers || s1.transfers
  | .long dst _ => dst == 0x100 || dst == 0x101 || dst == 0x121
  | .branch .. => true
  | .trap _ => true
  | _ => false

/-- The bundle is a repeat prefix. -/
def Bundle.isRepeat : Bundle → Bool
  | .repeat .. => true
  | _ => false

/-- The bundle is illegal by its encoding alone (R203, R206-R208). -/
def Bundle.illegal : Bundle → Bool
  | .dual s0 s1 =>
    decide (8 < s0.width.toNat) || decide (8 < s1.width.toNat) ||
      (!s0.null && !s1.null && (decide (s0.dst = s1.dst) || s0.units.any (fun u => s1.units.contains u)))
  | .branch c a b _ =>
    decide (11 < c.toNat) || (match fieldUnit a, fieldUnit b with | some x, some y => x == y | _, _ => false)
  | .bad _ => true
  | _ => false

end Sys2Proof.Machine
end

