-- ==== Sys2Proof/Machine/Trace.lean ====
section
/-! DEFINITION. Trace packets and the trace FIFO (R461, R462). -/

namespace Sys2Proof.Machine

open Reg

/-- The words that the trace FIFO holds (R461). -/
def traceDepth : Nat := 1024

/-- A header word: type, source, type-specific bits and the low cycle field (R461). -/
def traceHeader (ty src spec cyc : Nat) : Word32 :=
  BitVec.ofNat 32 (ty * 2 ^ 28 + src % 16 * 2 ^ 24 + spec % 256 * 2 ^ 16 + cyc % 2 ^ 16)

/-- The LOST packet of a count (R461). -/
def lostPacket (n : Nat) : List Word32 := if n = 0 then [] else [traceHeader 7 15 0 (min n 65535)]

/-- A packet enters the FIFO whole, after a LOST packet where packets were dropped, or is dropped and counted (R462). -/
def tracePacket (ws : List Word32) (s : State) : State :=
  let t := s.trace
  let all := lostPacket t.lost ++ ws
  if t.fifo.length + all.length ≤ traceDepth then
    { s with trace := { t with fifo := t.fifo ++ all, lost := 0 } }
  else State.count { s with trace := { t with lost := t.lost + 1 } } TRC.STAT.LOST

/-- A packet of a type, emitted while LOCKED or only while OPEN, with trace enabled: it enters the FIFO at the end of the cycle (R461,
R462). -/
def traceEvent (locked : Bool) (ty src slot spec : Nat) (body : List Word32) (s : State) : State :=
  if s.on TRC.CTRL.EN && (locked || s.on DBG.LOCK.OPEN) then
    let t := s.trace
    { s with trace := { t with now := t.now ++ [⟨src, slot, traceHeader ty src spec t.cyc.toNat :: body⟩], quiet := 0 } }
  else s

/-- The packets that a bundle has emitted, those after the first `n`, stand in the order of its slots (R252, R462). -/
def packetOrder (n : Nat) (s : State) : State :=
  let l := s.trace.now
  { s with trace := { s.trace with now := l.take n ++ (List.range 3).flatMap (fun k => (l.drop n).filter (fun p => p.slot == k)) } }

/-- The packets of the cycle enter the FIFO in ascending engine index, SRC 0xF last (R462). -/
def enterPackets (s : State) : State :=
  let l := (List.range 16).flatMap (fun k => s.trace.now.filter (fun p => p.src == k))
  l.foldl (fun t p => tracePacket p.words t) { s with trace := { s.trace with now := [] } }

/-- The two words of a 48-bit value, with bits for the upper half of the second. -/
def traceWord (v : Word) (hi : Nat) : List Word32 :=
  [BitVec.ofNat 32 v.toNat, BitVec.ofNat 32 (v.toNat / 2 ^ 32 + hi * 2 ^ 16)]

/-- A SYNC packet (R461). -/
def traceSync (s : State) : State :=
  let s := traceEvent true 1 15 0 0 [0x5A5A5A5A, BitVec.ofNat 32 s.trace.cyc.toNat, BitVec.ofNat 32 (s.trace.cyc.toNat / 2 ^ 32)] s
  { s with trace := { s.trace with sent := 0 } }

/-- A FLOW packet of an engine: kind, new PC, vector (R461). -/
def traceFlow (e : Eng) (kind : Nat) (pc : Word) (vec : Nat) (s : State) : State :=
  if s.on (TRC.E.CFG.FLOW e) then traceEvent false 3 e 2 kind (traceWord pc vec) s else s

/-- TRACE_SYNC (R462): after SYNCPER × 256 words sent, or 32,768 cycles without a packet. -/
def execTraceSync (s : State) : Res :=
  let per := s.get TRC.CTRL.SYNCPER * 256
  .next (if (decide (0 < per) && decide (per ≤ s.trace.sent)) || decide (32768 ≤ s.trace.quiet) then traceSync s else s)

end Sys2Proof.Machine
end

