-- ==== Sys2Proof/Machine/Windows.lean ====
section
/-! DEFINITION. Access to the memory windows and their aliases by any master: who is admitted, what an error answers, and
what the access does (R46, R286-R294, R298, R299, R303, R379, R416, R467, R475). -/

namespace Sys2Proof.Machine

open Reg

/-- Where a block-relative address lies (R467). -/
inductive Place where
  | regs | cluster | spad (i : Nat) | ctrl | granary | setAlias (a : Nat) | clrAlias (a : Nat) | reserved
  deriving DecidableEq, Repr

/-- The place of an address (R467, R475). -/
def placeOf (a : Nat) : Place :=
  if a < 0x400000 then .regs
  else if inClu a then .cluster
  else if inSp a then .spad ((a - 0x600000) / 0x20000)
  else if inCs a then .ctrl
  else if inGran a then .granary
  else if 0x2400000 ≤ a ∧ a < 0x3800000 then .setAlias (a - 0x2000000)
  else if 0x4400000 ≤ a ∧ a < 0x5800000 then .clrAlias (a - 0x4000000)
  else .reserved

/-- The address behind an alias; any other address is itself (R293). -/
def realAddr (a : Nat) : Nat :=
  match placeOf a with
  | .setAlias b => b
  | .clrAlias b => b
  | _ => a

/-- The status codes of R416. -/
def stOkay : Nat := 0
def stDecode : Nat := 1
def stSecurity : Nat := 2
def stPower : Nat := 3
def stOwner : Nat := 4
def stBusy : Nat := 5
def stData : Nat := 6
def stReadonly : Nat := 7

/-- The owner that admits a requester to a scratchpad through block space: DMA for the DMA unit, WINDOW for every other
(R290). -/
def ownerFor (req : Nat) : Nat := if req = 15 then 2 else 1

/-- The owner of a scratchpad admits the accesses of one kind of owner: the owner stands, and no handover is in progress
(R290, R292). -/
def State.admits (s : State) (i owner : Nat) : Bool := s.get (SP.OWNER.OWNER i) == owner && !s.on (SP.OWNER.PEND i)

/-- An access that the owner does not admit is recorded (R291). -/
def ownerRefusal (i req : Nat) (s : State) : State :=
  ((s.raise MEM.EVT.OWNERR).put MEM.OWNERR.SP i).put MEM.OWNERR.REQ req

/-- The status that the checks before an access to the memory windows give (R416): the place must be a memory window, its
domain must run, its scratchpad must admit the requester. -/
def windowStatus (s : State) (req : Nat) (wr : Bool) (a : Nat) : Nat :=
  let r := realAddr a
  match placeOf r with
  | .cluster | .granary => if s.up (memDom r) then stOkay else stPower
  | .spad i =>
    if !s.up (memDom r) then stPower
    else if s.admits i (if r = a then ownerFor req else 1) then stOkay else stOwner
  | .ctrl => if !s.up (memDom r) then stPower else if wr then stReadonly else stOkay
  | _ => stDecode

/-- The microword that a control store holds at a byte address, as bytes (R46). -/
def csByte (s : State) (a : Nat) : Byte :=
  let p := portOf ((a - 0xA00000) / 0x10000)
  let w := (lookup ((a - 0xA00000) % 0x10000 / 4) (s.port p).cs).getD 0
  BitVec.ofNat 8 (w / 2 ^ (8 * (a % 4)))

/-- `n` bytes of a window as a read returns them. -/
def windowBytes (s : State) (a n : Nat) : List Byte :=
  if inCs a then (List.range n).map (fun i => csByte s (a + i)) else s.bytes a n

/-- A read of `n` bytes within one row of a memory window by a requester: status, bytes and what it leaves. -/
def windowRead (req a n : Nat) (s : State) : Nat × List Byte × State :=
  let r := realAddr a
  let zero := List.replicate n (0 : Byte)
  let st := windowStatus s req false a
  if st = stOwner then
    match placeOf r with
    | .spad i => (st, zero, ownerRefusal i req s)
    | _ => (st, zero, s)
  else if st ≠ stOkay then (st, zero, s)
  else if s.unmapped r then (stData, zero, s)
  else if s.memBad r n then (stData, zero, noteBad r n s)
  else (stOkay, windowBytes s r n, noteCe r n (noteCs r n s))

/-- The bytes that a write leaves: plain, or through the set or clear alias (R293). -/
def mergedBytes (s : State) (a : Nat) (bs : List Byte) : List Byte :=
  match placeOf a with
  | .setAlias b => (s.bytes b bs.length).zipWith (fun x y => x ||| y) bs
  | .clrAlias b => (s.bytes b bs.length).zipWith (fun x y => x &&& ~~~ y) bs
  | _ => bs

/-- The write covers only part of a codeword that holds an uncorrectable error, or is an alias write of one (R299). -/
def mergesBad (s : State) (a n : Nat) : Bool :=
  if realAddr a = a then s.mergeBad a n else s.memBad (realAddr a) n

/-- The staging area is closed to the slave port and the DMA unit from step 5 until STAGE reads 6, stage 7 included where
step 5 has begun before (R379; log entry 14). -/
def stagingClosed (s : State) (req a : Nat) : Bool :=
  (req == 14 || req == 15) && decide (0x1400000 ≤ a ∧ a < 0x1800000) && s.boot.staging && s.get GLB.BOOT.STAT.STAGE != 6

/-- A write of bytes within one row of a memory window by a requester: status and what it leaves. `spare` is the engine whose
own reservation the write leaves (R228). -/
def windowWriteBy (spare : Option Nat) (req a : Nat) (bs : List Byte) (s : State) : Nat × State :=
  let r := realAddr a
  let st := windowStatus s req true a
  if st = stOwner then
    match placeOf r with
    | .spad i => (st, ownerRefusal i req s)
    | _ => (st, s)
  else if st ≠ stOkay then (st, s)
  else if stagingClosed s req r then (stBusy, s)
  else if s.unmapped r then (stData, s)
  else if mergesBad s a bs.length then (stData, noteBad r bs.length s)
  else (stOkay, s.storeBy spare r (mergedBytes s a bs))

/-- A write by a requester; an engine's requester number is its index (R288). -/
def windowWrite (req a : Nat) (bs : List Byte) (s : State) : Nat × State :=
  windowWriteBy (if req < 14 then some req else none) req a bs s

end Sys2Proof.Machine
end

