-- ==== Sys2Proof/Machine/EngOps.lean ====
section
/-! DEFINITION. The parts of an engine's state, and when it may issue. -/

namespace Sys2Proof.Machine

open Reg

def State.engine (s : State) (e : Eng) : EngSt := s.eng[e]

def State.setEng (s : State) (e : Eng) (x : EngSt) : State := { s with eng := s.eng.set e x }

def State.modEng (s : State) (e : Eng) (g : EngSt → EngSt) : State := s.setEng e (g (s.engine e))

def State.modExc (s : State) (e : Eng) (g : ExcSt → ExcSt) : State := s.modEng e (fun x => { x with exc := g x.exc })

def State.modFlow (s : State) (e : Eng) (g : FlowSt → FlowSt) : State := s.modEng e (fun x => { x with flow := g x.flow })

def State.modMsg (s : State) (e : Eng) (g : MsgSt → MsgSt) : State := s.modEng e (fun x => { x with msg := g x.msg })

def State.modXl (s : State) (e : Eng) (g : XlSt → XlSt) : State := s.modEng e (fun x => { x with xl := g x.xl })

def State.modAg (s : State) (e : Eng) (n : Fin 4) (g : AgSt → AgSt) : State :=
  s.modEng e (fun x => { x with ag := x.ag.set n (g x.ag[n]) })

/-- The address of the next bundle. -/
def State.pc (s : State) (e : Eng) : Word := (s.engine e).flow.pc

/-- The engine of an index. -/
def engOf (n : Nat) : Eng := Fin.ofNat 14 n

/-- The number of an engine within its cluster (R320, R337). -/
def localEng (e : Eng) : Nat := if isMe e then e.val else (e.val - 2) % 3

/-- The port cluster of an engine; for a management engine the value is not used. -/
def engClu (e : Eng) : Clu := Fin.ofNat 4 ((e.val - 2) / 3)

/-- The second-level TLB of an engine (R319). -/
def State.l2Of (s : State) (e : Eng) : Tlb := s.l2[engCluster e]?.getD Tlb.empty

def State.setL2 (s : State) (n : Nat) (t : Tlb) : State := { s with l2 := s.l2.setIfInBounds n t }

/-- The engine is out of reset (FLT.RUN, R285). -/
def State.engRuns (s : State) (e : Eng) : Bool := s.bit FLT.RUN.ENG e

/-- The engine is halted (R451). -/
def State.halted (s : State) (e : Eng) : Bool := s.on (DBG.E.STAT.HALTED e)

/-- The engine is parked in IDLE (R395), or waits for its first message (R378). -/
def State.parked (s : State) (e : Eng) : Bool := s.bit PWR.EIDLE.ENG e || (s.engine e).boot

/-- The engine's scratchpad is on loan (R312). -/
def onLoan (s : State) (e : Eng) : Bool := s.on MEMT.STAT.LOAN && s.get MEMT.STAT.LENG == e.val

/-- A bundle of the engine has issued and stalls: no bundle boundary lies here (R196, R395). -/
def State.midBundle (s : State) (e : Eng) : Bool := (s.engine e).held.isSome || (s.engine e).husk.isSome

/-- The engine's clock runs: it is out of reset, its domain runs and has restarted after a wake, and it is not parked at a bundle
boundary (R390, R394, R395, R397). -/
def State.clocked (s : State) (e : Eng) : Bool :=
  s.engRuns e && s.up (engDom e) && !s.stopped.contains (engDom e) && (!s.parked e || s.midBundle e)

/-- The bundle that stalls has read the time unit at its issue: a halt does not cancel it (R451). -/
def State.pinned (s : State) (e : Eng) : Bool := ((s.engine e).held.bind (·.2)).isSome

/-- The engine may issue a bundle, or go on with one that has issued: its clock runs, it is neither halted nor asked to halt (but for a
bundle that no halt cancels), no husk transaction of it is under way, its scratchpad is not on loan, and no entry of it waits for
external memory (R196, R312, R450-R452). -/
def State.issues (s : State) (e : Eng) : Bool :=
  let x := s.engine e
  s.clocked e && !onLoan s e && !s.halted e && (x.haltReq.isNone || s.pinned e) && x.undo.isNone &&
    (match x.husk with | some w => w.answer.isSome | none => true) && x.ext.all (fun r => r.answer.isSome)

/-- The generators once the engine has lost its reservation: an SC under way will not store (R228). -/
def EngSt.dropHeld (x : EngSt) : Vector AgSt 4 :=
  x.ag.map (fun g => { g with flight := g.flight.map (fun f => { f with held := false }) })

/-- The word of a status (R282). -/
def Status.word (x : Status) : BitVec 8 :=
  BitVec.ofBool x.df ++ BitVec.ofBool x.ds ++ BitVec.ofBool x.rint ++ BitVec.ofBool x.ra ++ BitVec.ofBool x.la ++ x.mask

/-- The status of a saved word. -/
def Status.ofWord (w : BitVec 8) : Status :=
  { mask := w.extractLsb' 0 3, la := w.getLsbD 3, ra := w.getLsbD 4, rint := w.getLsbD 5, ds := w.getLsbD 6, df := w.getLsbD 7 }

/-- A bit field of a number: `w` bits from bit `lo`. -/
def bits (v lo w : Nat) : Nat := v / 2 ^ lo % 2 ^ w

end Sys2Proof.Machine
end

