-- ==== Sys2Proof/Machine/Loans.lean ====
section
/-! DEFINITION. The scratchpad loans of the memory tester: offers, their permit, and the end of a loan (R309-R313). -/

namespace Sys2Proof.Machine

open Reg

/-- The memory tester's requester number (R402). -/
def testerReq : Nat := 8

/-- The tester holds the permit of an operation: 0 copy, 1 march, 2 scratchpad test (R402). -/
def testPermit (s : State) (op : Nat) : Bool := s.permit.granted.contains (testerReq, permitCost testerReq op)

def State.modTester (s : State) (g : TesterSt → TesterSt) : State := { s with tester := g s.tester }

/-- The engine is stopped: held out of running, or parked at a bundle boundary (R311, R395). -/
def stoppedEng (s : State) (e : Eng) : Bool := !s.engRuns e || s.bit PWR.EIDLE.ENG e && !s.midBundle e

/-- The tester may take the scratchpad of engine `i`: the engine is stopped and owns it, and no handover is in progress
(R311). -/
def lendable (s : State) (i : Nat) : Bool := stoppedEng s (engOf i) && s.admits i 0

/-- The offer that waits asks for its permit. The tester has one request at a time: while a granary test has its own, the offer
waits (R402). -/
def askLoan (s : State) : State := if s.tester.offer.isSome then askPermit testerReq 2 s else s

/-- An offer is made to a stopped engine, and the tester asks for its permit; to any other it is dropped (R310, R311). -/
def makeOffer (i : Nat) (s : State) : State :=
  if lendable s i then askLoan (s.modTester (fun t => { t with offer := some i, turn := i, offered := true })) else s

/-- The offer recorded behind a loan, or behind an offer that is over, is made (R310). -/
def makeNext (s : State) : State :=
  match s.tester.next with
  | some j => makeOffer j (s.modTester (fun t => { t with next := none }))
  | none => s

/-- The permit or request of a scratchpad test goes; that of a granary test stays (R402). -/
def dropLoanPermit (s : State) : State :=
  if [s.permit.granted, s.permit.queue, s.permit.aside].any (·.contains (testerReq, permitCost testerReq 2)) then
    dropPermit testerReq s
  else s

/-- An offer that has not become a loan is dropped, and the one behind it is made (R310, R311). -/
def dropOffer (s : State) : State :=
  if s.tester.offer.isSome then makeNext (dropLoanPermit (s.modTester (fun t => { t with offer := none }))) else s

/-- The engine of an offer has left the stopped state before the loan began: the offer is dropped (R311). -/
def checkOffer (s : State) : State :=
  match s.tester.offer with
  | some i => if stoppedEng s (engOf i) then s else dropOffer s
  | none => s

/-- A loan of engine `i` ends: ownership returns and the permit is released (R311, R312). -/
def returnLoan (i : Nat) (s : State) : State :=
  dropLoanPermit (((s.lower MEMT.STAT.LOAN).put (SP.OWNER.OWNER i) 0).modTester (fun t => { t with restart := none }))

/-- The loan of an engine ends at its reset, with ABORT, and the offer behind it is made (R310, R312). -/
def abortLoan (e : Eng) (s : State) : State :=
  if onLoan s e then makeNext (returnLoan e ((s.put MEMT.SPRES.ENG e).raise MEMT.SPRES.ABORT)) else s

end Sys2Proof.Machine
end

