-- ==== Sys2Proof/Machine/Sources.lean ====
section
/-! DEFINITION. The interrupt sources of an engine as functions of the state: every source is level-sensitive (R266). -/

namespace Sys2Proof.Machine

open Reg

/-- One-bit fields as a number, the first at bit 0. -/
def State.flags (s : State) : List Fld → Nat
  | [] => 0
  | f :: t => (s.on f).toNat + 2 * State.flags s t

/-- WSQ.ERR of a port (R58). -/
def wsqErr (s : State) (p : Nat) : Nat :=
  s.flags [WSQ.ERR.UNDEF p, WSQ.ERR.ILLUW p, WSQ.ERR.OVR p, WSQ.ERR.WIN p, WSQ.ERR.STK p, WSQ.ERR.CSUE p, WSQ.ERR.RATE p,
    WSQ.ERR.EGRCOL p, WSQ.ERR.LOADFAIL p]

/-- WSQ.IRQEN of a port (R58). -/
def wsqEn (s : State) (p : Nat) : Nat :=
  s.flags [WSQ.IRQEN.UNDEF p, WSQ.IRQEN.ILLUW p, WSQ.IRQEN.OVR p, WSQ.IRQEN.WIN p, WSQ.IRQEN.STK p, WSQ.IRQEN.CSUE p,
    WSQ.IRQEN.RATE p, WSQ.IRQEN.EGRCOL p, WSQ.IRQEN.LOADFAIL p]

/-- PI.ERR of a port (R89). -/
def piErr (s : State) (p : Nat) : Nat :=
  s.flags [PI.ERR.BOUND p, PI.ERR.MISS p, PI.ERR.REPEAT p, PI.ERR.POISON p, PI.ERR.EVOVF p, PI.ERR.RXQDROP p]

/-- The ports of a cluster that an engine owns (R17). -/
def ownedPorts (s : State) (e : Eng) : List Port :=
  (List.finRange 8).filter (fun p : Port => decide (p.val / 2 = engCluster e) && s.get (PX.CTRL.OWNER p) == localEng e)

/-- WSQ: an enabled error, or a finished control-store load, of an owned port (R266). -/
def srcWsq (s : State) (e : Eng) : Bool :=
  (ownedPorts s e).any (fun p =>
    wsqErr s p &&& wsqEn s p != 0 || piErr s p &&& s.get (PI.IRQEN.EN p) != 0 || s.on (WSQ.CSLD.STAT.DONE p))

/-- SQ: a receive queue or the event ring of an owned port is not empty (R78, R79). -/
def srcSq (s : State) (e : Eng) : Bool :=
  (ownedPorts s e).any (fun p =>
    (List.range 4).any (fun q => s.get (PQ.RX.WR.WR p q) != s.get (PQ.RX.RD.RD p q)) ||
      s.load (privAddr s p 0x94) 4 % 16 != s.load (privAddr s p 0x90) 4 % 16)

/-- TMR (R118). -/
def srcTmr (s : State) (e : Eng) : Bool :=
  if isMe e then false
  else
    let n := engCluster e
    let m := localEng e
    let full := s.flags ((List.range 4).map (fun i => TMR.CAP.CAP_H.FULL n i))
    s.get (TMR.CSTAT.MATCH n) &&& s.get (TMR.IEN.MATCH n m) != 0 || full &&& s.get (TMR.IEN.CAP n m) != 0 ||
      s.get (TMR.CSTAT.CAPOVR n) &&& s.get (TMR.IEN.CAPOVR n m) != 0 || s.on (TMR.STAT.OVF n) && s.on (TMR.IEN.OVF n m) ||
      s.on (TMR.STAT.MAKEUP n) && s.on (TMR.IEN.MAKEUP n m)

/-- The engine that serves a mailbox channel (R341): the one CFG names, or the other while that one does not run. -/
def servingEngine (s : State) (c : Nat) : Nat :=
  let m := s.get (MB.CFG.ENG c)
  if s.bit FLT.RUN.ENG m then m else 1 - m

/-- HDB (R343). -/
def srcHdb (s : State) (e : Eng) : Bool :=
  isMe e && (List.range 4).any (fun c => servingEngine s c == e.val && s.get (DB.BB.BITS c) &&& s.get (DB.BMASK.MASK c) != 0)

/-- TU (R118). -/
def srcTu (s : State) : Bool :=
  (List.range 4).any (fun d =>
    s.on (TU.D.STAT.UNSYNC d) && s.on TU.IEN.UNSYNC || s.on (TU.D.STAT.STEPPED d) && s.on TU.IEN.STEPPED ||
      s.on (TU.D.STAT.RATECLAMP d) && s.on TU.IEN.RATECLAMP || s.on (TU.D.STAT.SETERR d) && s.on TU.IEN.SETERR) ||
    s.on TU.STAT.CALSTALE && s.on TU.IEN.CALSTALE

/-- TIL (R164). -/
def srcTil (s : State) : Bool := (List.range 4).any (fun r => s.get (TIL.RING.EVT.EVT r) &&& s.get (TIL.RING.IEN.IEN r) != 0)

/-- TWN (R193). -/
def srcTwn (s : State) : Bool :=
  s.flags [TWN.EVT.PAIRED, TWN.EVT.TAKEOVER, TWN.EVT.SBYLOST, TWN.EVT.FENCED, TWN.EVT.HANDOVER, TWN.EVT.HOFAIL,
    TWN.EVT.RESYNCFAIL, TWN.EVT.DELTAOVF, TWN.EVT.SEEKTO, TWN.EVT.PAIRREF, TWN.EVT.PEERHOLD, TWN.EVT.PUBIGN] &&&
    s.get TWN.IEN.IEN != 0

/-- MEM (R314). -/
def srcMem (s : State) : Bool :=
  s.flags [MEM.EVT.UE, MEM.EVT.OWNERR, MEM.EVT.OWNBUSY] &&& s.get MEM.IEN.IEN != 0 ||
    s.flags [MEMT.EVT.DONE, MEMT.EVT.BANKFAIL, MEMT.EVT.SPFAIL, MEMT.EVT.CMDIGN] &&& s.get MEMT.IEN.IEN != 0

/-- PWR (R406). -/
def srcPwr (s : State) : Bool :=
  s.flags [PWR.EVT.DONE, PWR.EVT.REFUSED, PWR.EVT.PCTO, PWR.EVT.STUCK, PWR.EVT.WAKE] &&& s.get PWR.IEN.IEN != 0

/-- FLT: ME0 sees engines 1 to 13, ME1 sees engine 0 (R273). -/
def srcFlt (s : State) (e : Eng) : Bool :=
  if e.val = 0 then s.get FLT.STAT.ENG / 2 != 0 else e.val = 1 && s.bit FLT.STAT.ENG 0

/-- Source `k` of an engine is pending (R266). -/
def State.source (s : State) (e : Eng) (k : Nat) : Bool :=
  let x := s.engine e
  match k with
  | 0 => x.exc.swi.getLsbD 0
  | 1 => x.exc.swi.getLsbD 1
  | 2 => x.msg.edb != 0
  | 3 => !x.msg.queue.isEmpty
  | 4 => srcWsq s e
  | 5 => srcSq s e
  | 6 => srcTmr s e
  | 7 => srcHdb s e
  | 8 => e.val = 0 && srcTu s
  | 9 => e.val = 0 && srcTil s
  | 10 => e.val = 0 && srcTwn s
  | 11 => e.val = 0 && srcMem s
  | 12 => e.val = 0 && srcPwr s
  | 13 => s.get (DBG.E.EVT.HG e) &&& s.get (DBG.E.IEN.HG e) != 0
  | 14 => srcFlt s e
  | 15 => s.hskInt.getLsbD e
  | _ => false

/-- EXC.IPEND (R284). -/
def State.ipend (s : State) (e : Eng) : Nat := ((List.range 16).map (fun k => (s.source e k).toNat * 2 ^ k)).sum

/-- The level of a source: 1 to 6 (R263). -/
def sourceLevel (x : ExcSt) (k : Nat) : Nat := max 1 (min 6 (bits x.ilvl.toNat (3 * k) 3))

/-- The sources that are enabled, pending and above a MASK (R268), as a bit set. -/
def State.above (s : State) (e : Eng) (mask : BitVec 3) : BitVec 16 :=
  let x := (s.engine e).exc
  BitVec.ofNat 16 ((List.range 16).map (fun k =>
    (s.source e k && x.ien.getLsbD k && decide (mask.toNat < sourceLevel x k)).toNat * 2 ^ k)).sum

/-- A source waits for the handler of a precise fault (R270). -/
def ExcSt.waits (x : ExcSt) (k : Nat) : Bool := x.holds.any (fun h => h.srcs.getLsbD k)

/-- The source that a boundary takes: enabled, pending, above MASK, of the highest level, then the lowest number (R268); one that a
precise fault came before waits for its handler (R270). -/
def State.takeable (s : State) (e : Eng) : Option Nat :=
  let x := (s.engine e).exc
  (List.range 16).foldl (fun best k =>
    if s.source e k && x.ien.getLsbD k && decide (x.sr.mask.toNat < sourceLevel x k) && !x.waits k then
      match best with
      | some b => if sourceLevel x b < sourceLevel x k then some k else best
      | none => some k
    else best) none

end Sys2Proof.Machine
end

