-- ==== Sys2Proof/Machine/Translate.lean ====
section
/-! DEFINITION. Address translation of the engines: TLBs, faults, the walker, the region map, the instruction cache and
shootdowns (R242, R317-R336). -/

namespace Sys2Proof.Machine

open Reg

/-! ### Physical addresses (R318, R329, R330) -/

/-- The pages of region entry `j` hold an address (R330). -/
def ramCovers (s : State) (j pa : Nat) : Bool :=
  let lo := s.get (RAM.BASE_L.PA j) + 2 ^ 20 * s.get (RAM.BASE_H.PA j)
  let hi := s.get (RAM.LIM_L.PA j) + 2 ^ 20 * s.get (RAM.LIM_H.PA j)
  s.on (RAM.BASE_L.EN j) && decide (lo ≤ pa / 4096 ∧ pa / 4096 ≤ hi)

/-- The address is in a device region (R318, R330). -/
def isDevice (s : State) (pa : Nat) : Bool :=
  if isExternal pa then
    match (List.range 8).find? (fun j => ramCovers s j pa) with
    | some j => s.on (RAM.BASE_L.DEV j)
    | none => s.on RAM.DEFAULT.DEV
  else
    match placeOf (pa - blockSpace) with
    | .cluster | .spad _ | .granary => false
    | _ => true

/-! ### TLBs (R319-R323) -/

/-- The bytes that an entry covers, in pages of 4 KiB. -/
def TlbEntry.pages (x : TlbEntry) : Nat := 2 ^ x.size

/-- The entry covers a virtual address. -/
def TlbEntry.covers (x : TlbEntry) (va : Nat) : Bool :=
  decide (x.vpn ≤ va / 4096) && decide (va / 4096 < x.vpn + x.pages)

/-- The physical address that an entry gives. -/
def TlbEntry.phys (x : TlbEntry) (va : Nat) : Nat := (x.ppn * 4096 + (va - x.vpn * 4096)) % 2 ^ 40

/-- Two entries overlap. -/
def TlbEntry.overlaps (x y : TlbEntry) : Bool :=
  decide (x.vpn < y.vpn + y.pages) && decide (y.vpn < x.vpn + x.pages)

/-- A lookup of an address meets entries with a parity error: they are invalidated (R300). What is left, and their number. -/
def Tlb.check (va : Nat) (t : Tlb) : Tlb × Nat :=
  let bad (e : Nat × TlbEntry) : Bool := e.2.bad && e.2.covers va
  ({ t with ents := t.ents.filter (fun e => !bad e) }, (t.ents.filter bad).length)

/-- The entry of a TLB that an address hits; at the second level only an entry whose SHARE admits the engine (R320). -/
def Tlb.find (t : Tlb) (va : Nat) (share : Option Nat) : Option TlbEntry :=
  (t.ents.find? (fun e => e.2.covers va && (match share with | some m => e.2.share.getLsbD m | none => true))).map (·.2)

/-- The entries of a TLB that a write of `x` removes: those that overlap it, at the second level only those that share a
SHARE bit with it (R321). -/
def Tlb.clash (l2 : Bool) (x : TlbEntry) (e : Nat × TlbEntry) : Bool :=
  x.overlaps e.2 && (!l2 || x.share &&& e.2.share != 0)

/-- The slots of a TLB. -/
def tlbSlots (l2 : Bool) : Nat := if l2 then 512 else 16

/-- Removal of the entries that clash with `x`: what is left, and the slots freed. -/
def Tlb.remove (l2 : Bool) (x : TlbEntry) (t : Tlb) : Tlb × List Nat :=
  ({ t with ents := t.ents.filter (fun e => !Tlb.clash l2 x e) }, (t.ents.filter (Tlb.clash l2 x)).map (·.1))

/-- An entry is written: removal, then the lowest slot freed, the lowest invalid slot, or the victim (R321). -/
def Tlb.install (l2 : Bool) (x : TlbEntry) (t : Tlb) : Tlb × Nat :=
  let (t, freed) := t.remove l2 x
  match freed with
  | k :: _ => ({ t with ents := insertAt k x t.ents }, k)
  | [] =>
    match (List.range (tlbSlots l2)).find? (fun k => (lookup k t.ents).isNone) with
    | some k => ({ t with ents := insertAt k x t.ents }, k)
    | none => ({ ents := insertAt t.victim x t.ents, victim := (t.victim + 1) % tlbSlots l2 }, t.victim)

/-- The entries that cover an address leave; how many did (R253). -/
def Tlb.drop (va : Nat) (t : Tlb) : Tlb × Nat :=
  ({ t with ents := t.ents.filter (fun e => !e.2.covers va) }, (t.ents.filter (fun e => e.2.covers va)).length)

/-! ### Faults (R324, R325) -/

/-- ACC of MISSINF. -/
def AccKind.code : AccKind → Nat
  | .read => 0
  | .write => 1
  | .fetch => 2

/-- Walker mode (R326). -/
def walker (s : State) (e : Eng) : Bool := s.on (XL.E.CTRL.WALK e)

/-- MISSINF of a fault (R325). -/
def missInfo (s : State) (e : Eng) (acc : AccKind) (kind level reason : Nat) : Nat :=
  acc.code + 4 * kind + 32 * (walker s e).toNat + 64 * level + 256 * reason

/-- The vector of a fault: KIND 0 and 4 enter 5 or 6, every other enters 7 (R325). -/
def missVector (inf : Nat) : Nat :=
  let kind := bits inf 2 3
  if kind = 0 ∨ kind = 4 then (if bits inf 0 2 = 2 then 5 else 6) else 7

/-- The outcome of a translation. -/
inductive Xl where
  /-- The physical address, and whether it was reached untranslated (R317). -/
  | ok (pa : Nat) (own : Bool)
  /-- A fault: MISSINF. -/
  | fault (inf : Nat)
  /-- A walk has to end first. -/
  | busy
  deriving DecidableEq, Repr

/-- A miss, or a mark to be set, in walker mode: a walk starts, unless the address lies outside the window or a walk of it
has just failed (R326). -/
def needWalk (e : Eng) (va : Nat) (acc : AccKind) (s : State) : Xl × State :=
  match (s.engine e).xl.walkFault with
  | some (a, inf) =>
    if a = va ∧ bits inf 0 2 = acc.code then (.fault inf, s.modXl e (fun x => { x with walkFault := none }))
    else (.busy, s.modXl e (fun x => { x with walkFault := none }))
  | none =>
    if va / 2 ^ 39 ≠ s.get (XL.E.CTRL.WBASE e) then (.fault (missInfo s e acc 4 0 0), s.count (XL.E.WFLT.CNT e))
    else
      match (s.engine e).xl.walk with
      | some _ => (.busy, s)
      | none => (.busy, s.modXl e (fun x => { x with walk := some ⟨va, acc, none⟩ }))

/-- A physical address that is reserved or not decoded: a fetch from it takes a bus error of its own (R318, R467). -/
def isReserved (pa : Nat) : Bool :=
  !isExternal pa &&
    match placeOf (realAddr (pa - blockSpace)) with
    | .reserved => true
    | .regs => (fieldsAt ((pa - blockSpace) / 4 * 4)).isEmpty
    | _ => false

/-- The checks after a hit (R324), and the ownership of the engine's own scratchpad reached through block space, an alias of it
included (R291, R294). -/
def checkHit (e : Eng) (va : Nat) (acc : AccKind) (x : TlbEntry) (s : State) : Xl × State :=
  let pa := x.phys va
  let perm := match acc with | .read => x.r | .write => x.w | .fetch => x.x
  if !perm then (.fault (missInfo s e acc 1 0 0), s)
  else if acc = .fetch ∧ isDevice s pa = true ∧ isReserved pa = false then (.fault (missInfo s e acc 6 0 0), s)
  else if x.ae ∧ !x.a then
    if walker s e then needWalk e va acc s else (.fault (missInfo s e acc 2 0 0), s)
  else if x.ae ∧ acc = .write ∧ !x.d then
    if walker s e then needWalk e va acc s else (.fault (missInfo s e acc 3 0 0), s)
  else if !isExternal pa && decide (placeOf (realAddr (pa - blockSpace)) = .spad e) && !s.admits e 1 then
    (.fault (missInfo s e acc 5 0 0), ownerRefusal e e s)
  else (.ok pa false, s)

/-- The first-level TLB of an access kind. -/
def XlSt.l1 (x : XlSt) (acc : AccKind) : Tlb := if acc = .fetch then x.itlb else x.dtlb

def XlSt.setL1 (x : XlSt) (acc : AccKind) (t : Tlb) : XlSt :=
  if acc = .fetch then { x with itlb := t } else { x with dtlb := t }

/-- The parity of a first-level TLB is checked in a lookup (R300). -/
def checkL1 (e : Eng) (acc : AccKind) (va : Nat) (s : State) : State :=
  let (t, n) := ((s.engine e).xl.l1 acc).check va
  if n = 0 then s else (s.modXl e (fun x => x.setL1 acc t)).count MEM.PARCNT.CNT n

/-- The parity of the second-level TLB of an engine is checked in a lookup (R300). -/
def checkL2 (e : Eng) (va : Nat) (s : State) : State :=
  let (t, n) := (s.l2Of e).check va
  if n = 0 then s else (s.setL2 (engCluster e) t).count MEM.PARCNT.CNT n

/-- The translation of an address for an access (R317, R319, R324). An entry that a lookup finds with a parity error is gone
before the lookup's outcome (R300). -/
def translate (e : Eng) (va : Nat) (acc : AccKind) (s : State) : Xl × State :=
  if va < 0x20000 then
    if s.admits e 0 then (.ok (blockSpace + 0x600000 + 0x20000 * e.val + va) true, s)
    else (.fault (missInfo s e acc 5 0 0), ownerRefusal e e s)
  else
    let s := checkL1 e acc va s
    match ((s.engine e).xl.l1 acc).find va none with
    | some x => checkHit e va acc x s
    | none =>
      let s := checkL2 e va s
      match (s.l2Of e).find va (some (localEng e)) with
      | some x =>
        checkHit e va acc x
          (s.modXl e (fun t => t.setL1 acc ((t.l1 acc).install false { x with share := 0 }).1))
      | none => if walker s e then needWalk e va acc s else (.fault (missInfo s e acc 0 0 0), s)

/-! ### Physical reads and writes of an engine -/

/-- A read by an engine at a block-relative address, untranslated or through block space: status, bytes. -/
def engBlockRead (e : Eng) (own : Bool) (a n : Nat) (s : State) : Nat × List Byte × State :=
  if own then
    if s.memBad a n then (stData, List.replicate n 0, noteBad a n s) else (stOkay, s.bytes a n, noteCe a n s)
  else windowRead e a n s

/-- A write by an engine at a block-relative address. -/
def engBlockWrite (e : Eng) (own : Bool) (a : Nat) (bs : List Byte) (s : State) : Nat × State :=
  if own then
    if mergesBad s a bs.length then (stData, noteBad a bs.length s) else (stOkay, s.storeBy (some e) a bs)
  else windowWrite e a bs s

/-! ### The walker (R326-R328) -/

/-- The index bits of an address at a table level (R326). -/
def walkIndex (va level : Nat) : Nat := va / 2 ^ (48 - 9 * level - 9) % 512

/-- A walk ends in a fault that its access takes when it is tried again. -/
def walkFails (e : Eng) (w : Walk) (inf : Nat) (s : State) : State :=
  let s := if bits inf 2 3 = 4 then s.count (XL.E.WFLT.CNT e) else s
  s.modXl e (fun x => { x with walk := none, walkFault := some (w.va, inf) })

/-- The walk turns to a descriptor: the region check, then the read is issued (R328). -/
def walkTo (e : Eng) (w : Walk) (level addr : Nat) (s : State) : State :=
  if isDevice s addr then walkFails e w (missInfo s e w.acc 4 level 1) s
  else
    let s := s.modXl e (fun x => { x with walk := some { w with at' := some (level, addr) } })
    if isExternal addr then s.emit (.master (e + 64) true false addr 8 false []) else s

/-- TABLE_WALK (R326, R328): a walk that a miss has called for starts at the level-1 table. -/
def execTableWalk (e : Eng) (s : State) : Res :=
  match (s.engine e).xl.walk with
  | some w =>
    match w.at' with
    | none =>
      let root := (s.get (XL.E.ROOT_L.PA e) + 2 ^ 20 * s.get (XL.E.ROOT_H.PA e)) * 4096
      .next (walkTo e w 1 (root + 8 * walkIndex w.va 1) s)
    | some _ => .next s
  | none => .next s

/-- The entry of a leaf descriptor at a level (R320, R322, R327), with its marks. -/
def leafEntry (e : Eng) (va level d : Nat) (a m : Bool) : TlbEntry :=
  let size := 9 * (3 - level)
  { vpn := va / 4096 / 2 ^ size * 2 ^ size, size := size, r := d.testBit 2, w := d.testBit 3, x := d.testBit 4
    ae := d.testBit 5, a := a, d := m, ppn := bits d 12 28, share := BitVec.ofNat 3 (2 ^ localEng e)
    bad := false }

/-- The mark bits of descriptor byte 0 that a leaf needs set: A, and D for a write, whichever is clear (R328). -/
def marksNeeded (acc : AccKind) (d : Nat) : Nat :=
  if d.testBit 5 then
    (if d.testBit 6 then 0 else 64) + (if acc = .write ∧ !d.testBit 7 then 128 else 0)
  else 0

/-- The marks are written: at on-block memory through the set operation, which no reservation on the row survives (R228), in external
memory as byte 0 alone (R328). -/
def writeMarks (e : Eng) (addr d need : Nat) (s : State) : State :=
  if need = 0 then s
  else if isExternal addr then s.emit (.master (e + 64) true true addr 1 false [BitVec.ofNat 8 (d % 256 ||| need)])
  else (windowWriteBy none e (addr - blockSpace + 0x2000000) [BitVec.ofNat 8 need] s).2

/-- A leaf: marks, then the entry goes into the second-level and the first-level TLB (R328). -/
def walkLeaf (e : Eng) (w : Walk) (level addr d : Nat) (s : State) : State :=
  let need := marksNeeded w.acc d
  let s := writeMarks e addr d need s
  let ent := leafEntry e w.va level d (d.testBit 6 || need.testBit 6) (d.testBit 7 || need.testBit 7)
  let s := s.setL2 (engCluster e) ((s.l2Of e).install true ent).1
  (s.modXl e (fun x =>
    { x.setL1 w.acc ((x.l1 w.acc).install false { ent with share := 0 }).1 with walk := none })).count (XL.E.WALKS.CNT e)

/-- A descriptor has been read: the checks of R328, in their order, then on to the next table or the leaf. -/
def walkDescriptor (e : Eng) (w : Walk) (level addr d : Nat) (s : State) : State :=
  let leaf := decide (level = 3) || d.testBit 1
  let size := 9 * (3 - level)
  if bits d 8 4 ≠ 0 ∨ bits d 40 24 ≠ 0 then walkFails e w (missInfo s e w.acc 4 level 4) s
  else if !d.testBit 0 then walkFails e w (missInfo s e w.acc 0 0 0) s
  else if leaf then
    if bits d 12 size ≠ 0 then walkFails e w (missInfo s e w.acc 4 level 5) s
    else walkLeaf e w level addr d s
  else walkTo e w (level + 1) (bits d 12 28 * 4096 + 8 * walkIndex w.va (level + 1)) s

/-- WALK_READ_DONE (R328): the descriptor's read returns; `data` and `err` are the answer of external memory, which can come once the
read has left (R413). -/
def execWalkReadDone (e : Eng) (data : BitVec 64) (err : Bool) (s : State) : Res :=
  match (s.engine e).xl.walk with
  | some w =>
    match w.at' with
    | some (level, addr) =>
      if isExternal addr then
        if s.unsent (e + 64) false then .next s
        else .next (State.sendPorts (if err then walkFails e w (missInfo s e w.acc 4 level 2) s
          else walkDescriptor e w level addr data.toNat s))
      else
        let (st, bs, s) := windowRead e (addr - blockSpace) 8 s
        .next (if st = stData then walkFails e w (missInfo s e w.acc 4 level 3) s
          else if st ≠ stOkay then walkFails e w (missInfo s e w.acc 4 level 2) s
          else walkDescriptor e w level addr (natLE bs) s)
    | none => .next s
  | none => .next s

/-! ### Fetch and the instruction cache (R194, R195, R242) -/

/-- What a fetch of a bundle gives. -/
inductive Fetched where
  | bundle (v : Word)
  /-- A fetch fault: vector, faulting address, MISSINF of a translation fault. -/
  | fault (vec va : Nat) (inf : Option Nat)
  /-- A line fill or a walk has to end first; the line that is missing. -/
  | busy (line : Option Nat)
  deriving DecidableEq, Repr

/-- The bytes of a fetch from cached lines. -/
def lineBytes (lines : List (Nat × List Byte)) (va n : Nat) : Option (List Byte) :=
  (List.range n).mapM (fun i =>
    let a := (va + i) % 2 ^ 48
    (lookup (a / 64) lines).map (fun l => l.getD (a % 64) 0))

/-- The first line of a fetch that the cache does not hold. -/
def missingLine (lines : List (Nat × List Byte)) (va : Nat) : Option Nat :=
  ([va / 64, (va + 5) % 2 ^ 48 / 64].find? (fun l => (lookup l lines).isNone))

/-- The lines of the view that a bundle fetched ahead may still come from (R242, R254): the older view's TLB must still
cover the bundle. -/
def aheadBytes (a : Ahead) (va : Nat) : Option (List Byte) :=
  let ok (v : Nat) := decide (v < 0x20000) || (match a.itlb.find v none with | some x => x.x && (!x.ae || x.a) | none => false)
  if ok va && ok ((va + 5) % 2 ^ 48) then lineBytes a.lines va 6 else none

/-- The lines of a fetch are read: one with a parity error is invalidated and counted, and a fill follows (R300). -/
def checkLines (e : Eng) (va : Nat) (s : State) : State :=
  let x := (s.engine e).xl
  let hit (l : Nat) : Bool := x.badLines.contains l && (lookup l x.lines).isSome
  let drop (l : Nat) (s : State) : State :=
    if hit l then
      (s.modXl e (fun y => { y with lines := eraseAt l y.lines, badLines := y.badLines.filter (· != l) })).count MEM.PARCNT.CNT
    else s
  let a := va / 64
  let b := (va + 5) % 2 ^ 48 / 64
  let s := drop a s
  if a = b then s else drop b s

/-- The bundle at an address as it is fetched now. -/
def fetchNow (e : Eng) (va : Nat) (s : State) : Fetched × State :=
  let va2 := (va + 5) % 2 ^ 48
  let (x1, s1) := translate e va .fetch s
  match x1 with
  | .fault inf => (.fault (missVector inf) va (some inf), s1)
  | .busy => (.busy none, s1)
  | .ok _ _ =>
    let (x2, s2) := if va2 / 4096 = va / 4096 then (x1, s1) else translate e (va2 / 4096 * 4096) .fetch s1
    match x2 with
    | .fault inf => (.fault (missVector inf) (va2 / 4096 * 4096) (some inf), s2)
    | .busy => (.busy none, s2)
    | .ok _ _ =>
      let s2 := checkLines e va s2
      let x := (s2.engine e).xl
      match lineBytes x.lines va 6 with
      | some bs => (.bundle (BitVec.ofNat 48 (natLE bs)), s2)
      | none =>
        let l := missingLine x.lines va
        if x.lineErr.isSome && decide (x.lineErr = l) then
          (.fault 8 va none, s2.modXl e (fun t => { t with lineErr := none }))
        else (.busy l, s2)

/-- The fetch of the bundle at an address (R194, R195). After an invalidation and before the next control transfer, the
bundle may still come from what was fetched ahead; a free value decides (R242, log entry 2). -/
def fetchBundle (e : Eng) (va : Nat) (s : State) : Fetched × State :=
  if va % 6 ≠ 0 then (.fault 4 va none, s)
  else
    match (s.engine e).xl.ahead.bind (fun a => aheadBytes a va) with
    | some bs =>
      if s.freeVal 1 = 1 then (.bundle (BitVec.ofNat 48 (natLE bs)), s.took) else fetchNow e va s.took
    | none => fetchNow e va s

/-- The instruction side is about to change: what has been fetched ahead stays possible until the next control transfer
(R242, R254). -/
def keepAhead (e : Eng) (s : State) : State :=
  s.modXl e (fun x => match x.ahead with
    | some _ => x
    | none => { x with ahead := some ⟨x.itlb, x.lines⟩ })

/-- A control transfer ends what was fetched ahead, and changes of the patch units apply (R254, R457). -/
def dropAhead (e : Eng) (s : State) : State := s.modXl e (fun x => { x with ahead := none, patch := none })

/-- The engine's patch units are about to change: until the next control transfer the old ones may still act (R457). -/
def keepPatch (e : Eng) (s : State) : State :=
  s.modXl e (fun x => { x with patch := some (x.patch.getD s.cells) })

/-- A line enters the cache; `evict` is the line it replaces, a choice that the manual leaves open (log entry 15). -/
def fillLine (e : Eng) (line : Nat) (bs : List Byte) (evict : Nat) (s : State) : State :=
  s.modXl e (fun x =>
    let l := if x.lines.length < 512 then x.lines
      else if (lookup evict x.lines).isSome then eraseAt evict x.lines else x.lines.drop 1
    { x with lines := insertAt line bs l, badLines := x.badLines.filter (· != line) })

/-- A read of one command can leave at once on the master port (R413, R417). -/
def State.readsNow (s : State) : Bool := s.mlQueue.isEmpty && decide (1 ≤ s.credits.cmd ∧ 1 ≤ s.masterRoom false) && s.up 0

/-- The line at a virtual address, read through a successful translation: an answer, or an error. A fill that no fetch waits
for carries the tag of a prefetch (R418, log entry 72). -/
def readLine (e : Eng) (va pa : Nat) (own demand : Bool) (data : List Byte) (err : Bool) (s : State) : Option (List Byte) × State :=
  if isExternal pa then
    (if err then none else some ((data ++ List.replicate 64 0).take 64),
      s.emit (.master (e + if demand then 32 else 96) true false (pa / 64 * 64) 64 false []))
  else
    let (st, bs, s) := engBlockRead e own (pa - blockSpace - va % 64) 64 s
    (if st = stOkay then some bs else none, s)

/-- The line after a line; the last line is followed by the first. -/
def nextLine (l : Nat) : Nat := (l + 1) % 2 ^ 42

/-! ### Requests and shootdowns (R253, R320-R323, R333-R335) -/

/-- The value of a refused request. -/
def tlbRefused : Word := BitVec.ofInt 48 (-1)

/-- The entry that G62 and G63 describe (R320). -/
def requestEntry (g62 g63 : Nat) : TlbEntry :=
  { vpn := bits g62 12 36, size := bits g62 7 5, x := g62.testBit 6, w := g62.testBit 5, r := g62.testBit 4
    ae := g62.testBit 3, a := g62.testBit 2, d := g62.testBit 1, ppn := bits g63 12 28, share := BitVec.ofNat 3 (bits g63 45 3)
    bad := false }

/-- The request is refused (R321). -/
def requestRefused (s : State) (e : Eng) (x : TlbEntry) : Bool :=
  decide (28 < x.size) || decide (x.vpn % x.pages ≠ 0) || decide (x.ppn % x.pages ≠ 0) || s.on (XL.E.STAT.SDSEEN e)

/-- A write request: value returned, and the TLB after it (R321). -/
def tlbRequest (l2 : Bool) (valid : Bool) (x : TlbEntry) (t : Tlb) : Word × Tlb :=
  if valid then
    let (t, k) := t.install l2 x
    (BitVec.ofNat 48 k, t)
  else
    let (t, freed) := t.remove l2 x
    (BitVec.ofNat 48 freed.length, t)

/-- TLB.WI, TLB.WD and TLB.W2 by their port (R253, R321). -/
def tlbWrite (e : Eng) (which : Nat) (s : State) : Word × State :=
  let g62 := (s.engine e).g[62].toNat
  let x := requestEntry g62 (s.engine e).g[63].toNat
  if requestRefused s e x then (tlbRefused, s.lower (XL.E.STAT.SDSEEN e))
  else
    let v := g62.testBit 0
    let flat := { x with share := 0 }
    match which with
    | 0 =>
      let (r, t) := tlbRequest false v flat (s.engine e).xl.itlb
      (r, (keepAhead e s).modXl e (fun y => { y with itlb := t }))
    | 1 =>
      let (r, t) := tlbRequest false v flat (s.engine e).xl.dtlb
      (r, s.modXl e (fun y => { y with dtlb := t }))
    | _ =>
      let x := if isMe e then { x with share := x.share &&& 3 } else x
      let (r, t) := tlbRequest true v x (s.l2Of e)
      (r, s.setL2 (engCluster e) t)

/-- The value that a probe gives for a hit (R323). -/
def probeWord (second : Bool) (x : TlbEntry) : Word :=
  BitVec.ofNat 48 (1 + 2 * second.toNat + 4 * x.r.toNat + 8 * x.w.toNat + 16 * x.x.toNat + 32 * x.ae.toNat + 64 * x.a.toNat +
    128 * x.d.toNat + 256 * x.size + 2 ^ 13 * (if second then x.share.toNat else 0) + 2 ^ 16 * x.ppn)

/-- What TLB.PROBE finds (R323). -/
def tlbProbe (e : Eng) (s : State) : Word :=
  let va := (s.engine e).g[62].toNat
  match (s.engine e).xl.dtlb.find va none with
  | some x => probeWord false x
  | none =>
    match (s.l2Of e).find va (some (localEng e)) with
    | some x => probeWord true x
    | none => 0

/-- TLB.PROBE (R323): it changes nothing, but for entries that its lookup finds with a parity error (R300). -/
def probeRead (e : Eng) (s : State) : Word × State :=
  let va := (s.engine e).g[62].toNat
  let s := checkL1 e .read va s
  let s := if (((s.engine e).xl.l1 .read).find va none).isSome then s else checkL2 e va s
  (tlbProbe e s, s)

/-- TLB.INVVA, INVALL, INV2 and INV2ALL (R253). -/
def tlbInvalidate (e : Eng) (second all : Bool) (s : State) : Word × State :=
  let va := (s.engine e).g[62].toNat
  if second then
    if all then (0, s.setL2 (engCluster e) { s.l2Of e with ents := [] })
    else
      let (t, n) := (s.l2Of e).drop va
      (BitVec.ofNat 48 n, s.setL2 (engCluster e) t)
  else
    let s := keepAhead e s
    let x := (s.engine e).xl
    if all then (0, s.modXl e (fun y => { y with itlb := { x.itlb with ents := [] }, dtlb := { x.dtlb with ents := [] } }))
    else
      let (i, m) := x.itlb.drop va
      let (d, n) := x.dtlb.drop va
      (BitVec.ofNat 48 (m + n), s.modXl e (fun y => { y with itlb := i, dtlb := d }))

/-- The first-level part of a shootdown on one engine: entries, the instruction cache under IC, what it had fetched, a walk
in progress, and SDSEEN (R333-R335). -/
def shootEngine (e : Eng) (all ic : Bool) (va : Nat) (s : State) : State :=
  let cut (t : Tlb) : Tlb := if all then { t with ents := [] } else (t.drop va).1
  (s.modXl e (fun x => { x with
    itlb := cut x.itlb
    dtlb := cut x.dtlb
    lines := if ic then [] else x.lines
    ahead := none
    walk := x.walk.map (fun w => { w with at' := none }) })).raise (XL.E.STAT.SDSEEN e)

/-- The second-level part of a shootdown: its entries, the walks of the cluster's engines, which start again at level 1, and
their SDSEEN (R333-R335). -/
def shootCluster (n : Nat) (all : Bool) (va : Nat) (s : State) : State :=
  let t := s.l2[n]?.getD Tlb.empty
  let s := s.setL2 n (if all then { t with ents := [] } else (t.drop va).1)
  (List.finRange 14).foldl (fun u e =>
    if engCluster e = n then
      (u.modXl e (fun x => { x with walk := x.walk.map (fun w => { w with at' := none }) })).raise (XL.E.STAT.SDSEEN e)
    else u) s

/-- A write of SD.CTRL.GO with the fields of SD.CTRL as written (R333). -/
def shootdown (s : State) : State :=
  if s.on SD.STAT.BUSY then s.raise SD.STAT.REFUSED
  else
    let va := s.get SD.VA_L.VA * 4096 + s.get SD.VA_H.VA * 2 ^ 32
    let all := s.on SD.CTRL.ALL
    let named : List Eng := (List.finRange 14).filter (fun e : Eng => s.bit SD.CTRL.ENG e.val)
    let s := { s.raise SD.STAT.BUSY with sd := named.map (fun e => (e.val, (s.engine e).seqn)) }
    let s := named.foldl (fun u e => shootEngine e all (u.on SD.CTRL.IC) va u) s
    (List.range 5).foldl (fun u n => if u.bit SD.CTRL.L2 n then shootCluster n all va u else u) s

/-- SHOOTDOWN_GO (R333): the GO bit, with ENG, L2, ALL and IC as the write gave them. -/
def execShootdownGo (eng : BitVec 14) (l2 : BitVec 5) (all ic : Bool) (s : State) : Res :=
  let s := ((((s.put SD.CTRL.ENG eng.toNat).put SD.CTRL.L2 l2.toNat).put SD.CTRL.ALL all.toNat).put SD.CTRL.IC ic.toNat)
  .next (shootdown s)

/-- Some access of an engine that was made before a place in its order has not completed: of its generators, or of its exception
hardware. -/
def engBusy (s : State) (e : Eng) (mark : Nat) : Bool :=
  let x := s.engine e
  let early (a : Access) := decide (a.seqn < mark)
  x.ag.toList.any (fun a => match a.flight with | some f => early f | none => false) || x.posted.any early ||
    x.ext.any (fun r => r.answer.isNone && decide (r.seqn < mark)) ||
    (match x.undo with | some u => decide (u.seqn < mark) | none => false)

/-- SHOOTDOWN_DONE (R333): every access of the named engines that was translated before the removal has completed; engines
of a domain that does not run count as complete. -/
def execShootdownDone (s : State) : Res :=
  if s.on SD.STAT.BUSY && s.sd.all (fun m => !(s.up (engDom m.1)) || !(engBusy s (engOf m.1) m.2)) then
    .next { (s.lower SD.STAT.BUSY).put SD.STAT.COUNT (s.get SD.STAT.COUNT + 1) with sd := [] }
  else .next s

end Sys2Proof.Machine
end

