-- ==== Sys2Proof/Machine/Exceptions.lean ====
section
/-! DEFINITION. Taking an exception and returning from one: entry, double fault, third fault and the engine reset, return,
and the entries at a bundle boundary (R262-R285). -/

namespace Sys2Proof.Machine

open Reg

/-! ### Resetting an engine (R259, R273, R312, R391) -/

/-- A husk transaction of an engine ends with HSK_ABORT (R259). -/
def abortHusk (e : Eng) (s : State) : State :=
  let s := s.modEng e (fun x => { x with husk := none })
  match s.husk with
  | some t => if t.eng = e then { s with husk := none, huskLast := e }.emit (.huskAbort e) else s
  | none => s

/-- An engine reset: registers, those of its translation included, doorbell and queue, first-level TLBs and instruction cache; stores
that have been posted still complete. The engine stays out of running, and is no longer in IDLE. The factory default of EXC.AEN.PREC
applies (R391). -/
def resetEngine (e : Eng) (s : State) : State :=
  let s := abortLoan e (abortHusk e s)
  let s := s.modEng e (fun x => { EngSt.reset with posted := x.posted, seqn := x.seqn })
  let s := s.clearCells (xlBase e) (xlBase e + 0x18)
  ((s.lowerBit GRIST.PREC.PREC e).lowerBit PWR.EIDLE.ENG e).lowerBit FLT.RUN.ENG e

/-- A third fault or a second watchdog expiry resets the engine and records it (R273, R281, R285); of ME0 and ME1 it stops
the twin heartbeats (R178). -/
def thirdFault (e : Eng) (vec : Nat) (epc : Word) (wdog : Bool) (s : State) : State :=
  let s := (resetEngine e s).raiseBit FLT.STAT.ENG e
  let s := ((s.put FLT.LAST.ENG e).put FLT.LAST.WDOG wdog.toNat).put FLT.LAST.VEC vec
  let s := s.put48 FLT.EPC_L.ADDR FLT.EPC_H.ADDR epc
  if isMe e then { s with alive := false, twin := { s.twin with spent := true } } else s

/-! ### Levels and frames (R262, R263, R278, R283, R284) -/

/-- The field of EXC.FLVL of a vector (R265, R284). -/
def classIndex (vec : Nat) : Nat :=
  match vec with
  | 2 | 3 => 0
  | 4 => 1
  | 5 => 2
  | 6 => 3
  | 7 => 4
  | 8 => 5
  | 9 | 10 => 6
  | 11 => 7
  | 12 => 8
  | 13 => 9
  | _ => 10

/-- The level of what is entered: of its fault class, or of its interrupt source (R262, R263). -/
def eventLevel (x : ExcSt) (vec : Nat) : Nat :=
  if 16 ≤ vec ∧ vec < 32 then sourceLevel x (vec - 16) else max 1 (bits x.flvl.toNat (3 * classIndex vec) 3)

/-- EXC.CAUSE of an entry (R283): the vector entered, then the event's own fields. -/
def causeWord (vec : Nat) (ev : Event) (entry esc ret : Bool) : Word :=
  let orig := if vec = 1 then ev.vec else 0
  BitVec.ofNat 48 (vec + 2 ^ 6 * ev.imp.toNat + 2 ^ 7 * ev.multi.toNat + 2 ^ 8 * ev.slot.toNat + 2 ^ 9 * ev.fetch.toNat +
    2 ^ 10 * ev.store.toNat + 2 ^ 11 * ev.ag + 2 ^ 16 * orig + 2 ^ 22 * entry.toNat + 2 ^ 23 * esc.toNat + 2 ^ 24 * ret.toNat)

/-- The event of a precise fault of the next bundle (R278). -/
def preciseEvent (s : State) (e : Eng) (vec : Nat) : Event :=
  let f := (s.engine e).flow
  let (ds, en) := match f.xfer with | some (_, a) => (true, a) | none => (false, f.pc + 6)
  { vec := vec, epc := f.pc, enpc := en, ds := ds, imp := false, multi := false, slot := false, fetch := false,
    store := false, ag := 0, faddr := 0, aepc := none }

/-- The event is a precise fault (R265). -/
def Event.precise (ev : Event) : Bool := !ev.imp && decide (ev.vec < 16) && ev.vec != 12

/-- The event of an entry at a boundary (R278). -/
def boundaryEvent (s : State) (e : Eng) (vec : Nat) : Event :=
  { preciseEvent s e vec with enpc := s.pc e + 6, ds := false }

/-- The event of an imprecise report (R276, R277). -/
def reportEvent (ev : Event) (r : Report) : Event :=
  { ev with vec := r.vec, imp := true, multi := r.multi, store := r.store, ag := r.ag, faddr := r.faddr, aepc := some r.aepc,
            slot := r.slot, fetch := false }

/-- MISSVA, MISSINF and FADDR of a translation or ownership fault (R324). -/
def recordMiss (e : Eng) (va inf : Nat) (s : State) : State :=
  (s.modXl e (fun x => { x with missVa := BitVec.ofNat 48 va, missInf := BitVec.ofNat 48 inf })).modExc e
    (fun x => { x with faddr := BitVec.ofNat 48 va })

/-! ### Memory accesses of exception hardware -/

/-- An access of the engine's generators to some of these bytes has not completed: exception hardware waits for it. -/
def generatorsTouch (s : State) (e : Eng) (pa n : Nat) : Bool :=
  let x := s.engine e
  let touches (a : Access) := decide (a.pa < pa + n) && decide (pa < a.pa + a.len)
  x.ag.toList.any (fun a => match a.flight with | some f => touches f | none => false) || x.posted.any touches

/-- What such a read gives. -/
inductive Got where
  | ok (bs : List Byte)
  | error
  | wait
  deriving DecidableEq, Repr

/-- A read by exception hardware; external memory answers later, through MASTER_RESPONSE. -/
def excRead (e : Eng) (pa : Nat) (own : Bool) (n : Nat) (s : State) : Got × State :=
  if generatorsTouch s e pa n then (.wait, s)
  else if isExternal pa then
    match (s.engine e).ext.find? (fun r => r.pa == pa && r.len == n) with
    | some r =>
      match r.answer with
      | none => (.wait, s)
      | some none => (.error, s)
      | some (some bs) => (.ok bs, s)
    | none =>
      (.wait, (s.modEng e (fun x => { x with ext := x.ext ++ [⟨pa, n, none, x.seqn⟩], seqn := x.seqn + 1 })).emit
        (.master e true false pa n (isDevice s pa) []))
  else
    let (st, bs, s) := engBlockRead e own (pa - blockSpace) n s
    (if st = stOkay then .ok bs else .error, s)

/-- A read at a virtual address: what it gives, or the fault of its translation. -/
inductive GotVa where
  | ok (bs : List Byte)
  | error
  | wait
  | fault (va inf : Nat)
  deriving DecidableEq, Repr

/-- A read of exception hardware through translation. -/
def excLoad (e : Eng) (va n : Nat) (s : State) : GotVa × State :=
  match translate e va .read s with
  | (.fault inf, s) => (.fault va inf, s)
  | (.busy, s) => (.wait, s)
  | (.ok pa own, s) =>
    match excRead e pa own n s with
    | (.ok bs, s) => (.ok bs, s)
    | (.error, s) => (.error, s)
    | (.wait, s) => (.wait, s)

/-- A vector-table entry (R265). -/
def vectorLoad (e : Eng) (v : Nat) (s : State) : GotVa × State :=
  excLoad e (((s.engine e).exc.vbar.toNat + 8 * v) % 2 ^ 48) 6 s

/-- The four words of a frame as a push lays them out (R271). -/
def frameBytes (x : ExcSt) : List Byte :=
  bytesLE 8 x.epc.toNat ++ bytesLE 8 x.enpc.toNat ++ bytesLE 8 x.ssr.toNat ++ bytesLE 8 x.cause.toNat

/-- One row of a push: done with success, or with a bus error. An external write completes later. -/
def pushRow (e : Eng) (pa : Nat) (own : Bool) (bs : List Byte) (s : State) : Bool × State :=
  if isExternal pa then (true, s.emit (.master e true true pa 16 (isDevice s pa) bs))
  else
    let (st, s) := engBlockWrite e own (pa - blockSpace) bs s
    (decide (st = stOkay), s)

/-! ### Double fault (R272) -/

/-- An entry waits. -/
def entryWaits (e : Eng) (ev : Event) (dbl : Option (Bool × Bool × Bool)) (s : State) : State :=
  s.modEng e (fun x => { x with retry := some (ev, dbl) })

/-- What waits after an entry: what waited before, one entry deeper; and at a precise fault the interrupts above the old MASK and the
watchdog warning that are pending (R270). -/
def holdsAfter (e : Eng) (ev : Event) (s : State) : List Hold :=
  let x := (s.engine e).exc
  let srcs := s.above e (x.ssr.extractLsb' 0 3)
  x.holds.map (fun h => { h with depth := h.depth + 1 }) ++
    (if ev.precise && (x.wdWarn || srcs != 0) then [⟨x.sr.mask, 0, srcs, x.wdWarn⟩] else [])

/-- What every entry does last: the handler's address, no reservation, an SC under way included, no waiting entry, no boundary before
the handler's first bundle (R228, R269). -/
def enterHandler (e : Eng) (handler : Word) (vec : Nat) (ev : Event) (s : State) : State :=
  let s := (s.modEng e (fun x =>
    { x with
      flow := { x.flow with pc := handler, xfer := none }
      resv := none, retry := none, ext := [], stalled := false, held := none, fresh := true
      ag := x.dropHeld
      exc := { x.exc with holds := holdsAfter e ev s } }))
  traceFlow e 1 handler vec s

/-- Double-fault entry (R272): the frame goes to the shadows, nothing is pushed. LA, RA and RINT are saved in SSR and cleared, as
at every exception entry (R216, R271). -/
def doubleFault (e : Eng) (ev : Event) (entry esc ret : Bool) (s : State) : State :=
  let x := (s.engine e).exc
  if x.sr.df then thirdFault e ev.vec ev.epc false s
  else
    match vectorLoad e 1 s with
    | (.wait, s) => entryWaits e ev (some (entry, esc, ret)) s
    | (.fault _ inf, s) => thirdFault e (missVector inf) ev.epc false s
    | (.error, s) => thirdFault e 8 ev.epc false s
    | (.ok bs, s) =>
      let y := (s.engine e).exc
      let s := s.modExc e (fun _ =>
        { y with
          sh := #v[y.epc, y.enpc, y.ssr.setWidth 48, y.cause]
          epc := ev.epc, enpc := ev.enpc
          ssr := ({ y.sr with ds := ev.ds } : Status).word
          cause := causeWord 1 ev entry esc ret
          faddr := if 4 ≤ ev.vec ∧ ev.vec ≤ 8 ∧ !entry then ev.faddr else y.faddr
          aepc := ev.aepc.getD y.aepc
          sr := ⟨7, false, false, false, false, true⟩ })
      enterHandler e (BitVec.ofNat 48 (natLE bs)) 1 ev s

/-! ### Normal entry (R271) -/

/-- The frame registers, status and stack pointer of an entry (R271), with the sources that it clears (R267, R335). -/
def writeFrame (e : Eng) (ev : Event) (level : Nat) (s : State) : State :=
  let s := s.modExc e (fun x =>
    { x with
      sp := x.sp - 32
      epc := ev.epc, enpc := ev.enpc
      ssr := ({ x.sr with ds := ev.ds } : Status).word
      cause := causeWord ev.vec ev false false false
      faddr := if 4 ≤ ev.vec ∧ ev.vec ≤ 8 then ev.faddr else 0
      aepc := ev.aepc.getD x.aepc
      sr := ⟨BitVec.ofNat 3 level, false, false, false, false, false⟩
      swi := if ev.vec = 16 then x.swi &&& 2 else if ev.vec = 17 then x.swi &&& 1 else x.swi })
  if 5 ≤ ev.vec ∧ ev.vec ≤ 7 then s.lower (XL.E.STAT.SDSEEN e) else s

/-- The push of an entry whose checks have passed, at the two rows' physical addresses; then the frame and the handler. A
bus error of the push unwinds the entry (R272). -/
def pushAndEnter (e : Eng) (ev : Event) (level : Nat) (hi lo : Nat × Bool) (handler : Word) (s : State) : State :=
  let x := s.engine e
  let bs := frameBytes x.exc
  let left := (isExternal hi.1).toNat + (isExternal lo.1).toNat
  let u : Undo := { sp := x.exc.sp, epc := x.exc.epc, enpc := x.exc.enpc, ssr := x.exc.ssr, cause := x.exc.cause
                    aepc := x.exc.aepc, faddr := x.exc.faddr, sr := x.exc.sr, pc := x.flow.pc, xfer := x.flow.xfer, left := left, seqn := x.seqn }
  let s := s.modEng e (fun y => { y with undo := if left = 0 then none else some u, seqn := y.seqn + 1 })
  let (ok1, s) := pushRow e hi.1 hi.2 (bs.drop 16) s
  let (ok2, s) := if ok1 then pushRow e lo.1 lo.2 (bs.take 16) s else (false, s)
  if ok1 && ok2 then enterHandler e handler ev.vec ev (writeFrame e ev level s)
  else doubleFault e ev true false false (s.modEng e (fun y => { y with undo := none }))

/-- Entry to a vector (R271, R272): push check, vector read, push, frame. -/
def normalEntry (e : Eng) (ev : Event) (s : State) : State :=
  let x := (s.engine e).exc
  let sp := x.sp.toNat
  let hiVa := (x.sp - 16).toNat
  let loVa := (x.sp - 32).toNat
  if sp % 16 ≠ 0 then doubleFault e ev true false false s
  else
    match translate e loVa .write s with
    | (.busy, s) => entryWaits e ev none s
    | (.fault inf, s) => doubleFault e ev true false false (recordMiss e loVa inf s)
    | (.ok lo loOwn, s) =>
      match translate e hiVa .write s with
      | (.busy, s) => entryWaits e ev none s
      | (.fault inf, s) => doubleFault e ev true false false (recordMiss e hiVa inf s)
      | (.ok hi hiOwn, s) =>
        if generatorsTouch s e lo 16 || generatorsTouch s e hi 16 then entryWaits e ev none s
        else match vectorLoad e ev.vec s with
        | (.wait, s) => entryWaits e ev none s
        | (.fault va inf, s) => doubleFault e ev true false false (recordMiss e va inf s)
        | (.error, s) => doubleFault e ev true false false s
        | (.ok bs, s) =>
          pushAndEnter e ev (eventLevel x ev.vec) (hi, hiOwn) (lo, loOwn) (BitVec.ofNat 48 (natLE bs)) s

/-- TAKING AN EXCEPTION: an event enters its vector, or escalates to a double fault when its class level is not above MASK
(R262, R271, R272). -/
def takeException (e : Eng) (ev : Event) (s : State) : State :=
  let x := (s.engine e).exc
  if !(decide (16 ≤ ev.vec ∧ ev.vec < 32)) && decide (eventLevel x ev.vec ≤ x.sr.mask.toNat) then
    doubleFault e ev false true false s
  else normalEntry e ev s

/-- An entry that waited is tried again. -/
def retryEntry (e : Eng) (s : State) : State :=
  match (s.engine e).retry with
  | some (ev, some (entry, esc, ret)) => doubleFault e ev entry esc ret s
  | some (ev, none) => takeException e ev s
  | none => s

/-- A push write of an entry has received an error response: the entry is unwound and a double fault entered (R272). -/
def pushFailed (e : Eng) (u : Undo) (s : State) : State :=
  let x := (s.engine e).exc
  let ev : Event :=
    { vec := bits x.cause.toNat 0 6, epc := x.epc, enpc := x.enpc, ds := x.ssr.getLsbD 6, imp := x.cause.getLsbD 6
      multi := x.cause.getLsbD 7, slot := x.cause.getLsbD 8, fetch := x.cause.getLsbD 9, store := x.cause.getLsbD 10
      ag := bits x.cause.toNat 11 2, faddr := x.faddr, aepc := none }
  let s := s.modEng e (fun y => { y with
    undo := none
    flow := { y.flow with pc := u.pc, xfer := u.xfer }
    exc := { y.exc with sp := u.sp, epc := u.epc, enpc := u.enpc, ssr := u.ssr, cause := u.cause, sr := u.sr } })
  doubleFault e ev true false false s

/-- A precise fault of the next bundle. A report that waits is taken in its place, with the same return point (R270). -/
def takeFault (e : Eng) (ev : Event) (s : State) : State :=
  match (s.engine e).exc.reports with
  | r :: t => takeException e (reportEvent ev r) (s.modExc e (fun x => { x with reports := t }))
  | [] => takeException e ev s

/-! ### Return (R275) -/

/-- The outcome of a return's reload: the four words, or the fault of the reload with its address and MISSINF. -/
inductive Reload where
  | words (l : List Word)
  | wait
  | fault (vec va : Nat) (inf : Option Nat)
  deriving DecidableEq, Repr

/-- The bits of EXC.CAUSE that R283 gives a field. -/
def causeMask : Word := 0x1FF1FFF

/-- What waits for the running handler is free again once MASK lies below what the handler was entered with (R270). -/
def ExcSt.freeHolds (x : ExcSt) : ExcSt :=
  { x with holds := x.holds.filter (fun h => h.depth != 0 || decide (h.mask.toNat ≤ x.sr.mask.toNat)) }

/-- A handler returns: what waited for it is free, and what waits for the handlers below it lies one entry less deep (R270). -/
def ExcSt.popHolds (x : ExcSt) : ExcSt :=
  { x with holds := (x.holds.filter (fun h => h.depth != 0)).map (fun h => { h with depth := h.depth - 1 }) }

/-- PC and status from EPC and SSR, the frame registers from four words (R275). -/
def restore (e : Eng) (words : List Word) (popped : Bool) (s : State) : State :=
  let x := (s.engine e).exc
  let old := Status.ofWord x.ssr
  let s := s.modEng e (fun y => { y with
    ext := [], stalled := false, held := none, fresh := false, husk := y.husk.filter (·.debug)
    flow := { y.flow with pc := x.epc, xfer := if old.ds then some (decide (x.enpc ≠ x.epc + 6), x.enpc) else none }
    exc := ({ x with
      sr := { old with ds := false }
      epc := words.getD 0 0, enpc := words.getD 1 0, ssr := (words.getD 2 0).setWidth 8, cause := words.getD 3 0 &&& causeMask
      sp := if popped then x.sp + 32 else x.sp } : ExcSt).popHolds.freeHolds })
  traceFlow e 2 x.epc 0 (dropAhead e s)

/-- The words of two rows. -/
def rowWords (lo hi : List Byte) : List Word :=
  [lo, lo.drop 8, hi, hi.drop 8].map (fun l => BitVec.ofNat 48 (natLE (l.take 6)))

/-- The reload of a return (R275): with DF the shadows, otherwise the four words at the stack pointer. -/
def reload (e : Eng) (sp : Nat) (s : State) : Reload × State :=
  let x := (s.engine e).exc
  if x.sr.df then (.words x.sh.toList, s)
  else if sp % 16 ≠ 0 then (.fault 4 sp none, s)
  else
    match excLoad e sp 16 s with
    | (.wait, s) => (.wait, s)
    | (.fault va inf, s) => (.fault (missVector inf) va (some inf), s)
    | (.error, s) => (.fault 8 sp none, s)
    | (.ok lo, s) =>
      let sp2 := (sp + 16) % 2 ^ 48
      match excLoad e sp2 16 s with
      | (.wait, s) => (.wait, s)
      | (.fault va inf, s) => (.fault (missVector inf) va (some inf), s)
      | (.error, s) => (.fault 8 sp2 none, s)
      | (.ok hi, s) => (.words (rowWords lo hi), s)

/-- A reload that faults escalates to a double fault, with RET and the slot of the return (R275, R283); a report that waits is taken in
its place (R270). -/
def returnFault (e : Eng) (slot : Bool) (vec va : Nat) (inf : Option Nat) (s : State) : State :=
  let ev := { preciseEvent s e vec with slot := slot, faddr := BitVec.ofNat 48 va }
  let s := match inf with | some i => recordMiss e va i s | none => s
  let s := s.modEng e (fun x => { x with stalled := false, held := none, husk := none })
  match (s.engine e).exc.reports with
  | r :: t => takeException e (reportEvent ev r) (s.modExc e (fun x => { x with reports := t }))
  | [] => doubleFault e ev false false true s

/-! ### Entries at a bundle boundary (R268, R269, R276, R281) -/

/-- The boundary before the next bundle is eligible: after a bundle has retired, not before a delay bundle, not inside a
non-interruptible repeat, and not while the bundle stalls (R269). -/
def boundary (s : State) (e : Eng) : Bool :=
  let x := s.engine e
  x.flow.xfer.isNone && !x.stalled && !x.fresh && !(x.exc.sr.ra && !x.exc.sr.rint)

/-- The watchdog warning may be taken: it is pending and waits for no fault's handler (R270, R281). -/
def ExcSt.warns (x : ExcSt) : Bool := x.wdWarn && !x.holds.any (·.warn)

/-- What an eligible boundary takes before the next bundle may issue (R269). In a single step, interrupts and the watchdog
warning are not taken (R453). -/
inductive Due where
  | none
  | report (r : Report)
  | warning
  | interrupt (k : Nat)
  deriving DecidableEq, Repr

def boundaryDue (s : State) (e : Eng) : Due :=
  let x := s.engine e
  if !boundary s e then .none
  else
    match x.exc.reports with
    | r :: _ => .report r
    | [] =>
      if x.stepping then .none
      else if x.exc.warns then .warning
      else match s.takeable e with | some k => .interrupt k | none => .none

/-- INTERRUPT_ENTRY (R268). -/
def execInterruptEntry (e : Eng) (s : State) : Res :=
  if !s.issues e then .next s
  else if (s.engine e).retry.isSome then .next (retryEntry e s)
  else
    match boundaryDue s e with
    | .interrupt k => .next (takeException e (boundaryEvent s e (16 + k)) s)
    | _ => .next s

/-- IMPRECISE_REPORT (R276, R277). -/
def execImpreciseReport (e : Eng) (s : State) : Res :=
  if !s.issues e then .next s
  else if (s.engine e).retry.isSome then .next (retryEntry e s)
  else
    match boundaryDue s e with
    | .report r =>
      .next (takeException e (reportEvent (boundaryEvent s e r.vec) r) (s.modExc e (fun x => { x with reports := x.reports.drop 1 })))
    | _ => .next s

/-- WATCHDOG_WARNING_ENTRY (R281). -/
def execWatchdogWarningEntry (e : Eng) (s : State) : Res :=
  if !s.issues e then .next s
  else if (s.engine e).retry.isSome then .next (retryEntry e s)
  else
    match boundaryDue s e with
    | .warning => .next (takeException e (boundaryEvent s e 12) (s.modExc e (fun x => { x with wdWarn := false })))
    | _ => .next s

/-- ENGINE_WATCHDOG_EXPIRY (R280, R281): the watchdog runs while WDPER is not 0 and its engine runs and is not halted
(R463). -/
def execEngineWatchdogExpiry (e : Eng) (s : State) : Res :=
  let x := (s.engine e).exc
  if x.wdper = 0 ∨ !s.clocked e ∨ s.halted e then .next s
  else if x.wdOnce then .next (thirdFault e 12 (s.pc e) true s)
  else .next (s.modExc e (fun y => { y with wdOnce := true, wdWarn := true }))

/-! ### Reports (R276, R277) -/

/-- The order of reports: that of their triggering bundles (R277). -/
def Report.place (r : Report) : Nat := 2 * r.seqn + (r.vec == 8).toNat

/-- A report takes its place among those that wait (R277). -/
def addReport (r : Report) : List Report → List Report
  | [] => [r]
  | q :: t => if r.place < q.place then r :: q :: t else q :: addReport r t

/-- An arithmetic detection of a trigger is recorded: its bundle, slot and place in the engine's order; while an arithmetic
report waits, only MULTI is set (R276). -/
def reportArith (e : Eng) (vec : Nat) (pc : Word) (slot : Bool) (seqn : Nat) (s : State) : State :=
  s.modExc e (fun x =>
    if x.reports.any (fun r => r.vec != 8) then
      { x with reports := x.reports.map (fun r => if r.vec = 8 then r else { r with multi := true }) }
    else { x with reports := addReport ⟨vec, pc, 0, false, false, 0, slot, seqn⟩ x.reports })

/-- A bus error of an address generator's access becomes pending (R277). -/
def reportBus (e : Eng) (a : Access) (store : Bool) (s : State) : State :=
  s.modExc e (fun x => { x with reports := addReport ⟨8, a.pc, a.va, false, store, a.ag, a.slot, a.seqn⟩ x.reports })

end Sys2Proof.Machine
end

