-- ==== Sys2Proof/Machine/Crypto.lean ====
section
/-! DEFINITION. The standards that the cryptography unit carries out: SHA-256, HMAC-SHA-256, AES in GCM with a 96-bit IV,
ECDSA P-256 verification (R384; the algorithms are PRESUMED from the standards the manual names, log entry 10). -/

namespace Sys2Proof.Machine

/-! ### SHA-256 (FIPS 180-4) -/

/-- The largest number below 2^`bits` + `acc` whose power `e` does not exceed `x`, found bit by bit from the top. -/
def intRoot (e x : Nat) : Nat → Nat → Nat
  | 0, acc => acc
  | bit + 1, acc => intRoot e x bit (if (acc + 2 ^ bit) ^ e ≤ x then acc + 2 ^ bit else acc)

/-- The first `n` primes of `c`, `c` + 1, ... that no prime of `found` divides, within `fuel` candidates. -/
def primesFrom : Nat → Nat → Nat → List Nat → List Nat
  | 0, _, _, found => found
  | fuel + 1, n, c, found =>
    if found.length = n then found
    else primesFrom fuel n (c + 1) (if found.all (fun q => c % q != 0) then found ++ [c] else found)

/-- The first 32 bits of the fraction of the root of order `e` of `p`: how FIPS 180-4 (4.2.2, 5.3.3) defines the constants. -/
def rootFraction (e p : Nat) : Word32 := BitVec.ofNat 32 (intRoot e (p * 2 ^ (32 * e)) 36 0)

/-- The round constants: from the cube roots of the first 64 primes. -/
def shaK : List Word32 := (primesFrom 310 64 2 []).map (rootFraction 3)

/-- The initial hash value: from the square roots of the first 8 primes. -/
def shaInit : List Word32 := (primesFrom 20 8 2 []).map (rootFraction 2)

/-- A word rotated right by each of two amounts, and a third word, summed bit by bit. -/
def shaMix (x : Word32) (i j : Nat) (y : Word32) : Word32 := y ^^^ x.rotateRight j ^^^ x.rotateRight i

/-- Message words, newest first, extended by `n`. -/
def shaExtend : Nat → List Word32 → List Word32
  | 0, w => w
  | n + 1, w =>
    let back := fun k => w.getD (k - 1) 0
    let near := shaMix (back 2) 17 19 (back 2 >>> 10)
    let far := shaMix (back 15) 7 18 (back 15 >>> 3)
    shaExtend n ((near + back 7 + far + back 16) :: w)

/-- The eight working variables of a round. -/
structure ShaVars where
  a : Word32
  b : Word32
  c : Word32
  d : Word32
  e : Word32
  f : Word32
  g : Word32
  h : Word32
  deriving DecidableEq, Repr

/-- One round, for a word of the schedule already added to its round constant. -/
def ShaVars.round (v : ShaVars) (kw : Word32) : ShaVars :=
  let choose := v.g ^^^ (v.e &&& (v.f ^^^ v.g))
  let majority := (v.a &&& v.b) ||| (v.c &&& (v.a ||| v.b))
  let mixed := kw + v.h + choose + shaMix v.e 6 11 (v.e.rotateRight 25)
  { a := mixed + majority + shaMix v.a 2 13 (v.a.rotateRight 22), b := v.a, c := v.b, d := v.c,
    e := v.d + mixed, f := v.e, g := v.f, h := v.g }

/-- The variables of a hash value, and back. -/
def ShaVars.load (l : List Word32) : ShaVars :=
  let at' := fun k => l.getD k 0
  ⟨at' 0, at' 1, at' 2, at' 3, at' 4, at' 5, at' 6, at' 7⟩

/-- The variables as a list. -/
def ShaVars.words (v : ShaVars) : List Word32 := [v.a, v.b, v.c, v.d, v.e, v.f, v.g, v.h]

/-- The words of a block of 64 bytes. -/
def shaWords : List Byte → List Word32
  | a :: b :: c :: d :: t => (a ++ b ++ c ++ d : BitVec 32) :: shaWords t
  | _ => []

/-- One block of 64 bytes enters the hash value. -/
def shaBlock (h : List Word32) (b : List Byte) : List Word32 :=
  let schedule := (shaExtend 48 (shaWords b).reverse).reverse
  let last := (schedule.zipWith (· + ·) shaK).foldl ShaVars.round (ShaVars.load h)
  last.words.zipWith (· + ·) h

/-- The blocks of a padded message. -/
def shaBlocks : Nat → List Byte → List Word32 → List Word32
  | 0, _, h => h
  | n + 1, m, h => shaBlocks n (m.drop 64) (shaBlock h (m.take 64))

/-- The SHA-256 digest of a byte string. -/
def sha256 (m : List Byte) : List Byte :=
  let n := m.length
  let pad := (119 - n % 64) % 64
  let all := m ++ [0x80] ++ List.replicate pad 0 ++ bytesBE 8 (8 * n)
  ((shaBlocks (all.length / 64) all shaInit).map (fun w => bytesBE 4 w.toNat)).flatten

/-- HMAC-SHA-256 with a key of at most 64 bytes (FIPS 198-1). -/
def hmac (key m : List Byte) : List Byte :=
  let k := key ++ List.replicate (64 - key.length) 0
  sha256 (k.map (· ^^^ 0x5C) ++ sha256 (k.map (· ^^^ 0x36) ++ m))

/-! ### AES (FIPS 197) -/

/-- Multiplication by x in GF(2^8). -/
def xtime (a : Byte) : Byte := if a.getLsbD 7 then (a <<< 1) ^^^ 0x1B else a <<< 1

/-- Multiplication in GF(2^8), over `n` bits of the second factor. -/
def gfMul : Nat → Byte → Byte → Byte
  | 0, _, _ => 0
  | n + 1, a, b => (if b.getLsbD 0 then a else 0) ^^^ gfMul n (xtime a) (b >>> 1)

/-- `a` to the power 2^(n+1) - 2; for n = 7 the inverse of `a`. -/
def gfPow : Nat → Byte → Byte
  | 0, _ => 1
  | n + 1, a => let q := gfMul 8 a a; gfMul 8 q (gfPow n q)

/-- The S-box. -/
def sbox (a : Byte) : Byte :=
  let b := gfPow 7 a
  b ^^^ b.rotateLeft 1 ^^^ b.rotateLeft 2 ^^^ b.rotateLeft 3 ^^^ b.rotateLeft 4 ^^^ 0x63

/-- The S-box as a table. -/
def sboxTable : List Byte := (List.range 256).map (fun i => sbox (BitVec.ofNat 8 i))

/-- A byte through the S-box table. -/
def subByte (t : List Byte) (a : Byte) : Byte := t.getD a.toNat 0

/-- Key words, newest first, extended by `n`; `nk` key words, `i` made so far, the round constant. -/
def aesExpand (t : List Byte) (nk : Nat) : Nat → Nat → Byte → List (List Byte) → List (List Byte)
  | 0, _, _, w => w
  | n + 1, i, rc, w =>
    let last := w.headD []
    let x :=
      if i % nk = 0 then
        ((last.drop 1 ++ last.take 1).map (subByte t)).zipWith (· ^^^ ·) [rc, 0, 0, 0]
      else if decide (6 < nk) && i % nk == 4 then last.map (subByte t) else last
    aesExpand t nk n (i + 1) (if i % nk = 0 then xtime rc else rc) ((w.getD (nk - 1) []).zipWith (· ^^^ ·) x :: w)

/-- The bytes of a list in pieces of `k`. -/
def pieces (k : Nat) : Nat → List Byte → List (List Byte)
  | 0, _ => []
  | n + 1, l => l.take k :: pieces k n (l.drop k)

/-- The round keys of a key of 16 or 32 bytes. -/
def aesKeys (t : List Byte) (key : List Byte) : List (List Byte) :=
  let nk := key.length / 4
  let w := (aesExpand t nk (4 * (nk + 7) - nk) nk 1 (pieces 4 nk key).reverse).reverse
  pieces 16 (nk + 7) w.flatten

/-- ShiftRows on the 16 bytes of a state, column by column. -/
def shiftRows (s : List Byte) : List Byte := (List.range 16).map (fun i => s.getD ((i + 4 * (i % 4)) % 16) 0)

/-- MixColumns on the bytes of a state. -/
def mixColumns (s : List Byte) : List Byte :=
  (List.range 16).map (fun i =>
    let c := i / 4 * 4
    let a := s.getD i 0
    let b := s.getD (c + (i + 1) % 4) 0
    xtime a ^^^ xtime b ^^^ b ^^^ s.getD (c + (i + 2) % 4) 0 ^^^ s.getD (c + (i + 3) % 4) 0)

/-- The cipher on one block, with the S-box table and the round keys. -/
def aesRounds (t : List Byte) : List (List Byte) → List Byte → List Byte
  | [], s => s
  | [k], s => (shiftRows (s.map (subByte t))).zipWith (· ^^^ ·) k
  | k :: ks, s => aesRounds t ks ((mixColumns (shiftRows (s.map (subByte t)))).zipWith (· ^^^ ·) k)

/-- AES encryption of one block. -/
def aesBlock (t : List Byte) (ks : List (List Byte)) (b : List Byte) : List Byte :=
  aesRounds t (ks.drop 1) (b.zipWith (· ^^^ ·) (ks.headD []))

/-! ### GCM (NIST SP 800-38D) -/

/-- Multiplication in GF(2^128) in GCM's bit order, over the bits of the first factor from bit `n` - 1 down. -/
def ghMul : Nat → BitVec 128 → BitVec 128 → BitVec 128
  | 0, _, _ => 0
  | n + 1, x, v =>
    (if x.getLsbD n then v else 0) ^^^ ghMul n x (if v.getLsbD 0 then (v >>> 1) ^^^ (0xE1#128 <<< 120) else v >>> 1)

/-- A block of at most 16 bytes, padded with zeros, as a number. -/
def blockNum (b : List Byte) : BitVec 128 := BitVec.ofNat 128 (natBE (b ++ List.replicate (16 - b.length) 0))

/-- Blocks enter GHASH. -/
def ghash (h : BitVec 128) : List (List Byte) → BitVec 128 → BitVec 128
  | [], y => y
  | b :: t, y => ghash h t (ghMul 128 (y ^^^ blockNum b) h)

/-- The pieces of 16 bytes of a byte string. -/
def blocks16 (l : List Byte) : List (List Byte) := pieces 16 ((l.length + 15) / 16) l

/-- The key stream of `n` blocks from a counter block: IV and counter. -/
def keyStream (t : List Byte) (ks : List (List Byte)) (iv : List Byte) : Nat → Nat → List Byte
  | 0, _ => []
  | n + 1, c => aesBlock t ks (iv ++ bytesBE 4 c) ++ keyStream t ks iv n (c + 1)

/-- The tag of ciphertext and additional data. -/
def gcmTag (t : List Byte) (ks : List (List Byte)) (iv aad ct : List Byte) : List Byte :=
  let h := blockNum (aesBlock t ks (List.replicate 16 0))
  let lens := bytesBE 8 (8 * aad.length) ++ bytesBE 8 (8 * ct.length)
  let y := ghash h (blocks16 aad ++ blocks16 ct ++ [lens]) 0
  bytesBE 16 (y ^^^ blockNum (aesBlock t ks (iv ++ bytesBE 4 1))).toNat

/-- The counter mode of GCM: encryption and decryption are the same. -/
def gcmCrypt (t : List Byte) (ks : List (List Byte)) (iv data : List Byte) : List Byte :=
  data.zipWith (· ^^^ ·) (keyStream t ks iv ((data.length + 15) / 16) 2)

/-- AES-GCM encryption: ciphertext and tag. -/
def gcmEncrypt (key iv aad pt : List Byte) : List Byte × List Byte :=
  let t := sboxTable
  let ks := aesKeys t key
  let ct := gcmCrypt t ks iv pt
  (ct, gcmTag t ks iv aad ct)

/-- AES-GCM decryption: plaintext, and the tag that the ciphertext should have. -/
def gcmDecrypt (key iv aad ct : List Byte) : List Byte × List Byte :=
  let t := sboxTable
  let ks := aesKeys t key
  (gcmCrypt t ks iv ct, gcmTag t ks iv aad ct)

/-! ### ECDSA P-256 verification (FIPS 186-4) -/

def p256P : Nat := 0xffffffff00000001000000000000000000000000ffffffffffffffffffffffff
def p256N : Nat := 0xffffffff00000000ffffffffffffffffbce6faada7179e84f3b9cac2fc632551
def p256B : Nat := 0x5ac635d8aa3a93e7b3ebbd55769886bc651d06b0cc53b0f63bce3c3e27d2604b
def p256Gx : Nat := 0x6b17d1f2e12c4247f8bce6e563a440f277037d812deb33a0f4a13945d898c296
def p256Gy : Nat := 0x4fe342e2fe1a7f9b8ee7eb4a7c0f9e162bce33576b315ececbb6406837bf51f5

/-- `a` to the power of the low `k` bits of `e`, modulo `m`. -/
def powMod (m : Nat) : Nat → Nat → Nat → Nat
  | 0, _, _ => 1
  | k + 1, a, e => (if e % 2 = 1 then a else 1) * powMod m k (a * a % m) (e / 2) % m

/-- The inverse modulo a prime. -/
def invMod (m a : Nat) : Nat := powMod m 256 (a % m) (m - 2)

/-- Addition on the curve; none is the point at infinity. -/
def ecAdd (a b : Option (Nat × Nat)) : Option (Nat × Nat) :=
  match a, b with
  | none, q => q
  | p, none => p
  | some (x1, y1), some (x2, y2) =>
    let p := p256P
    if x1 = x2 ∧ (y1 + y2) % p = 0 then none
    else
      let l :=
        if x1 = x2 then (3 * x1 * x1 + (p - 3)) % p * invMod p (2 * y1) % p
        else (y2 + (p - y1)) % p * invMod p (x2 + (p - x1)) % p
      let x := (l * l + 2 * p - x1 - x2) % p
      some (x, (l * (x1 + (p - x)) + (p - y1)) % p)

/-- A multiple of a point, over the low `k` bits of the factor. -/
def ecMul : Nat → Nat → Option (Nat × Nat) → Option (Nat × Nat)
  | 0, _, _ => none
  | k + 1, n, q => ecAdd (if n % 2 = 1 then q else none) (ecMul k (n / 2) (ecAdd q q))

/-- The point lies on the curve. -/
def onCurve (x y : Nat) : Bool :=
  decide (x < p256P ∧ y < p256P) && decide (y * y % p256P = (x * x * x + (p256P - 3) * x + p256B) % p256P)

/-- ECDSA verification of a digest of 32 bytes: public key x, y and signature r, s. -/
def ecdsaVerify (x y r s : Nat) (digest : List Byte) : Bool :=
  if onCurve x y && decide (0 < r ∧ r < p256N) && decide (0 < s ∧ s < p256N) then
    let w := invMod p256N s
    let u1 := natBE digest * w % p256N
    let u2 := r * w % p256N
    match ecAdd (ecMul 256 u1 (some (p256Gx, p256Gy))) (ecMul 256 u2 (some (x, y))) with
    | some (vx, _) => decide (vx % p256N = r)
    | none => false
  else false

/-- The number in 32 bytes of a string, most significant byte first. -/
def num32 (l : List Byte) (o : Nat) : Nat := natBE ((l.drop o).take 32)

end Sys2Proof.Machine
end

