-- ==== Sys2Proof/Machine/Load.lean ====
section
/-! DEFINITION. Bulk reads of the loaders and the control-store load (R46-R48, R436). -/

namespace Sys2Proof.Machine

open Reg

/-! ### Bulk reads and writes (R364, R417) -/

/-- A run of bytes cut into pieces of at most 256 bytes within one 4 KiB page: address and length. -/
def bursts : Nat → Nat → Nat → List (Nat × Nat)
  | 0, _, _ => []
  | k + 1, a, n =>
    if n = 0 then []
    else
      let m := min n (min 256 (4096 - a % 4096))
      (a, m) :: bursts k (a + m) (n - m)

/-- The size of one beat at an address, of at most `n` bytes: a power of two, to which the address is aligned (R414). -/
def beatSize (a n : Nat) : Nat := (([16, 8, 4, 2] : List Nat).find? (fun m => a % m == 0 && decide (m ≤ n))).getD 1

/-- A run of bytes cut into single beats. -/
def singleBeats : Nat → Nat → Nat → List (Nat × Nat)
  | 0, _, _ => []
  | k + 1, a, n => if n = 0 then [] else (a, beatSize a n) :: singleBeats k (a + beatSize a n) (n - beatSize a n)

/-- The accesses that read or write a run of bytes of external memory: in a device region single beats, each an access of its own
(R417; log entry 51). -/
def runPieces (s : State) (a n : Nat) : List (Nat × Nat) :=
  (bursts (n / 256 + n / 4096 + 3) a n).flatMap (fun b => if isDevice s b.1 then singleBeats b.2 b.1 b.2 else [b])

/-- The read commands of a run of bytes of external memory are given to the master port (R417). -/
def sendReads (req : Nat) (sec : Bool) (a n : Nat) (s : State) : State :=
  (runPieces s a n).foldl (fun t b => t.emit (.master req sec false b.1 b.2 (isDevice s b.1) [])) s

/-- The write commands of a run of bytes of external memory are given to the master port (R417). -/
def sendWrites (req : Nat) (sec : Bool) (a : Nat) (bs : List Byte) (s : State) : State :=
  (runPieces s a bs.length).foldl (fun t b => t.emit (.master req sec true b.1 b.2 (isDevice s b.1) ((bs.drop (b.1 - a)).take b.2))) s

/-- A bulk read of job `key` by a requester: its commands are given to the master port once; the answer can come once all of them have
left (R413, R419). -/
def askBulk (key req a n : Nat) (s : State) : Bool × State :=
  if !isExternal a then (true, s)
  else if s.bulk.contains key then
    if s.unsent req false then (false, s) else (true, { s with bulk := s.bulk.filter (· != key) })
  else
    let t := sendReads req true a n s
    if t.unsent req false then (false, { t with bulk := t.bulk ++ [key] }) else (true, t)

/-- A job asks for nothing any more. -/
def forgetBulk (key : Nat) (s : State) : State := { s with bulk := s.bulk.filter (· != key) }

/-- What a read of a run of bytes of the control stores through their window leaves (R46, R49). -/
def noteCsRun (a n : Nat) (s : State) : State :=
  (List.range 8).foldl (fun t i =>
    let lo := max a (0xA00000 + 0x10000 * i)
    let hi := min (a + n) (0xA10000 + 0x10000 * i)
    if lo < hi then noteCs lo (hi - lo) t else t) s

/-- The number of bytes from a granary address that read without an error, `n` at most (R299, R303). -/
def readableRun (s : State) (a n : Nat) : Nat :=
  let bad := (s.ecc.filter (fun e => e.2 && decide (a < e.1 * 8 + 8))).map (fun e => e.1 * 8 - a)
  let gaps := ((List.range 16).filter (fun l => s.get (MEMT.MAP.PB l) == 0x1F && decide (a < 0x1000000 + 0x80000 * (l + 1)))).map
    (fun l => 0x1000000 + 0x80000 * l - a)
  (bad ++ gaps).foldl min n

/-- What the read of a run of `n` bytes of on-block memory leaves, by the bytes that it brought and whether an error ended it (R298). -/
def noteRun (r n : Nat) (b : List Byte × Bool) (s : State) : State :=
  let k := b.1.length
  let t := noteCsRun r k (noteCe r k s)
  if !b.2 || !s.up (memDom r) then t else if inGran r then noteBad (r + k) 1 t else noteBad r n t

/-- The read of a run of `n` bytes by job `key`: whether its answer has come, and what the read leaves: the commands on the master port,
or the errors that the on-block memory records. -/
def sourceRead (key req a n : Nat) (b : List Byte × Bool) (s : State) : Bool × State :=
  if isExternal a then askBulk key req a b.1.length s else (true, noteRun (a - blockSpace) n b s)

/-- The bytes that a loader reads from a physical address before the first error, and whether an error ends the read.
External memory answers with `ext`, up to an error where `err` says so; the granary is the only on-block source (R48). -/
def sourceBytes (s : State) (a n : Nat) (ext : List Byte) (err : Bool) : List Byte × Bool :=
  if isExternal a then
    if err then (ext.take n, true) else ((ext ++ List.replicate (n - ext.length) 0).take n, false)
  else
    let r := a - blockSpace
    if inGran r && inGran (r + n - 1) then
      let k := readableRun s r n
      (s.bytes r k, decide (k < n))
    else ([], true)

/-! ### The package (R46, R47) -/

/-- A field of a byte string, lowest byte first (R3). -/
def fieldLE (b : List Byte) (o n : Nat) : Nat := natLE ((b.drop o).take n)

/-- The microword count of a package's header, whether a dispatch table follows, and the package's length. -/
def packCount (b : List Byte) : Nat := fieldLE b 10 2
def packDisp (b : List Byte) : Bool := (b.getD 6 0).getLsbD 0
def packLength (b : List Byte) : Nat := 0x50 + 4 * packCount b + (if packDisp b then 512 else 0) + 64

/-- The format checks of R46. -/
def packFormat (b : List Byte) : Bool :=
  let f := fieldLE b 8 2
  let n := packCount b
  let tab := 0x50 + 4 * n
  fieldLE b 0 4 == 0x57525351 && fieldLE b 4 2 == 1 && decide (fieldLE b 6 2 ≤ 1) && decide (1 ≤ f) && decide (f + n ≤ 16384) &&
    fieldLE b 12 4 == 0 &&
    (!packDisp b || (List.range 256).all (fun i => decide (fieldLE b (tab + 2 * i) 2 < 16384)))

/-- KEY_HASH as the digest's bytes (R436). -/
def keyBytes (keyHash : BitVec 256) : List Byte := bytesLE 32 keyHash.toNat

/-- A public key at an offset and the signature over a digest at another verify under KEY_HASH (R47). -/
def signatureGood (b : List Byte) (key sig : Nat) (digest : List Byte) : Bool :=
  ecdsaVerify (num32 b key) (num32 b (key + 32)) (num32 b sig) (num32 b (sig + 32)) digest

/-- The digest of a package: of every byte before the signature. -/
def packDigest (b : List Byte) : List Byte := sha256 (b.take (packLength b - 64))

/-- RESULT of the checks on a whole package (R47, R48). -/
def packResult (b : List Byte) (keyHash : BitVec 256) : Nat :=
  if !packFormat b then 2
  else if sha256 ((b.drop 0x10).take 64) == keyBytes keyHash && signatureGood b 0x10 (packLength b - 64) (packDigest b) then 0
  else 1

/-! ### The load (R48) -/

/-- The physical address of a port's package: in the staged image, where the loader or the firmware started the load from it; else that of
the registers, whose bits [3:0] are ignored (R62). Each pass reads the registers as they stand then: the manual does not say whether GO
latches them (DESIGN CHOICE, log entry 68). -/
def packAddr (s : State) (p : Port) : Nat :=
  (s.port p).csldAt.getD ((s.get (WSQ.CSLD.ADDR_LO.ADDR p) + 2 ^ 32 * s.get (WSQ.CSLD.ADDR_HI.ADDR p)) / 16 * 16)

/-- A load ends with a RESULT, and releases or withdraws its permit. -/
def endLoad (p : Port) (result : Nat) (s : State) : State :=
  let s := forgetBulk p ((s.modPort p (fun x => { x with csld := none, csldAt := none })).put (WSQ.CSLD.STAT.RESULT p) result)
  let s := dropPermit p (((s.raise (WSQ.CSLD.STAT.DONE p)).lower (WSQ.CSLD.STAT.BUSY p)).lower (WSQ.STAT.LOADING p))
  if result = 0 then s else s.raise (WSQ.ERR.LOADFAIL p)

/-- A write of GO (R48). -/
def startLoad (p : Port) (s : State) : State :=
  if (s.port p).csld.isSome then s
  else if s.on (WSQ.STAT.RUNACT p) then endLoad p 3 s
  else
    let s := (s.raise (WSQ.CSLD.STAT.BUSY p)).raise (WSQ.STAT.LOADING p)
    askPermit p 0 (s.modPort p (fun x => { x with csld := some .first }))

/-- A load of the package at a physical address in the staging area (R378, R392; log entry 55). -/
def startLoadAt (p : Port) (a : Nat) (s : State) : State :=
  let s := startLoad p s
  s.modPort p (fun x => { x with csldAt := x.csld.map (fun _ => a) })

/-- CSLD_GO (R48). -/
def execCsldGo (p : Port) (s : State) : Res := .next (startLoad p s)

/-- A write of ABORT (R48): it ends a load that waits for its permit or is in its first pass. -/
def abortLoad (p : Port) (s : State) : State :=
  match (s.port p).csld with
  | some .first => endLoad p 5 s
  | _ => s

/-- CSLD_ABORT (R48). -/
def execCsldAbort (p : Port) (s : State) : Res := .next (abortLoad p s)

/-- A package at an address as a pass reads it: first its header, then the rest. -/
def packageAt (s : State) (a : Nat) (head : Option (List Byte)) (ext : List Byte) (err : Bool) : List Byte × Bool :=
  let n := match head with
    | some h => packLength h
    | none =>
      let h := sourceBytes s a 0x50 ext err
      if h.2 || decide (h.1.length < 0x50) then 0x50 else packLength h.1
  sourceBytes s a (min n 66188) ext err

/-- The package of a port. -/
def readPackage (s : State) (p : Port) (head : Option (List Byte)) (ext : List Byte) (err : Bool) : List Byte × Bool :=
  packageAt s (packAddr s p) head ext err

/-- A CSLOAD of the host that has begun a port's load is past its commit point (R354). -/
def commitCsload (p : Port) (s : State) : State :=
  { s with chans := s.chans.map (fun (x : ChanSt) => { x with cmds := x.cmds.map (fun m =>
      if m.started && m.op == 0x0401 && decide (fieldLE m.params 0 1 = p.val) then { m with committed := true } else m) }) }

/-- CSLD_FIRST_PASS_DONE (R46-R48): with its permit the loader has read the package and checked it. `ext` is what external
memory answers, up to an error response where `err` is set. -/
def execCsldFirstPassDone (p : Port) (keyHash : BitVec 256) (ext : List Byte) (err : Bool) (s : State) : Res :=
  if (s.port p).csld == some .first && s.holds p then
    let b := readPackage s p none ext err
    match sourceRead p 17 (packAddr s p) b.1.length b s with
    | (false, s) => .next s
    | (true, s) =>
      if b.2 then .next (endLoad p 4 s)
      else
        let r := packResult b.1 keyHash
        .next (if r = 0 then commitCsload p (s.modPort p (fun x => { x with csld := some (.second (b.1.take 0x50) (packDigest b.1)) }))
          else endLoad p r s)
  else .next s

/-- Microwords are written from a microaddress on; each word written carries no error afterwards (R49). -/
def writeMicrowords (p : Port) (s : State) : Nat → List Nat → State
  | _, [] => s
  | u, w :: t =>
    writeMicrowords p (s.modPort p (fun x => { x with cs := putAt 0 u w x.cs, csEcc := eraseAt u x.csEcc })) (u + 1) t

/-- Dispatch entries are written from an opcode on. -/
def writeDispatch (p : Port) (s : State) : Nat → List Nat → State
  | _, [] => s
  | i, u :: t =>
    writeDispatch p ((s.put (WSQ.DISP.UADDR p i) u).modPort p (fun x => { x with csEcc := eraseAt (16384 + i) x.csEcc })) (i + 1) t

/-- Every dispatch entry becomes 0 (R48). -/
def zeroDispatch (p : Port) (s : State) : State := writeDispatch p s 0 (List.replicate 256 0)

/-- Numbers of `k` bytes each. -/
def numbers (k : Nat) : Nat → List Byte → List Nat
  | 0, _ => []
  | n + 1, b => natLE (b.take k) :: numbers k n (b.drop k)

/-- The microwords and dispatch entries of a package, as far as its bytes were read, are written (R48). -/
def writePackage (p : Port) (head b : List Byte) (s : State) : State :=
  let n := packCount head
  let words := (b.take (0x50 + 4 * n)).drop 0x50
  let s := writeMicrowords p s (fieldLE head 8 2) (numbers 4 (words.length / 4) words)
  if packDisp head then
    let tab := (b.drop (0x50 + 4 * n)).take 512
    writeDispatch p s 0 (numbers 2 (tab.length / 2) tab)
  else s

/-- CSLD_SECOND_PASS_DONE (R48): the second pass has read the package again, as far as it came. -/
def execCsldSecondPassDone (p : Port) (ext : List Byte) (err : Bool) (s : State) : Res :=
  match (s.port p).csld with
  | some (.second head digest) =>
    let b := readPackage s p (some head) ext err
    match sourceRead p 17 (packAddr s p) b.1.length b s with
    | (false, s) => .next s
    | (true, s) =>
      let s := writePackage p head b.1 s
      if b.2 then .next (endLoad p 4 (zeroDispatch p s))
      else if sha256 (b.1.take (packLength head - 64)) = digest then .next (endLoad p 0 s)
      else .next (endLoad p 2 (zeroDispatch p s))
  | _ => .next s

end Sys2Proof.Machine
end

