-- ==== Sys2Proof/Machine/Debug.lean ====
section
/-! DEFINITION. Halting and resuming engines, halt groups, patch units and watch comparators (R450-R460, R463). -/

namespace Sys2Proof.Machine

open Reg

/-! ### Halt requests and halt groups (R450, R455) -/

/-- A halt request reaches an engine: ignored unless the engine runs, and while the block is locked; an engine in IDLE wakes
(R444, R450). `gs`: the halt groups that it comes from. A request of a halt group to a halted engine keeps it halted: it outdoes a
RESUME of the same cycle (R453). -/
def requestHalt (cause : Nat) (gs : List (Fin 4)) (s : State) (e : Eng) : State :=
  if !s.engRuns e || !s.on DBG.LOCK.OPEN || s.halted e && gs.isEmpty then s
  else
    let s := s.modEng e (fun x => if x.haltReq.isSome then x else { x with haltReq := some cause, haltBy := gs })
    if onLoan s e || s.halted e then s else checkOffer (s.lowerBit PWR.EIDLE.ENG e)

/-- The engines of a 14-bit mask. -/
def engMask (m : Nat) : List Eng := (List.finRange 14).filter (fun e : Eng => m.testBit e.val)

/-- A halt group is to act in the next cycle (R455). -/
def setOff (s : State) (g : Fin 4) : State := { s with hgDue := if s.hgDue.contains g then s.hgDue else s.hgDue ++ [g] }

/-- The groups that are due act, together: ACTED, a GROUP packet, the halt requests, the notifications. None acts while its EN is 0 or
the block is locked (R444, R455). -/
def groupsAct (s : State) : State :=
  let gs := (List.finRange 4).filter (fun g => s.hgDue.contains g && s.on (HG.CTRL.EN g) && s.on DBG.LOCK.OPEN)
  let s := gs.foldl (fun t (g : Fin 4) => traceEvent false 5 15 0 g [] (t.raise (HG.CTRL.ACTED g))) { s with hgDue := [] }
  let s := (List.finRange 14).foldl (fun t (e : Eng) =>
    let by' : List (Fin 4) := gs.filter (fun g => s.bit (HG.STOP.ENG g) e)
    if by'.isEmpty then t else requestHalt 1 by' t e) s
  gs.foldl (fun t (g : Fin 4) => (engMask (t.get (HG.NOTIFY.ENG g))).foldl (fun t (e : Eng) => t.raiseBit (DBG.E.EVT.HG e) g) t) s

/-- An event of an engine that counts for the groups sets off those whose START mask holds the engine (R455). -/
def eventFor (gs : List (Fin 4)) (sel : Fld) (e : Eng) (s : State) : State :=
  if s.on sel && s.on DBG.LOCK.OPEN then gs.foldl (fun t (g : Fin 4) => if t.bit (HG.START.ENG g) e then setOff t g else t) s else s

/-- An event that may set off any group. -/
def engineEvent (sel : Fld) (e : Eng) (s : State) : State := eventFor (List.finRange 4) sel e s

/-- The halt of an engine is carried out (R451): what it records, the reservation, a husk transaction, and the event, which does not set
off the groups that the halt comes from (R455). -/
def haltEngine (e : Eng) (cause : Nat) (s : State) : State :=
  let s := abortHusk e s
  let f := (s.engine e).flow
  let gs := if cause = 1 then (s.engine e).haltBy else []
  let (ds, npc) := match f.xfer with | some (_, a) => (true, a) | none => (false, f.pc + 6)
  let s := s.modEng e (fun x =>
    { x with resv := none, ag := x.dropHeld, haltReq := none, haltBy := [], stepping := false, stalled := false, held := none })
  let s := (s.raiseBit DBG.HALTED.ENG e).raise (DBG.E.STAT.HALTED e)
  let s := (s.put (DBG.E.STAT.CAUSE e) cause).put (DBG.E.STAT.DS e) ds.toNat
  let s := (s.put48 (DBG.E.PC_L.PC e) (DBG.E.PC_H.PC e) f.pc).put48 (DBG.E.NPC_L.NPC e) (DBG.E.NPC_H.NPC e) npc
  eventFor ((List.finRange 4).filter (fun g => !gs.contains g)) (DBG.E.CTRL.EVHALT e) e s

/-- HALT_REQUEST (R450): a write of DBG.HALTREQ. -/
def execHaltRequest (m : BitVec 14) (s : State) : Res := .next ((engMask m.toNat).foldl (requestHalt 0 []) s)

/-- ENGINE_HALT (R451): the engine carries out the halt asked for. An entry in progress completes first, and so does a bundle whose read
has reached the time unit; a loan holds the halt (R312). -/
def execEngineHalt (e : Eng) (s : State) : Res :=
  let x := s.engine e
  match x.haltReq with
  | some cause =>
    if x.retry.isSome then .next (retryEntry e s)
    else if x.undo.isSome || s.pinned e || onLoan s e || s.halted e then .next s
    else .next (haltEngine e cause s)
  | none => .next s

/-- HG_GO (R455): a write of HGg.CTRL.GO; the group acts in the next cycle. -/
def execHgGo (g : Fin 4) (s : State) : Res := .next (if s.on DBG.LOCK.OPEN then setOff s g else s)

/-! ### Resume (R453, R463) -/

/-- A debug hold that ends restarts the ALIVE interval with its full length (R189). -/
def holdEnded (old s : State) : State :=
  let held (t : State) : Bool := t.get DBG.HALTED.ENG != 0 || t.on DBG.WDHOLD.HOLD
  if held old && !held s then { s with alive := true } else s

/-- A halted engine runs again at its PC; its watchdog reloads (R453, R463). A halt request in the same cycle wins. While the block is
locked or erases, nothing is released (R444, R446). -/
def resumeEngine (step : Bool) (s : State) (e : Eng) : State :=
  if s.halted e && (s.engine e).haltReq.isNone && s.on DBG.LOCK.OPEN then
    let s := holdEnded s ((s.lowerBit DBG.HALTED.ENG e).lower (DBG.E.STAT.HALTED e))
    (s.modEng e (fun x => { x with stepping := step })).raise (DBG.E.STAT.TOUCHED e)
  else s

/-- HG_RESUME (R455): a write of HGg.CTRL.RESUME. -/
def execHgResume (g : Fin 4) (s : State) : Res :=
  .next ((engMask (s.get (HG.STOP.ENG g))).foldl (resumeEngine false) s)

/-- DEBUG_RESUME (R453): a write of DBG.RESUME. -/
def execDebugResume (m : BitVec 14) (s : State) : Res := .next ((engMask m.toNat).foldl (resumeEngine false) s)

/-- DEBUG_STEP (R453): a write of DBG.STEP. -/
def execDebugStep (m : BitVec 14) (s : State) : Res := .next ((engMask m.toNat).foldl (resumeEngine true) s)

/-- A write of DBG.Ei.PC_H (R453): on a halted engine PC_H:PC_L becomes its PC, and DS clears. -/
def writeDebugPc (e : Eng) (v : Nat) (s : State) : State :=
  let s := s.put (DBG.E.PC_H.PC e) v
  if s.halted e then
    let pc := s.get48 (DBG.E.PC_L.PC e) (DBG.E.PC_H.PC e)
    (s.modFlow e (fun x => { x with pc := pc, xfer := none })).lower (DBG.E.STAT.DS e)
  else s

/-- DEBUG_PC_WRITE (R453). -/
def execDebugPcWrite (e : Eng) (v : BitVec 16) (s : State) : Res :=
  .next (if s.on DBG.LOCK.OPEN then writeDebugPc e v.toNat s else s)

/-! ### Patch units (R457) -/

/-- The patch unit that matches a bundle address, the lowest of those that do; none while the block is locked (R444). -/
def patchHit (s : State) (e : Eng) (pc : Word) : Option Nat :=
  if s.on DBG.LOCK.OPEN then
    (List.range 16).find? (fun u => s.on (PATCH.CTRL.EN e u) && s.get48 (PATCH.ADDR_L.ADDR e u) (PATCH.CTRL.ADDR e u) == pc)
  else none

/-- The patch units as the next bundle meets them: after a change and before the next control transfer the old ones may
still act, and a free value decides (R254, R457, log entry 2). -/
def patchView (e : Eng) (s : State) : State × State :=
  match (s.engine e).xl.patch with
  | some cells => (if s.freeVal 1 = 1 then { s with cells := cells } else s, s.took)
  | none => (s, s)

/-- The bundle in patch RAM that a unit names. -/
def patchBundle (s : State) (e : Eng) (u : Nat) : Word :=
  let i := s.get (PATCH.CTRL.IDX e u)
  s.get48 (PRAM_L.BUNDLE e i) (PRAM_H.BUNDLE e i)

/-! ### Data watch comparators (R458) -/

/-- Comparator `w` matches an access (R458). -/
def watchMatches (s : State) (e : Eng) (va len : Nat) (store : Bool) (data : Word) (w : Nat) : Bool :=
  let size := min (s.get (WCH.CTRL.SIZE e w)) 24
  let base := (s.get48 (WCH.ADDR_L.ADDR e w) (WCH.ADDR_H.ADDR e w)).toNat / 2 ^ size * 2 ^ size
  let value := s.get48 (WCH.DATA_L.DATA e w) (WCH.DATA_H.DATA e w)
  s.on (WCH.CTRL.EN e w) && (if store then s.on (WCH.CTRL.W e w) else s.on (WCH.CTRL.R e w)) &&
    decide (va < base + 2 ^ size) && decide (base < va + len) &&
    (!s.on (WCH.CTRL.DMATCH e w) || store && decide (value.toNat % 2 ^ (8 * len) = data.toNat % 2 ^ (8 * len)))

/-- The comparators that match an access; none while the block is locked. -/
def watchHits (s : State) (e : Eng) (va len : Nat) (store : Bool) (data : Word) : List Nat :=
  if s.on DBG.LOCK.OPEN then (List.range 4).filter (watchMatches s e va len store data) else []

/-- What the matches of an access do to its bundle: HALT outranks EXC, and EXC outranks TRACE (R458). -/
inductive Watch where
  | go
  | halt
  | exc (w : Nat)
  deriving DecidableEq, Repr

def watchOutcome (s : State) (e : Eng) (hits : List Nat) : Watch :=
  if hits.any (fun w => s.get (WCH.CTRL.ACTION e w) == 1) then .halt
  else match hits.find? (fun w => s.get (WCH.CTRL.ACTION e w) == 2) with
    | some w => .exc w
    | none => .go

/-- The WATCH packets of the matches with ACTION TRACE, in the slot of their access (R458, R461, R462). -/
def watchTrace (e : Eng) (slot : Bool) (hits : List Nat) (va : Nat) (store : Bool) (s : State) : State :=
  hits.foldl (fun t w => if t.get (WCH.CTRL.ACTION e w) = 0 then
    traceEvent false 4 e slot.toNat (w + 4 * store.toNat) (traceWord (BitVec.ofNat 48 va) 0) t else t) s

/-- Matches count as a watch-hit event (R455, R458). -/
def watchEvent (e : Eng) (hits : List Nat) (s : State) : State :=
  if hits.isEmpty then s else engineEvent (DBG.E.CTRL.EVWATCH e) e s

end Sys2Proof.Machine
end

