-- ==== Sys2Proof/Machine/EngPorts.lean ====
section
/-! DEFINITION. The ports of an engine by number: what a move from one returns, what a Req read does, and what a move to an
operand, configuration, trigger or action port does (R231-R254), but for the access ports, EXC.RET and the husk. -/

namespace Sys2Proof.Machine

open Reg

/-! ### Semaphores (R244, R295-R297) -/

/-- Some semaphores as a bit set: bit `i` is semaphore `lo + i`. -/
def semBits (s : State) (lo n : Nat) : Nat := ((List.range n).map (fun i => s.get (SEM.HOLD.HELD (lo + i)) * 2 ^ i)).sum

/-- A take by a requester (R295). -/
def semTake (req k : Nat) (s : State) : Nat × State :=
  if s.on (SEM.HOLD.HELD k) then (0, s) else (1, (s.raise (SEM.HOLD.HELD k)).put (SEM.HOLD.REQ k) req)

/-- A give by a requester (R295). -/
def semGive (req k : Nat) (s : State) : State :=
  if s.on (SEM.HOLD.HELD k) && s.get (SEM.HOLD.REQ k) == req then s.lower (SEM.HOLD.HELD k) else s.count (SEM.HOLD.BADGIVE k)

/-- Semaphore `k` is freed whoever holds it (R297). -/
def semForce (k : Nat) (s : State) : State :=
  if s.on (SEM.HOLD.HELD k) then (s.lower (SEM.HOLD.HELD k)).raise (SEM.HOLD.FORCED k) else s

/-! ### Host doorbells (R247, R342, R344) -/

/-- The crossing timer starts from 0, with XUS as it stands, once both mailboxes of a channel are full (R347). -/
def startCross (c : Nat) (s : State) : State :=
  if s.bit (DB.BB.BITS c) 0 && s.bit (DB.HB.BITS c) 1 then
    { s with chans := s.chans.mapFinIdx (fun i x _ =>
        if i = c ∧ x.crossUs = none then { x with crossUs := some (s.get (MB.CFG.XUS c)) } else x) }
  else s

/-- Host-bound doorbells of a channel are rung; READY is remembered (R342, R367). -/
def ringHost (c m : Nat) (s : State) : State :=
  let s := if m.testBit 0 then s.raise (MB.STAT.READY c) else s
  startCross c (s.put (DB.HB.BITS c) (s.get (DB.HB.BITS c) ||| m))

/-- Block-bound doorbells of a channel are rung. -/
def ringBlock (c m : Nat) (s : State) : State := startCross c (s.put (DB.BB.BITS c) (s.get (DB.BB.BITS c) ||| m))

/-- The level of host interrupt line HIRQ_`l`: the OR of the host-bound bits of channel `l` / 2 that stand, are unmasked and
are routed to it (R343). A domain MGMT that is not in RUN or IDLE drives 0 (R439). -/
def State.hirq (s : State) (l : Nat) : Bool :=
  let c := l / 2
  s.up 0 && (List.range 32).any (fun j =>
    s.bit (DB.HB.BITS c) j && s.bit (DB.HMASK.MASK c) j && decide ((s.bit (DB.HLINE.LINE c) j).toNat = l % 2))

/-- The bits of `v` that `m` does not clear. -/
def clearBits (v m : Nat) : Nat := v - (v &&& m)

/-- A full flag of a channel has fallen: the crossing timer stops, and may fire again once it has restarted (R347). -/
def rearmCross (c : Nat) (s : State) : State :=
  { s with chans := s.chans.mapFinIdx (fun i x _ => if i = c then { x with crossed := false, crossUs := none } else x) }

/-- Block-bound doorbells are cleared; the clear of bit 0 rings TAKEN (R342). -/
def clearBlock (c m : Nat) (s : State) : State :=
  let taken := s.bit (DB.BB.BITS c) 0 && m.testBit 0
  let s := s.put (DB.BB.BITS c) (clearBits (s.get (DB.BB.BITS c)) m)
  if taken then ringHost c 4 (rearmCross c s) else s

/-- Host-bound doorbells are cleared; the clear of bit 1 rings FREED (R342). -/
def clearHost (c m : Nat) (s : State) : State :=
  let freed := s.bit (DB.HB.BITS c) 1 && m.testBit 1
  let s := s.put (DB.HB.BITS c) (clearBits (s.get (DB.HB.BITS c)) m)
  if freed then ringBlock c 2 (rearmCross c s) else s

/-! ### Sequencer queues (R248) -/

/-- The port that SQ.SEL selects. -/
def sqPort (s : State) (e : Eng) : Port := portOf (2 * engCluster e + (s.engine e).msg.sqSel.toNat % 2)

/-- The queue that SQ.SEL selects. -/
def sqQueue (s : State) (e : Eng) : Nat := (s.engine e).msg.sqSel.toNat / 2

/-- A ring pointer in the private area; one that cannot be read is a free value (log entry 75). -/
def ringPtr (s : State) (p : Port) (o : Nat) : Nat := (hwLoad s (privAddr s p o) 4).getD (s.freeVal 4).toNat % 16

/-- A ring pointer advances: a write of its row, which no reservation survives (R229). One that cannot be read stays (R299). -/
def moveRing (p : Port) (o n : Nat) (s : State) : State :=
  let a := privAddr s p o
  let t := hwNote a 4 s
  match hwLoad s a 4 with
  | some v => hwStoreN a 4 ((v + n) % 16) t
  | none => t

/-- The ring pointers that a port shows are read from the private area, with the errors that a read records (R298). -/
def notePort (e : Eng) (p : Nat) (s : State) : State :=
  let q := sqPort s e
  let note (o : Nat) (s : State) : State := hwNote (privAddr s q o) 4 s
  if p = 0x164 then note 0x94 (note 0x90 s) else if p = 0x166 then note 4 (note 0 s) else s

/-- SQ.RXADDR: the address of the slot at RD. -/
def rxAddr (s : State) (p : Port) (q : Nat) : Nat :=
  let slots := s.get (PQ.RX.CFG.SLOTS p q)
  let base := 16 * s.get (PQ.RX.BASE.BASE p q)
  (if slots = 0 then base else base + s.get (PQ.RX.RD.RD p q) % slots * slotBytes s p q) % 2 ^ 19

/-! ### Timers (R250) -/

def tmChan (s : State) (e : Eng) : Fin 8 := Fin.ofNat 8 (s.engine e).msg.tmCsel.toNat
def tmCap (s : State) (e : Eng) : Fin 4 := Fin.ofNat 4 ((s.engine e).msg.tmCsel.toNat / 16)

/-- The timer channel index of TM.ADJ, TM.HI or TM.LO: the port number's low bits. -/
def tmDom (p : Nat) : Fin 4 := Fin.ofNat 4 p

/-! ### What a move from a port returns -/

def b48 (n : Nat) : Word := BitVec.ofNat 48 n

/-- EXC.ID (R243). -/
def excId (e : Eng) : Word := b48 (e.val + 2 ^ 8 * (if isMe e then 15 else engCluster e) + 2 ^ 16 * 3)

/-- Ports of the exception and status unit (R243, R282-R284). -/
def readExc (s : State) (e : Eng) (p : Nat) : Word :=
  let x := (s.engine e).exc
  match p with
  | 0x120 => x.vbar
  | 0x122 => x.sr.word.setWidth 48
  | 0x123 => x.ssr.setWidth 48
  | 0x124 => x.epc
  | 0x125 => x.enpc
  | 0x126 => x.aepc
  | 0x127 => x.cause
  | 0x128 => x.faddr
  | 0x129 => x.sp
  | 0x12A => x.dsp
  | 0x12B => b48 (s.ipend e)
  | 0x12C => x.ien.setWidth 48
  | 0x12D => x.ilvl
  | 0x12E => x.flvl.setWidth 48
  | 0x12F => b48 (x.dz.toNat + 2 * x.ov.toNat + 4 * (s.bit GRIST.PREC.PREC e).toNat)
  | 0x130 => x.sh[0]
  | 0x131 => x.sh[1]
  | 0x132 => x.sh[2]
  | 0x133 => x.sh[3]
  | 0x136 => x.wdper.setWidth 48
  | 0x137 => excId e
  | 0x138 => x.cyc
  | _ => 0

/-- Address-generator ports (R222, R240). -/
def readAg (x : AgSt) (o : Nat) : Word :=
  match o with
  | 0 => x.bank.setWidth 48
  | 1 => x.addr.setWidth 48
  | 2 => x.step.setWidth 48
  | 3 => x.start.setWidth 48
  | 4 => x.len.setWidth 48
  | 5 => x.mode.setWidth 48
  | 0xC => x.ldd
  | 0xD => b48 x.scr.toNat
  | _ => 0

/-- Arithmetic units' ports (R234-R239). -/
def readArith (x : EngSt) (p : Nat) : Word :=
  if p < 0x080 then
    let a := x.alu[(p - 0x40) / 0x20]?.getD default
    match p % 0x20 with
    | 0 => a.a
    | 1 => a.r
    | _ => b48 a.c.toNat
  else match p with
    | 0x080 => x.mul.a
    | 0x086 => x.mul.pl
    | 0x087 => x.mul.ph
    | 0x088 => ((x.mul.ph ++ x.mul.pl).extractLsb' 47 48)
    | 0x090 => x.div.a
    | 0x093 => x.div.q
    | 0x094 => x.div.rem
    | 0x0A0 => x.sh.a
    | 0x0A1 => x.sh.r
    | _ => x.sh.i

/-- Branch, loop and repeat ports (R230, R241). -/
def readFlow (x : FlowSt) (p : Nat) : Word :=
  match p with
  | 0x102 => x.link
  | 0x103 => x.pc
  | 0x104 => x.loopStart
  | 0x105 => x.loopEnd
  | 0x106 => x.loopCnt.setWidth 48
  | _ => x.rptCnt.setWidth 48

/-- Semaphore, doorbell, message, queue, CRC, timer and TLB ports that are Reg or Res sources (R244-R253). -/
def readMsg (s : State) (e : Eng) (p : Nat) : Word :=
  let x := s.engine e
  let m := x.msg
  let q := sqPort s e
  let n := engClu e
  match p with
  | 0x140 => m.semIdx.setWidth 48
  | 0x143 => b48 (semBits s 0 48)
  | 0x144 => b48 (semBits s 48 16)
  | 0x148 => m.edbTgt.setWidth 48
  | 0x14A => m.edb.setWidth 48
  | 0x14C => m.msgTgt.setWidth 48
  | 0x14F => b48 (m.queue.length + 2 ^ 8 * m.sendFail.toNat + 2 ^ 9 * m.ringFail.toNat)
  | 0x150 => m.hdbCh.setWidth 48
  | 0x152 => b48 (s.get (DB.BB.BITS m.hdbCh.toNat))
  | 0x160 => m.sqSel.setWidth 48
  | 0x161 => b48 ((s.get (PQ.RX.WR.WR q (sqQueue s e)) + 2 ^ 16 - s.get (PQ.RX.RD.RD q (sqQueue s e))) % 2 ^ 16)
  | 0x162 => b48 (rxAddr s q (sqQueue s e))
  | 0x164 => b48 ((ringPtr s q 0x94 + 16 - ringPtr s q 0x90) % 16)
  | 0x166 => b48 (15 - (ringPtr s q 4 + 16 - ringPtr s q 0) % 16)
  | 0x170 => m.crcCfg.setWidth 48
  | 0x171 => b48 (crcRead m.crcCfg m.crcState)
  | 0x172 => m.crcXor.setWidth 48
  | 0x173 => b48 (crcOut m.crcCfg m.crcState m.crcXor)
  | 0x18C => (s.clu n).cnt
  | 0x18D => m.tmCsel.setWidth 48
  | 0x18E => (s.clu n).cmp[tmChan s e]
  | 0x18F => b48 (s.get (TMR.CH.PER.PER n (tmChan s e)))
  | 0x191 => b48 (s.get (TMR.CAP.CAP_H.SEQ n (tmCap s e)) + 2 ^ 4 * s.get (TMR.CAP.CAP_H.FULL n (tmCap s e)))
  | 0x1A0 => x.xl.missVa
  | 0x1A1 => x.xl.missInf
  | _ => 0

/-- The value of a Reg or Res source (R232). -/
def State.readPort (s : State) (e : Eng) (p : Nat) : Word :=
  let x := s.engine e
  if p < 0x040 then x.g[p]?.getD 0
  else if p < 0x0C0 then readArith x p
  else if p < 0x100 then readAg (x.ag[(p - 0x0C0) / 0x10]?.getD default) (p % 0x10)
  else if p < 0x120 then readFlow x.flow p
  else if p < 0x140 then readExc s e p
  else readMsg s e p

/-- A Req read: the value it returns, and what it does to its unit (R244, R245, R250, R253). -/
def reqAct (e : Eng) (p : Nat) (s : State) : Word × State :=
  if p = 0x141 then
    let (v, s) := semTake e (s.engine e).msg.semIdx.toNat s
    (b48 v, s)
  else if p = 0x14E then
    match (s.engine e).msg.queue with
    | v :: t => (v, s.modMsg e (fun m => { m with queue := t }))
    | [] => (0, s)
  else if 0x180 ≤ p ∧ p ≤ 0x183 then ((s.dom (tmDom p)).hi, s)
  else if 0x184 ≤ p ∧ p ≤ 0x187 then ((s.dom (tmDom p)).lo, s)
  else if 0x188 ≤ p ∧ p ≤ 0x18B then ((s.dom (tmDom p)).adj, s)
  else if p = 0x190 then
    let n := engClu e
    let i := tmCap s e
    (s.get48 (TMR.CAP.CAP_L.VAL n i) (TMR.CAP.CAP_H.VAL n i), s.lower (TMR.CAP.CAP_H.FULL n i))
  else if 0x1A2 ≤ p ∧ p ≤ 0x1A4 then tlbWrite e (p - 0x1A2) s
  else if p = 0x1A5 then probeRead e s
  else if 0x1A6 ≤ p ∧ p ≤ 0x1A9 then tlbInvalidate e (decide (0x1A8 ≤ p)) (decide (p % 2 = 1)) s
  else (0, s)

/-- The quiet read of a Req port on a halted engine (R454). -/
def reqQuiet (s : State) (e : Eng) (p : Nat) : Word := if 0x1A2 ≤ p ∧ p ≤ 0x1A9 then 0 else (reqAct e p s).1

/-! ### Moves to operand and configuration ports (R202, step 2) -/

def writeAg (o : Nat) (v : Word) (x : AgSt) : AgSt :=
  match o with
  | 0 => { x with bank := v.setWidth 24 }
  | 1 => { x with addr := v.setWidth 24 }
  | 2 => { x with step := v.setWidth 24 }
  | 3 => { x with start := v.setWidth 24 }
  | 4 => { x with len := v.setWidth 24 }
  | 5 => { x with mode := v.setWidth 5 }
  | _ => x

def writeArith (p : Nat) (v : Word) (x : EngSt) : EngSt :=
  if p < 0x080 then
    { x with alu := x.alu.mapFinIdx (fun i a _ =>
        if i = (p - 0x40) / 0x20 then
          match p % 0x20 with
          | 0 => { a with a := v }
          | 2 => { a with c := v.getLsbD 0 }
          | _ => a
        else a) }
  else match p with
    | 0x080 => { x with mul := { x.mul with a := v } }
    | 0x086 => { x with mul := { x.mul with pl := v } }
    | 0x087 => { x with mul := { x.mul with ph := v } }
    | 0x090 => { x with div := { x.div with a := v } }
    | 0x0A0 => { x with sh := { x.sh with a := v } }
    | 0x0A2 => { x with sh := { x.sh with i := v } }
    | _ => x

/-- A move to LOOP.CNT sets or clears the loop-active bit (R215). -/
def writeLoopCnt (v : Word) (x : EngSt) : EngSt :=
  let c : BitVec 32 := v.setWidth 32
  { x with flow := { x.flow with loopCnt := c }, exc := { x.exc with sr := { x.exc.sr with la := decide (c ≠ 0) } } }

def writeFlowReg (p : Nat) (v : Word) (x : EngSt) : EngSt :=
  match p with
  | 0x102 => { x with flow := { x.flow with link := v } }
  | 0x104 => { x with flow := { x.flow with loopStart := v } }
  | 0x105 => { x with flow := { x.flow with loopEnd := v } }
  | 0x106 => writeLoopCnt v x
  | 0x107 => { x with flow := { x.flow with rptCnt := v.setWidth 16 } }
  | _ => x

/-- A write of EXC.SR changes MASK; every other field is read-only (R264, R282). -/
def writeSr (v : Word) (x : ExcSt) : ExcSt := ({ x with sr := { x.sr with mask := v.setWidth 3 } } : ExcSt).freeHolds

def writeExcReg (p : Nat) (v : Word) (x : ExcSt) : ExcSt :=
  match p with
  | 0x120 => { x with vbar := (v >>> 9) <<< 9 }
  | 0x122 => writeSr v x
  | 0x123 => { x with ssr := v.setWidth 8 }
  | 0x124 => { x with epc := v }
  | 0x125 => { x with enpc := v }
  | 0x129 => { x with sp := v }
  | 0x12A => { x with dsp := v }
  | 0x12C => { x with ien := v.setWidth 16 }
  | 0x12D => { x with ilvl := v }
  | 0x12E => { x with flvl := v.setWidth 33 }
  | 0x12F => { x with dz := v.getLsbD 0, ov := v.getLsbD 1 }
  | 0x136 => { x with wdper := v.setWidth 32 }
  | _ => x

/-- A target index of 14 or 15 leaves the field unchanged (R245). -/
def newTarget (old : BitVec 4) (v : Word) : BitVec 4 := let t : BitVec 4 := v.setWidth 4; if t.toNat < 14 then t else old

def writeMsgReg (p : Nat) (v : Word) (m : MsgSt) : MsgSt :=
  match p with
  | 0x140 => { m with semIdx := v.setWidth 6 }
  | 0x148 => { m with edbTgt := newTarget m.edbTgt v }
  | 0x14C => { m with msgTgt := newTarget m.msgTgt v }
  | 0x150 => { m with hdbCh := v.setWidth 2 }
  | 0x160 => { m with sqSel := v.setWidth 3 }
  | 0x170 => { m with crcCfg := v.setWidth 5, crcState := BitVec.ofNat 32 (crcRead (v.setWidth 5) m.crcState) }
  | 0x171 => { m with crcState := BitVec.ofNat 32 (crcRead m.crcCfg (v.setWidth 32)) }
  | 0x172 => { m with crcXor := v.setWidth 32 }
  | 0x18D => { m with tmCsel := BitVec.ofNat 6 (bits v.toNat 0 3 + 16 * bits v.toNat 4 2) }
  | _ => m

/-- A move to a port of kind Reg; a move to any other port changes nothing here (R202, step 2). -/
def writeReg (e : Eng) (p : Nat) (v : Word) (s : State) : State :=
  if p < 0x040 then s.modEng e (fun x => { x with g := x.g.setIfInBounds p v })
  else if p < 0x0C0 then s.modEng e (writeArith p v)
  else if p < 0x100 then s.modAg e (Fin.ofNat 4 ((p - 0x0C0) / 0x10)) (writeAg (p % 0x10) v)
  else if p < 0x120 then s.modEng e (writeFlowReg p v)
  else if p < 0x140 then
    let s := s.modExc e (writeExcReg p v)
    if p = 0x12F then s.putBit GRIST.PREC.PREC e (v.getLsbD 2) else s
  else if p = 0x18F then s.put (TMR.CH.PER.PER (engClu e) (tmChan s e)) (v.toNat % 2 ^ 32)
  else s.modMsg e (writeMsgReg p v)

/-! ### Triggers and actions (R202, step 3) -/


/-- The ALU operations by port offset from +0x04 (R234). -/
def aluFns : List AluFn :=
  [.add, .addc, .sub, .subc, .rsub, .and, .or, .xor, .andn, .min, .max, .minu, .maxu, .abs, .neg, .seq, .slt, .sltu, .adds,
   .subs, .pass]

/-- The multiplier's triggers from 0x081 (R236). -/
def mulFns : List MulFn := [.muls, .mulu, .mulsu, .mac, .msu]

/-- The shifter's triggers from 0x0A4 (R239). -/
def shFns : List ShFn :=
  [.shl, .shr, .sar, .rol, .ror, .extu, .exts, .ins, .clz, .ctz, .popc, .brev, .bswap, .bswap4, .bswap2]

/-- An ALU trigger in a slot (R234, R235). -/
def aluTrig (e : Eng) (u : Fin 2) (fn : AluFn) (slot : Bool) (b : Word) (s : State) : State :=
  let x := s.engine e
  let a := x.alu[u]
  let r := aluOp fn a.a b a.c
  let s := s.setEng e { x with alu := x.alu.set u { a with r := r.r, c := r.c.getD a.c } }
  if fn.arith && r.ov && x.exc.ov then reportArith e 10 x.flow.pc slot x.seqn s else s

/-- A multiplier trigger in a slot (R236). -/
def mulTrig (e : Eng) (fn : MulFn) (slot : Bool) (b : Word) (s : State) : State :=
  let imp := !s.bit GRIST.PREC.PREC e
  s.modEng e (fun x => { x with
    mul := { x.mul with flight := x.mul.flight ++ [⟨fn, x.mul.a, b, x.flow.pc, slot, x.seqn, imp⟩] } })

/-- The vector that a divide reports, where its detection is enabled (R238, R276). -/
def divReport (x : ExcSt) (signed : Bool) (a b : Word) : Option Nat :=
  if b = 0 then (if x.dz then some 9 else none) else if divOverflows signed a b && x.ov then some 10 else none

/-- A divider trigger in a slot (R238). -/
def divTrig (e : Eng) (signed slot : Bool) (b : Word) (s : State) : State :=
  let x := s.engine e
  let a := x.div.a
  let s := s.setEng e { x with div := { x.div with flight := some (divide signed a b) } }
  match divReport x.exc signed a b with
  | some v => reportArith e v x.flow.pc slot x.seqn s
  | none => s

/-- A shifter trigger (R239). -/
def shTrig (e : Eng) (fn : ShFn) (b : Word) (s : State) : State :=
  s.modEng e (fun x => { x with sh := { x.sh with r := shOp fn x.sh.a b x.sh.i } })

/-- Bytes of a value enter the CRC (R249). -/
def crcTrig (e : Eng) (n : Nat) (v : Word) (s : State) : State :=
  s.modMsg e (fun m => { m with crcState := BitVec.ofNat 32 (crcFeed m.crcCfg m.crcState.toNat (bytesLE n v.toNat)) })

/-- IC.INV and IC.INVALL (R242). -/
def icInv (e : Eng) (v : Word) (s : State) : State := (keepAhead e s).modXl e (fun x => { x with lines := eraseAt (v.toNat / 64) x.lines })
def icInvAll (e : Eng) (s : State) : State := (keepAhead e s).modXl e (fun x => { x with lines := [] })

/-- A control transfer to an address, after one delay bundle (R212). -/
def setTransfer (e : Eng) (taken : Bool) (a : Word) (s : State) : State := s.modFlow e (fun f => { f with xfer := some (taken, a) })

/-- BR.CALL writes the link (R212). -/
def callTo (e : Eng) (a : Word) (s : State) : State :=
  setTransfer e true a (s.modFlow e (fun f => { f with link := f.pc + 12 }))

/-- EXC.SWI: a bit both set and cleared ends set (R267). -/
def swiAct (e : Eng) (v : Word) (s : State) : State :=
  s.modExc e (fun x => { x with swi := (x.swi &&& ~~~ (v.extractLsb' 8 2)) ||| v.extractLsb' 0 2 })

/-- EXC.WDKICK (R280). -/
def kick (e : Eng) (s : State) : State := s.modExc e (fun x => { x with wdOnce := false })

/-- A SEND or RING leaves its engine (R246). -/
def post (e : Eng) (ring : Bool) (v : Word) (s : State) : State :=
  let m := (s.engine e).msg
  { s with parcels := s.parcels ++ [⟨e, if ring then m.edbTgt.toNat else m.msgTgt.toNat, ring, v⟩] }

/-- EDB.CLR (R245). -/
def edbClr (e : Eng) (v : Word) (s : State) : State := s.modMsg e (fun m => { m with edb := m.edb &&& ~~~ (v.setWidth 32) })

/-- SQ.RXPOP, SQ.EVPOP, SQ.CMDPUSH (R248). -/
def rxPop (e : Eng) (v : Word) (s : State) : State :=
  let f := PQ.RX.RD.RD (sqPort s e) (sqQueue s e)
  s.put f ((s.get f + v.toNat % 2 ^ 16) % 2 ^ 16)
def evPop (e : Eng) (v : Word) (s : State) : State := moveRing (sqPort s e) 0x90 (v.toNat % 16) s
def cmdPush (e : Eng) (s : State) : State := moveRing (sqPort s e) 4 1 s

/-- TRC.NOTEt (R252, R462). -/
def note (e : Eng) (slot : Bool) (t : Nat) (v : Word) (s : State) : State :=
  if s.bit (TRC.E.NOTEEN.NOTE e) t then traceEvent true 2 e slot.toNat t (traceWord v 0) s else s

/-- A move in a slot to a Trig or Act port, but for the access ports, EXC.RET and the husk (R202, step 3). -/
def trigger (e : Eng) (slot : Bool) (p : Nat) (v : Word) (s : State) : State :=
  if p < 0x080 then
    match aluFns[p % 0x20 - 4]? with
    | some fn => if p < 0x040 ∨ p % 0x20 < 4 then s else aluTrig e (Fin.ofNat 2 ((p - 0x040) / 0x20)) fn slot v s
    | none => s
  else if p < 0x090 then (match mulFns[p - 0x081]? with | some fn => if p = 0x080 then s else mulTrig e fn slot v s | none => s)
  else if p = 0x091 ∨ p = 0x092 then divTrig e (decide (p = 0x091)) slot v s
  else if 0x0A4 ≤ p ∧ p < 0x0C0 then (match shFns[p - 0x0A4]? with | some fn => shTrig e fn v s | none => s)
  else if 0x1A0 ≤ p ∧ p < 0x1C0 then note e slot (p - 0x1A0) v s
  else if 0x188 ≤ p ∧ p ≤ 0x18B then setAdj (tmDom p) v s
  else match p with
    | 0x100 => setTransfer e true v s
    | 0x101 => callTo e v s
    | 0x108 => icInv e v s
    | 0x109 => icInvAll e s
    | 0x134 => swiAct e v s
    | 0x135 => kick e s
    | 0x142 => semGive e (v.toNat % 64) s
    | 0x149 => post e true v s
    | 0x14B => edbClr e v s
    | 0x14D => post e false v s
    | 0x151 => ringHost (s.engine e).msg.hdbCh.toNat (v.toNat % 2 ^ 32) s
    | 0x153 => clearBlock (s.engine e).msg.hdbCh.toNat (v.toNat % 2 ^ 32) s
    | 0x163 => rxPop e v s
    | 0x165 => evPop e v s
    | 0x167 => cmdPush e s
    | 0x174 => crcTrig e 1 v s
    | 0x175 => crcTrig e 2 v s
    | 0x176 => crcTrig e 4 v s
    | 0x177 => crcTrig e 6 v s
    | 0x18E => armCompare (engClu e) (tmChan s e) v s
    | _ => s

end Sys2Proof.Machine
end

