-- ==== Sys2Proof/Machine/Bundles.lean ====
section
/-! DEFINITION. How an engine issues and retires a bundle: fetch and patch, the checks in their order, the moves, the loop
and repeat units (R194-R229), and the husk transactions within it (R256-R259). -/

namespace Sys2Proof.Machine

open Reg

/-! ### Moves and sources (R198-R206) -/

/-- What a source field selects (R199). -/
inductive Src where
  | port (p : Nat)
  | imm (v : Word)
  deriving DecidableEq, Repr

/-- One move: destination, source, width modifier, and whether it stands in slot 1. -/
structure Move where
  dst : Nat
  src : Src
  width : Nat
  slot : Bool
  deriving DecidableEq, Repr

/-- The value that a source field selects (R199). -/
def fieldSrc (f : BitVec 10) : Src :=
  if f.toNat < 0x200 then .port f.toNat else .imm ((f.extractLsb' 0 9).signExtend 48)

/-- The move of a slot; a null move is none (R203). -/
def Slot.move (x : Slot) (one : Bool) : List Move :=
  if x.null then [] else [⟨x.dst.toNat, fieldSrc x.src, x.width.toNat, one⟩]

/-- The moves of a bundle (R198, R205). -/
def Bundle.moves : Bundle → List Move
  | .dual s0 s1 => s0.move false ++ s1.move true
  | .long dst imm => [⟨dst.toNat, .imm (imm.signExtend 48), 0, false⟩]
  | _ => []

/-- The sources that a bundle reads, slot 0 or source A first. -/
def Bundle.sources : Bundle → List Src
  | .branch _ a b _ => [fieldSrc a, fieldSrc b]
  | b => b.moves.map (·.src)

/-- A source is a husk port. -/
def Src.husk : Src → Option Nat
  | .port p => if 0x1C0 ≤ p then some p else none
  | .imm _ => none

/-- The condition of a compare-and-branch (R206). -/
def branchTaken (c : Nat) (a b : Word) : Bool :=
  let n := b.toNat % 64
  match c with
  | 0 => a == b
  | 1 => a != b
  | 2 => decide (a.toInt < b.toInt)
  | 3 => decide (b.toInt ≤ a.toInt)
  | 4 => decide (a.toNat < b.toNat)
  | 5 => decide (b.toNat ≤ a.toNat)
  | 6 => a &&& b == b
  | 7 => a &&& b != 0
  | 8 => a &&& b == 0
  | 9 => decide (n < 48) && a.getLsbD n
  | 10 => decide (48 ≤ n) || !a.getLsbD n
  | _ => true

/-! ### Checks before a bundle may act (R203-R209) -/

/-- A source names a port that this engine cannot read. -/
def Src.bad (s : State) (e : Eng) : Src → Bool
  | .port p => !canRead s e p
  | .imm _ => false

/-- The first illegal move of a bundle, by its slot (R204, R209). -/
def badMove (s : State) (e : Eng) (b : Bundle) : Option Bool :=
  match b with
  | .branch _ x y _ => if (fieldSrc x).bad s e then some false else if (fieldSrc y).bad s e then some true else none
  | _ => (b.moves.find? (fun m => !canWrite s e m.dst || m.src.bad s e)).map (·.slot)

/-- A read of an interlocked result that is not ready (R210, R225). -/
def srcStalls (x : EngSt) : Src → Bool
  | .port p =>
    if p = 0x093 ∨ p = 0x094 then x.div.flight.isSome
    else if 0x0C0 ≤ p ∧ p < 0x100 then
      match (x.ag[(p - 0x0C0) / 0x10]?.getD default).flight with
      | some f => if p % 0x10 = 0xC then f.kind ≠ 2 else p % 0x10 = 0xD && f.kind = 2
      | none => false
    else false
  | .imm _ => false

/-- The target of a posted store lies on the block. -/
def Access.block (a : Access) : Option Nat := if isExternal a.pa then none else some (realAddr (a.pa - blockSpace))

/-- A posted store goes to the engine's own cluster memory (R248). -/
def toOwnCluster (e : Eng) (a : Access) : Bool :=
  match a.block with
  | some b => inClu b && decide ((b - 0x400000) / 0x80000 = engCluster e)
  | none => false

/-- A posted store goes to a B2H mailbox (R344). -/
def toB2h (a : Access) : Bool :=
  match a.block with
  | some b => decide (0x10000 ≤ b ∧ b < 0x20000) && decide (0x400 ≤ b % 0x4000 ∧ b % 0x4000 < 0x800)
  | none => false

/-- A trigger of a unit that cannot accept it yet (R210, R223, R225, R248, R344). -/
def dstStalls (e : Eng) (x : EngSt) (p : Nat) : Bool :=
  if p = 0x091 ∨ p = 0x092 then x.div.flight.isSome
  else if 0x0C0 ≤ p ∧ p < 0x100 ∧ 6 ≤ p % 0x10 then
    (x.ag[(p - 0x0C0) / 0x10]?.getD default).flight.isSome || p % 0x10 == 0xB && !x.posted.isEmpty
  else if p = 0x167 then x.posted.any (toOwnCluster e)
  else if p = 0x151 then x.posted.any toB2h
  else false

/-- The bundle stalls on an interlock or a busy unit (R196). -/
def bundleStalls (s : State) (e : Eng) (b : Bundle) : Bool :=
  b.sources.any (srcStalls (s.engine e)) || b.moves.any (fun m => dstStalls e (s.engine e) m.dst)

/-! ### Values (R200-R202, R232) -/

/-- The value of a source: a latched one, a Reg as it stood at the start, a Req by its act, a husk port by its answer. -/
def takeSrc (e : Eng) (start : State) (hv : Word) (x : Src) (latched : Option Word) (s : State) : Word × State :=
  match x with
  | .imm v => (v, s)
  | .port p =>
    match latched with
    | some v => (v, s)
    | none =>
      if 0x1C0 ≤ p then (hv, s)
      else if within p 0x180 0x18B then (((start.engine e).held.bind (·.2)).getD (reqAct e p start).1, s)
      else if (srcUnit p).isSome then reqAct e p s
      else (start.readPort e p, notePort e p s)

/-- The values of the sources in order. -/
def gather (e : Eng) (start : State) (hv : Word) : List Src → List (Option Word) → State → List Word × State
  | [], _, s => ([], s)
  | x :: t, ls, s =>
    let (v, s) := takeSrc e start hv x (ls.headD none) s
    let (vs, s) := gather e start hv t ls.tail s
    (v :: vs, s)

/-- The value that reaches a destination (R200, R223). -/
def Move.value (m : Move) (v : Word) : Word := if sizedPort m.dst then v else widen m.width v

/-- The moves of a bundle with the values that reach their destinations. -/
def movesWith (b : Bundle) (vals : List Word) : List (Move × Word) := (b.moves.zip vals).map (fun x => (x.1, x.1.value x.2))

/-- The ports that select what another operand port names: CRC.CFG the width of CRC.STATE, TM.CSEL the channel of TM.PER. -/
def selects (m : Move × Word) : Bool := m.1.dst == 0x170 || m.1.dst == 0x18D

/-- The moves to operand and configuration ports take effect (R202, step 2). The slots have no order: a move to a port that a
selector of the same bundle decides is made under the new selection (log entry 41). -/
def doWrites (e : Eng) (ms : List (Move × Word)) (s : State) : State :=
  (ms.filter selects ++ ms.filter (fun m => !selects m)).foldl (fun t m => writeReg e m.1.dst m.2 t) s

/-! ### Data accesses (R222-R228) -/

/-- An access that a bundle triggers: its port offset, its slot and the access, translated or not. -/
structure Plan where
  op : Nat
  slot : Bool
  acc : Access
  deriving DecidableEq, Repr

/-- The access writes: ST and SC. -/
def Plan.writes (p : Plan) : Bool := p.op == 8 || p.op == 0xA

/-- The access of generator `n` at port offset `op` with the value moved and the width modifier (R223). -/
def planAccess (x : EngSt) (n op : Nat) (v : Word) (width : Nat) (slot : Bool) : Plan :=
  let a := x.ag[n]?.getD default
  let short : BitVec 24 := if op = 7 then a.addr + v.setWidth 24 else a.addr
  { op := op, slot := slot
    acc := { seqn := 0, va := a.bank ++ short, pa := 0, own := false, len := laneBytes width, width := width, data := v
             kind := if op = 9 then 1 else if op = 0xA then 2 else 0, ag := n, pc := x.flow.pc, slot := slot } }

/-- The accesses of a bundle, from the registers as its own moves leave them (R202, R226). -/
def plans (x : EngSt) (ms : List (Move × Word)) : List Plan :=
  ms.filterMap (fun m => if sizedPort m.1.dst then
    some (planAccess x ((m.1.dst - 0x0C0) / 0x10) (m.1.dst % 0x10) m.2 m.1.width m.1.slot) else none)

/-- What the checks of an access give. -/
inductive Checked where
  | ok (ps : List Plan)
  | fault (p : Plan) (vec : Nat) (inf : Option Nat)
  | wait
  deriving DecidableEq, Repr

/-- Alignment, then translation and ownership, of the accesses in slot order (R209, R224, R324). -/
def checkPlans (e : Eng) : List Plan → State → Checked × State
  | [], s => (.ok [], s)
  | p :: t, s =>
    let va := p.acc.va.toNat
    if va / 16 ≠ (va + p.acc.len - 1) / 16 then (.fault p 4 none, s)
    else
      match translate e va (if p.writes then .write else .read) s with
      | (.fault inf, s) => (.fault p (missVector inf) (some inf), s)
      | (.busy, s) => (.wait, s)
      | (.ok pa own, s) =>
        let (r, s) := checkPlans e t s
        match r with
        | .ok ps => (.ok ({ p with acc := { p.acc with pa := pa, own := own } } :: ps), s)
        | r => (r, s)

/-- The event of a faulting access (R283). -/
def planEvent (s : State) (e : Eng) (p : Plan) (vec : Nat) : Event :=
  { preciseEvent s e vec with slot := p.slot, store := p.writes, ag := p.acc.ag, faddr := p.acc.va }

/-- The row of a block address. -/
def rowOf (pa : Nat) : Nat := (pa - blockSpace) / 16

/-- An LR sets the reservation: in a cluster memory, the granary or the engine's own scratchpad, in its window or through block
space (R227, R290). -/
def reservable (e : Eng) (a : Access) : Bool :=
  !isExternal a.pa && (a.own || inClu (a.pa - blockSpace) || inGran (a.pa - blockSpace) ||
    decide (placeOf (a.pa - blockSpace) = .spad e))

/-- A store goes to the row that the engine holds reserved, directly or through an alias (R228, R229). -/
def writesReserved (x : EngSt) (a : Access) : Bool :=
  match a.block with
  | some b => x.resv == some (b / 16)
  | none => false

/-- The bytes that a store leaves at its address. -/
def Access.bytes (a : Access) : List Byte := bytesLE a.len a.data.toNat

/-- An SC issues under a reservation on its row (R228). -/
def holdsRow (x : EngSt) (a : Access) : Bool := !isExternal a.pa && x.resv == some (rowOf a.pa)

/-- An access starts: loads, LR and SC are in flight, a store is posted; LD and ST post-update ADDR (R223-R228). An SC takes the
reservation with it: an LR that issues before it has arrived makes a new one. -/
def startAccess (e : Eng) (p : Plan) (s : State) : State :=
  let x := s.engine e
  let n : Fin 4 := Fin.ofNat 4 p.acc.ag
  let a := { p.acc with seqn := x.seqn }
  let g := x.ag[n]
  let g := if p.op = 6 ∨ p.op = 8 then { g with addr := postUpdate g } else g
  let x := { x with seqn := x.seqn + 1 }
  let s :=
    if p.op = 8 then
      s.setEng e { x with ag := x.ag.set n g, posted := x.posted ++ [a], resv := if writesReserved x a then none else x.resv }
    else
      s.setEng e { x with
        ag := x.ag.set n { g with flight := some { a with held := p.op == 0xA && holdsRow x a } }
        resv := if p.op = 0xA then none else if p.op = 9 ∧ reservable e a then some (rowOf a.pa) else x.resv }
  if isExternal a.pa && p.op != 0xA then
    s.emit (.master e true (p.op == 8) a.pa a.len (isDevice s a.pa) (if p.op = 8 then a.bytes else []))
  else s

/-! ### Watch comparators over the accesses of a bundle (R458) -/

/-- The matches of an access. -/
def planHits (s : State) (e : Eng) (p : Plan) : List Nat := watchHits s e p.acc.va.toNat p.acc.len p.writes p.acc.data

/-- The events and TRACE packets of the accesses of a bundle. -/
def watchAll (e : Eng) (ps : List Plan) (s : State) : State :=
  ps.foldl (fun t p =>
    let h := planHits s e p
    watchEvent e h (watchTrace e p.slot h p.acc.va.toNat p.writes t)) s

/-- What the matches do to the bundle. -/
def watchVerdict (s : State) (e : Eng) (ps : List Plan) : Watch := watchOutcome s e (ps.flatMap (planHits s e))

/-- The event of a watch exception: that of the access that comparator `w` matches (R283, R458). -/
def watchFault (s : State) (e : Eng) (ps : List Plan) (w : Nat) : Event :=
  match ps.find? (fun p => (planHits s e p).contains w) with
  | some p => planEvent s e p 13
  | none => preciseEvent s e 13

/-! ### Precise arithmetic (R276) -/

/-- The vector that an arithmetic trigger would raise, on the engine as the bundle's writes leave it. -/
def raises (x : EngSt) (p : Nat) (v : Word) : Option Nat :=
  if 0x040 ≤ p ∧ p < 0x080 ∧ 4 ≤ p % 0x20 then
    match aluFns[p % 0x20 - 4]?, x.alu[(p - 0x040) / 0x20]? with
    | some fn, some a => if fn.arith && x.exc.ov && (aluOp fn a.a v a.c).ov then some 10 else none
    | _, _ => none
  else if 0x081 ≤ p ∧ p ≤ 0x085 then
    match mulFns[p - 0x081]? with
    | some fn =>
      let pair := x.mul.flight.foldl (fun q m => (mulDone m q).1) (x.mul.ph ++ x.mul.pl)
      if x.exc.ov && (mulDone ⟨fn, x.mul.a, v, 0, false, 0, false⟩ pair).2 then some 10 else none
    | none => none
  else if p = 0x091 ∨ p = 0x092 then divReport x.exc (decide (p = 0x091)) x.div.a v
  else none

/-- The first trigger of a bundle that raises under PREC, with its vector and slot; the state is the one that the bundle's writes
leave (R202, R276). -/
def preciseRaise (s : State) (e : Eng) (ms : List (Move × Word)) : Option (Nat × Bool) :=
  if s.bit GRIST.PREC.PREC e then ms.findSome? (fun m => (raises (s.engine e) m.1.dst m.2).map (fun v => (v, m.1.slot)))
  else none

/-! ### Retirement: the loop and repeat units (R212-R221) -/

/-- What a retiring bundle did to the sequence. -/
structure Seqd where
  /-- RPT.CNT before the bundle. -/
  rpt : BitVec 16
  wroteRpt : Bool
  wroteCnt : Bool
  transfer : Bool
  deriving DecidableEq, Repr

/-- The iterations left after the current one (R217, R219). -/
def rptLeft (f : FlowSt) (rint : Bool) (q : Seqd) : BitVec 16 :=
  let left := q.rpt - 1
  if q.wroteRpt then (if rint then f.rptCnt else if f.rptCnt.toNat ≤ left.toNat then f.rptCnt else left) else left

/-- The next PC after a bundle that ends its repeat, or that is not repeated: the loop check, a transfer in progress, or the
bundle that follows (R212, R216). -/
def nextPc (e : Eng) (q : Seqd) (s : State) : State :=
  let x := s.engine e
  let f := x.flow
  let taken := match f.xfer with | some (t, _) => t | none => false
  if x.exc.sr.la && f.pc == f.loopEnd && !taken && !q.transfer then
    let left := if q.wroteCnt then f.loopCnt else f.loopCnt - 1
    let next := if left = 0 then f.pc + 6 else f.loopStart
    let s := s.setEng e { x with
      flow := { f with pc := next, xfer := none, loopCnt := left }
      exc := { x.exc with sr := { x.exc.sr with la := decide (left ≠ 0) } } }
    if f.xfer.isSome then dropAhead e s else s
  else if q.transfer then s.modFlow e (fun f => { f with pc := f.pc + 6 })
  else
    match f.xfer with
    | some (t, a) =>
      let s := dropAhead e (s.modFlow e (fun f => { f with pc := a, xfer := none }))
      if t then traceFlow e 0 a 0 s else s
    | none => s.modFlow e (fun f => { f with pc := f.pc + 6 })

/-- A bundle retires. -/
def retire (e : Eng) (q : Seqd) (s : State) : State :=
  let s := s.modEng e (fun x => { x with stalled := false, held := none, husk := none, fresh := false })
  let x := s.engine e
  if x.exc.sr.ra then
    let left := rptLeft x.flow x.exc.sr.rint q
    let s := s.modFlow e (fun f => { f with rptCnt := left })
    if left = 0 then nextPc e q (s.modExc e (fun y => { y with sr := { y.sr with ra := false, rint := false } }))
    else s
  else nextPc e q s

/-- A single step is over once the bundle has retired or its fault has been entered. While the entry waits, a halt before the handler's
first bundle is asked for (R451, R453). -/
def afterStep (e : Eng) (s : State) : State :=
  let x := s.engine e
  if !x.stepping || x.husk.isSome || x.stalled then s
  else if x.retry.isNone && x.undo.isNone then haltEngine e 4 s
  else s.modEng e (fun x => if x.haltReq.isSome then { x with stepping := false } else { x with stepping := false, haltReq := some 4 })

/-- The time-unit port that a bundle reads (R250). -/
def Bundle.timePort (b : Bundle) : Option Nat :=
  b.sources.findSome? (fun x => match x with | .port p => if within p 0x180 0x18B then some p else none | .imm _ => none)

/-- What a bundle that issues and stalls keeps: its bits, and the value of the time unit in the cycle of its issue (R251). -/
def holdBundle (s : State) (e : Eng) (v : Word) : Word × Option Word :=
  match (s.engine e).held with
  | some h => h
  | none => (v, (decodeBundle v).timePort.map (fun p => (reqAct e p s).1))

/-- The bundle has issued and stalls (R196). -/
def stallOn (e : Eng) (v : Option Word) (s : State) : State :=
  s.modEng e (fun x => { x with stalled := true, held := v.map (holdBundle s e) })

/-- A precise fault of the next bundle is taken. -/
def faultOut (e : Eng) (ev : Event) (s : State) : State :=
  afterStep e (takeFault e ev (s.modEng e (fun x => { x with stalled := false, held := none, husk := none })))

/-! ### The moves of a bundle (R202) -/

/-- One trigger or action of a bundle. -/
def doTrigger (e : Eng) (ps : List Plan) (m : Move × Word) (s : State) : State :=
  if sizedPort m.1.dst then
    match ps.find? (fun p => p.slot == m.1.slot) with
    | some p => startAccess e p s
    | none => s
  else trigger e m.1.slot m.1.dst m.2 s

/-- The triggers of a bundle: an SC meets the reservation as it stood before the bundle, whatever the other slot does (R202, R228;
log entry 41). -/
def triggerOrder (ms : List (Move × Word)) : List (Move × Word) :=
  let sc (m : Move × Word) : Bool := within m.1.dst 0x0C0 0x0FF && m.1.dst % 0x10 == 0xA
  ms.filter sc ++ ms.filter (fun m => !sc m)

/-- The bundle returns from an exception. -/
def Bundle.returns (b : Bundle) : Bool := b.moves.any (fun m => m.dst == 0x121)

/-- The move to EXC.RET stands in slot 1 (R283). -/
def Bundle.returnSlot (b : Bundle) : Bool := b.moves.any (fun m => m.dst == 0x121 && m.slot)

/-- All moves take effect and the bundle retires (R202, R275). -/
def commit (e : Eng) (b : Bundle) (latched : List (Option Word)) (hv : Word) (ps : List Plan) (words : List Word) (s : State) :
    State :=
  let rpt := (s.engine e).flow.rptCnt
  let (vals, s) := gather e s hv b.sources latched s
  let ms := movesWith b vals
  let s := (triggerOrder ms).foldl (fun t m => doTrigger e ps m t) (doWrites e ms s)
  let s :=
    match b with
    | .branch c _ _ d =>
      let t := branchTaken c.toNat (vals.getD 0 0) (vals.getD 1 0)
      let pc := s.pc e
      setTransfer e t (if t then pc + 6 * d.signExtend 48 else pc + 12) s
    | _ => s
  afterStep e (if b.returns then restore e words (!(s.engine e).exc.sr.df) s
    else
      retire e { rpt := rpt, wroteRpt := b.moves.any (fun m => m.dst == 0x107)
                 wroteCnt := b.moves.any (fun m => m.dst == 0x106), transfer := b.transfers } s)

/-- The reload of an EXC.RET bundle, with the stack pointer that its writes leave; a store of the same bundle comes before it
(R275). -/
def reloadOf (e : Eng) (ps : List Plan) (written s : State) : Reload × State :=
  let sp := (written.engine e).exc.sp.toNat
  let hits := ps.filter (fun p => p.op == 8 && !isExternal p.acc.pa && decide (p.acc.va.toNat < sp + 32) &&
    decide (sp < p.acc.va.toNat + p.acc.len))
  if hits.isEmpty then reload e sp s
  else
    let t := hits.foldl (fun t p => { t with mem := memSetAll t.mem (realAddr (p.acc.pa - blockSpace)) p.acc.bytes }) s
    (fun r => (r.1, { r.2 with mem := s.mem })) (reload e sp t)

/-- The answer of the bundle's husk read is part of the address of this move's access. -/
def huskAddressed (b : Bundle) (m : Move) : Bool :=
  m.dst % 0x10 == 7 && m.src.husk.isSome ||
    b.moves.any (fun k => k.src.husk.isSome && decide (0x0C0 ≤ k.dst ∧ k.dst < 0x100) && k.dst / 0x10 == m.dst / 0x10 &&
      decide (k.dst % 0x10 < 6))

/-- The checks of a bundle's accesses and arithmetic, and what follows if they pass (R209, R275, R276, R458). `hv` is the
answer of its husk read, none at the issue: what depends on the answer is then left until it has come. -/
def checkThen (e : Eng) (v : Word) (b : Bundle) (latched : List (Option Word)) (hv : Option Word) (s : State)
    (go : List Plan → List Word → State → State) : State :=
  let (vals, _) := gather e s (hv.getD 0) b.sources latched s
  let ms := movesWith b vals
  let written := doWrites e ms s
  let early (m : Move) := m.src.husk.isNone && !huskAddressed b m
  let known := ms.filter (fun m => hv.isSome || !huskAddressed b m.1)
  let watched := ms.filter (fun m => sizedPort m.1.dst && early m.1 == hv.isNone)
  let reads := b.sources.any (·.husk.isSome)
  let spLater := hv.isNone && b.moves.any (fun m => m.dst == 0x129 && m.src.husk.isSome)
  match checkPlans e (plans (written.engine e) known) s with
  | (.wait, s) => stallOn e (some v) s
  | (.fault p vec inf, s) =>
    let s := match inf with | some i => recordMiss e p.acc.va.toNat i s | none => s
    faultOut e (planEvent s e p vec) s
  | (.ok ps, s) =>
    let ws := ps.filter (fun p => watched.any (fun m => m.1.slot == p.slot))
    match watchVerdict s e ws with
    | .halt => haltEngine e 3 (watchAll e ws s)
    | .exc w => faultOut e (watchFault s e ws w) ((watchAll e ws s).put (DBG.E.STAT.UNIT e) (16 + w))
    | .go =>
      let (r, s1) := if b.returns && !spLater then reloadOf e ps written s else (.words [], s)
      match r with
      | .wait => stallOn e (some v) s1
      | .fault vec va inf => afterStep e (returnFault e b.returnSlot vec va inf s1)
      | .words words =>
        match if reads && hv.isNone then none else preciseRaise written e ms with
        | some (vec, slot) =>
          faultOut e { preciseEvent s1 e vec with slot := slot, aepc := some (s1.pc e) } (watchAll e ws s1)
        | none => go ps words (watchAll e ws s1)

/-- The same; the packets that the bundle emits stand in the order of its slots (R462). -/
def checkAndGo (e : Eng) (v : Word) (b : Bundle) (latched : List (Option Word)) (hv : Option Word) (s : State)
    (go : List Plan → List Word → State → State) : State :=
  packetOrder s.trace.now.length (checkThen e v b latched hv s go)

/-- The husk port of a bundle, with the direction of its transaction: a read where a source names it (R256). -/
def Bundle.husk (b : Bundle) : Option (Nat × Bool) :=
  match b.sources.findSome? Src.husk with
  | some p => some (p, false)
  | none => (b.moves.find? (fun m => decide (0x1C0 ≤ m.dst))).map (fun m => (m.dst, true))

/-- The Reg sources of a bundle as they stand at its issue (R202). -/
def latch (s : State) (e : Eng) (b : Bundle) : List (Option Word) :=
  b.sources.map (fun x => match x with
    | .port p => if (srcUnit p).isSome then none else some (s.readPort e p)
    | .imm _ => none)

/-- The bundle waits for the husk interface (R256). -/
def askHusk (e : Eng) (v : Word) (b : Bundle) (port : Nat) (write : Bool) (s : State) : State :=
  let vals := (gather e s 0 b.sources [] s).1
  let data := match (movesWith b vals).find? (fun m => decide (0x1C0 ≤ m.1.dst)) with | some m => m.2 | none => 0
  s.modEng e (fun x => { x with
    stalled := true, held := some (holdBundle s e v)
    husk := some { port := port, write := write, value := if write then data else 0, sent := false, bundle := v
                   vals := latch s e b, answer := none, debug := false } })

/-- A dual move, long immediate or compare-and-branch issues (R202-R209). The moves of a bundle that has stalled are not checked
again: a change of the present mask is for bundles issued after it (R255). -/
def runMoves (e : Eng) (v : Word) (b : Bundle) (s : State) : State :=
  match if (s.engine e).held.isSome then none else badMove s e b with
  | some slot => faultOut e { preciseEvent s e 2 with slot := slot } s
  | none =>
    if bundleStalls s e b then stallOn e (some v) s
    else
      checkAndGo e v b [] none s (fun ps words s =>
        match b.husk with
        | some (port, write) => askHusk e v b port write s
        | none => commit e b [] 0 ps words s)

/-- The husk transaction of a bundle has been answered without an error (R256): the checks that its answer can change, then
its moves. -/
def resumeBundle (e : Eng) (v : Word) (latched : List (Option Word)) (hv : Word) (s : State) : State :=
  let b := decodeBundle v
  checkAndGo e v b latched (some hv) s (fun ps words s => commit e b latched hv ps words s)

/-! ### Repeat prefix and TRAP (R207, R217, R218) -/

/-- The bundle may be repeated (R218). -/
def Bundle.repeatable (b : Bundle) : Bool :=
  match b with
  | .dual .. => !b.transfers
  | .long .. => !b.transfers
  | _ => false

/-- The bundle that stands after the next one: what patch units put there, or what a fetch finds (R218, R457). -/
def peekNext (e : Eng) (s : State) : Fetched × State :=
  let a := s.pc e + 6
  let (view, s) := patchView e s
  match patchHit view e a with
  | some u =>
    let act := view.get (PATCH.CTRL.ACTION e u)
    if act = 1 ∨ act = 2 then (.fault 13 0 none, s) else (.bundle (patchBundle view e u), s)
  | none => fetchBundle e a.toNat s

/-- A repeat prefix issues (R217, R218). A fault of the repeated bundle's own fetch is left to that bundle (R221). -/
def runRepeat (e : Eng) (v : Word) (src int : Bool) (count : BitVec 16) (s : State) : State :=
  let c := if src then (s.engine e).flow.rptCnt else count
  let start (s : State) : State :=
    let s := s.modFlow e (fun f => { f with rptCnt := c })
    let s := s.modExc e (fun x => { x with sr := { x.sr with ra := decide (c ≠ 0), rint := decide (c ≠ 0) && int } })
    let s := s.modEng e (fun x => { x with stalled := false, held := none, fresh := false })
    afterStep e (s.modFlow e (fun f => { f with pc := f.pc + (if c = 0 then 12 else 6) }))
  if !int && decide (4095 < c.toNat) then faultOut e (preciseEvent s e 3) s
  else
    match peekNext e s with
    | (.busy _, s1) => stallOn e (some v) s1
    | (.fault .., _) => start s
    | (.bundle w, s1) => if (decodeBundle w).repeatable then start s1 else faultOut e (preciseEvent s1 e 3) s1

/-- TRAP retires and enters its vector, with the next bundle as its return point (R207, R278). -/
def runTrap (e : Eng) (n : BitVec 5) (s : State) : State :=
  let pc := s.pc e
  let s := dropAhead e (s.modEng e (fun x => { x with stalled := false, held := none, fresh := false }))
  afterStep e (takeException e { preciseEvent s e (32 + n.toNat) with epc := pc + 6, enpc := pc + 12, ds := false } s)

/-! ### Issue (R196, R208, R209, R457) -/

/-- The bundle is illegal where it stands (R203, R208, R213, R216). -/
def illegalHere (s : State) (e : Eng) (b : Bundle) : Bool :=
  let x := s.engine e
  b.illegal || (b.transfers || b.isRepeat) &&
    (x.flow.xfer.isSome || x.exc.sr.ra || x.exc.sr.la && x.flow.pc == x.flow.loopEnd)

/-- What stands at the next bundle's address. -/
inductive Next where
  | bundle (v : Word)
  | stall
  /-- A patch unit or a fetch fault has acted instead. -/
  | gone
  deriving DecidableEq, Repr

/-- The next bundle: one held by a stall, one that a patch unit puts in its place, or the one fetched (R195, R457). -/
def nextBundle (e : Eng) (s : State) : Next × State :=
  match (s.engine e).held with
  | some v => (.bundle v.1, s)
  | none =>
    let (view, s1) := patchView e s
    match patchHit view e (s.pc e) with
    | some u =>
      let s2 := engineEvent (DBG.E.CTRL.EVPATCH e) e s1
      if view.get (PATCH.CTRL.ACTION e u) = 1 then (.gone, haltEngine e 2 s2)
      else if view.get (PATCH.CTRL.ACTION e u) = 2 then
        (.gone, faultOut e (preciseEvent s2 e 13) (s2.put (DBG.E.STAT.UNIT e) u))
      else (.bundle (patchBundle view e u), s2)
    | none =>
      match fetchBundle e (s.pc e).toNat s1 with
      | (.bundle v, s2) => (.bundle v, s2)
      | (.busy _, s2) => (.stall, stallOn e none s2)
      | (.fault vec va inf, s2) =>
        let s3 := match inf with | some i => recordMiss e va i s2 | none => s2
        (.gone, faultOut e { preciseEvent s3 e vec with fetch := true, faddr := BitVec.ofNat 48 va } s3)

/-- A fetched bundle runs. -/
def runBundle (e : Eng) (v : Word) (s : State) : State :=
  let b := decodeBundle v
  if illegalHere s e b then faultOut e (preciseEvent s e 3) s
  else
    match b with
    | .repeat src int count => runRepeat e v src int count s
    | .trap n => runTrap e n s
    | _ => runMoves e v b s

/-- The engine issues its next bundle, if it is of the wanted format. An entry that waits is tried first; what a boundary
owes is left to its own commands (R269). -/
def issue (e : Eng) (want : Bundle → Bool) (s : State) : State :=
  if !s.issues e then s
  else if (s.engine e).retry.isSome then retryEntry e s
  else if boundaryDue s e ≠ .none then s
  else
    match (s.engine e).husk with
    | some w => resumeBundle e w.bundle w.vals (w.answer.getD 0) s
    | none =>
    match nextBundle e s with
    | (.bundle v, s1) => if want (decodeBundle v) then runBundle e v s1 else s
    | (_, s1) => s1

/-- An extended bundle with the subop of TRAP. -/
def Bundle.isTrap : Bundle → Bool
  | .trap _ => true
  | .bad w => decide (w.extractLsb' 42 4 = 8#4)
  | _ => false

/-- Any other extended bundle. -/
def Bundle.isExtended : Bundle → Bool
  | .repeat .. => true
  | .bad w => decide (w.extractLsb' 42 4 ≠ 8#4)
  | _ => false

/-- DUAL_MOVE (R202). -/
def execDualMove (e : Eng) (s : State) : Res := .next (issue e (fun b => match b with | .dual .. => true | _ => false) s)

/-- LONG_IMMEDIATE (R205). -/
def execLongImmediate (e : Eng) (s : State) : Res := .next (issue e (fun b => match b with | .long .. => true | _ => false) s)

/-- COMPARE_AND_BRANCH (R206). -/
def execCompareAndBranch (e : Eng) (s : State) : Res :=
  .next (issue e (fun b => match b with | .branch .. => true | _ => false) s)

/-- REPEAT_PREFIX (R217), and every reserved extended bundle but those of TRAP's subop (R208). -/
def execRepeatPrefix (e : Eng) (s : State) : Res := .next (issue e Bundle.isExtended s)

/-- TRAP (R207), and the reserved encodings of its subop (R208). -/
def execTrap (e : Eng) (s : State) : Res := .next (issue e Bundle.isTrap s)

end Sys2Proof.Machine
end

