-- ==== Sys2Proof/Machine/EngRows.lean ====
section
/-! DEFINITION. The units of an engine, command by command: what a move to a trigger or action port, a read of a Req port and
a completion do (R234-R254), deliveries of messages (R246) and the husk interface (R256-R259). A command of this file is the
unit's part of a bundle: it advances no PC, but for control transfers. -/

namespace Sys2Proof.Machine

open Reg

/-- What a unit does for a bundle of its engine: nothing while the engine issues none (R452). -/
def unitRow (e : Eng) (go : State → State) (s : State) : State := if s.issues e then go s else s

/-! ### Arithmetic (R234-R239, R276) -/

/-- An arithmetic trigger at port `p`: under PREC one that raises does not start, and its exception is taken (R276). -/
def precise (e : Eng) (p : Nat) (v : Word) (go : State → State) (s : State) : State :=
  match if s.bit GRIST.PREC.PREC e then raises (s.engine e) p v else none with
  | some vec => faultOut e { preciseEvent s e vec with aepc := some (s.pc e) } s
  | none => go s

/-- ALU_ADD (R234). -/
def execAluAdd (e : Eng) (u : Fin 2) (b : Word) (s : State) : Res :=
  .next (unitRow e (precise e (0x044 + 0x20 * u.val) b (aluTrig e u .add false b)) s)

/-- ALU_ADDC (R234). -/
def execAluAddc (e : Eng) (u : Fin 2) (b : Word) (s : State) : Res :=
  .next (unitRow e (precise e (0x045 + 0x20 * u.val) b (aluTrig e u .addc false b)) s)

/-- ALU_SUB (R234). -/
def execAluSub (e : Eng) (u : Fin 2) (b : Word) (s : State) : Res :=
  .next (unitRow e (precise e (0x046 + 0x20 * u.val) b (aluTrig e u .sub false b)) s)

/-- ALU_SUBC (R234). -/
def execAluSubc (e : Eng) (u : Fin 2) (b : Word) (s : State) : Res :=
  .next (unitRow e (precise e (0x047 + 0x20 * u.val) b (aluTrig e u .subc false b)) s)

/-- ALU_RSUB (R234). -/
def execAluRsub (e : Eng) (u : Fin 2) (b : Word) (s : State) : Res :=
  .next (unitRow e (precise e (0x048 + 0x20 * u.val) b (aluTrig e u .rsub false b)) s)

/-- ALU_AND (R234). -/
def execAluAnd (e : Eng) (u : Fin 2) (b : Word) (s : State) : Res :=
  .next (unitRow e (precise e (0x049 + 0x20 * u.val) b (aluTrig e u .and false b)) s)

/-- ALU_OR (R234). -/
def execAluOr (e : Eng) (u : Fin 2) (b : Word) (s : State) : Res :=
  .next (unitRow e (precise e (0x04A + 0x20 * u.val) b (aluTrig e u .or false b)) s)

/-- ALU_XOR (R234). -/
def execAluXor (e : Eng) (u : Fin 2) (b : Word) (s : State) : Res :=
  .next (unitRow e (precise e (0x04B + 0x20 * u.val) b (aluTrig e u .xor false b)) s)

/-- ALU_ANDN (R234). -/
def execAluAndn (e : Eng) (u : Fin 2) (b : Word) (s : State) : Res :=
  .next (unitRow e (precise e (0x04C + 0x20 * u.val) b (aluTrig e u .andn false b)) s)

/-- ALU_MIN (R234). -/
def execAluMin (e : Eng) (u : Fin 2) (b : Word) (s : State) : Res :=
  .next (unitRow e (precise e (0x04D + 0x20 * u.val) b (aluTrig e u .min false b)) s)

/-- ALU_MAX (R234). -/
def execAluMax (e : Eng) (u : Fin 2) (b : Word) (s : State) : Res :=
  .next (unitRow e (precise e (0x04E + 0x20 * u.val) b (aluTrig e u .max false b)) s)

/-- ALU_MINU (R234). -/
def execAluMinu (e : Eng) (u : Fin 2) (b : Word) (s : State) : Res :=
  .next (unitRow e (precise e (0x04F + 0x20 * u.val) b (aluTrig e u .minu false b)) s)

/-- ALU_MAXU (R234). -/
def execAluMaxu (e : Eng) (u : Fin 2) (b : Word) (s : State) : Res :=
  .next (unitRow e (precise e (0x050 + 0x20 * u.val) b (aluTrig e u .maxu false b)) s)

/-- ALU_ABS (R234). -/
def execAluAbs (e : Eng) (u : Fin 2) (b : Word) (s : State) : Res :=
  .next (unitRow e (precise e (0x051 + 0x20 * u.val) b (aluTrig e u .abs false b)) s)

/-- ALU_NEG (R234). -/
def execAluNeg (e : Eng) (u : Fin 2) (b : Word) (s : State) : Res :=
  .next (unitRow e (precise e (0x052 + 0x20 * u.val) b (aluTrig e u .neg false b)) s)

/-- ALU_SEQ (R234). -/
def execAluSeq (e : Eng) (u : Fin 2) (b : Word) (s : State) : Res :=
  .next (unitRow e (precise e (0x053 + 0x20 * u.val) b (aluTrig e u .seq false b)) s)

/-- ALU_SLT (R234). -/
def execAluSlt (e : Eng) (u : Fin 2) (b : Word) (s : State) : Res :=
  .next (unitRow e (precise e (0x054 + 0x20 * u.val) b (aluTrig e u .slt false b)) s)

/-- ALU_SLTU (R234). -/
def execAluSltu (e : Eng) (u : Fin 2) (b : Word) (s : State) : Res :=
  .next (unitRow e (precise e (0x055 + 0x20 * u.val) b (aluTrig e u .sltu false b)) s)

/-- ALU_ADDS (R234). -/
def execAluAdds (e : Eng) (u : Fin 2) (b : Word) (s : State) : Res :=
  .next (unitRow e (precise e (0x056 + 0x20 * u.val) b (aluTrig e u .adds false b)) s)

/-- ALU_SUBS (R234). -/
def execAluSubs (e : Eng) (u : Fin 2) (b : Word) (s : State) : Res :=
  .next (unitRow e (precise e (0x057 + 0x20 * u.val) b (aluTrig e u .subs false b)) s)

/-- ALU_PASS (R234). -/
def execAluPass (e : Eng) (u : Fin 2) (b : Word) (s : State) : Res :=
  .next (unitRow e (precise e (0x058 + 0x20 * u.val) b (aluTrig e u .pass false b)) s)

/-- MUL_MULS (R236). -/
def execMulMuls (e : Eng) (b : Word) (s : State) : Res := .next (unitRow e (precise e 0x081 b (mulTrig e .muls false b)) s)

/-- MUL_MULU (R236). -/
def execMulMulu (e : Eng) (b : Word) (s : State) : Res := .next (unitRow e (precise e 0x082 b (mulTrig e .mulu false b)) s)

/-- MUL_MULSU (R236). -/
def execMulMulsu (e : Eng) (b : Word) (s : State) : Res := .next (unitRow e (precise e 0x083 b (mulTrig e .mulsu false b)) s)

/-- MUL_MAC (R236). -/
def execMulMac (e : Eng) (b : Word) (s : State) : Res := .next (unitRow e (precise e 0x084 b (mulTrig e .mac false b)) s)

/-- MUL_MSU (R236). -/
def execMulMsu (e : Eng) (b : Word) (s : State) : Res := .next (unitRow e (precise e 0x085 b (mulTrig e .msu false b)) s)

/-- MUL_COMPLETE (R211, R237): the oldest multiplier operation writes PH:PL; an overflow of MAC or MSU is detected here
unless PREC has settled it before the start (R276). -/
def execMulComplete (e : Eng) (s : State) : Res :=
  let x := s.engine e
  match x.mul.flight with
  | m :: t =>
    let (pair, ovf) := mulDone m (x.mul.ph ++ x.mul.pl)
    let s' := s.setEng e { x with mul := { x.mul with ph := pair.extractLsb' 48 48, pl := pair.extractLsb' 0 48, flight := t } }
    .next (if ovf && x.exc.ov && m.imp then reportArith e 10 m.pc m.slot m.seqn s' else s')
  | [] => .next s

/-- A divider trigger as a command: it stalls while a divide runs (R210). -/
def divRow (e : Eng) (signed : Bool) (p : Nat) (b : Word) (s : State) : State :=
  if (s.engine e).div.flight.isSome then s else precise e p b (divTrig e signed false b) s

/-- DIV_DIVS (R238). -/
def execDivDivs (e : Eng) (b : Word) (s : State) : Res := .next (unitRow e (divRow e true 0x091 b) s)

/-- DIV_DIVU (R238). -/
def execDivDivu (e : Eng) (b : Word) (s : State) : Res := .next (unitRow e (divRow e false 0x092 b) s)

/-- DIV_COMPLETE (R238): Q and REM are ready. -/
def execDivComplete (e : Eng) (s : State) : Res :=
  .next (s.modEng e (fun x => match x.div.flight with
    | some (q, r) => { x with div := { x.div with q := q, rem := r, flight := none } }
    | none => x))

/-- SH_SHL (R239). -/
def execShShl (e : Eng) (b : Word) (s : State) : Res := .next (unitRow e (shTrig e .shl b) s)

/-- SH_SHR (R239). -/
def execShShr (e : Eng) (b : Word) (s : State) : Res := .next (unitRow e (shTrig e .shr b) s)

/-- SH_SAR (R239). -/
def execShSar (e : Eng) (b : Word) (s : State) : Res := .next (unitRow e (shTrig e .sar b) s)

/-- SH_ROL (R239). -/
def execShRol (e : Eng) (b : Word) (s : State) : Res := .next (unitRow e (shTrig e .rol b) s)

/-- SH_ROR (R239). -/
def execShRor (e : Eng) (b : Word) (s : State) : Res := .next (unitRow e (shTrig e .ror b) s)

/-- SH_EXTU (R239). -/
def execShExtu (e : Eng) (b : Word) (s : State) : Res := .next (unitRow e (shTrig e .extu b) s)

/-- SH_EXTS (R239). -/
def execShExts (e : Eng) (b : Word) (s : State) : Res := .next (unitRow e (shTrig e .exts b) s)

/-- SH_INS (R239). -/
def execShIns (e : Eng) (b : Word) (s : State) : Res := .next (unitRow e (shTrig e .ins b) s)

/-- SH_CLZ (R239). -/
def execShClz (e : Eng) (b : Word) (s : State) : Res := .next (unitRow e (shTrig e .clz b) s)

/-- SH_CTZ (R239). -/
def execShCtz (e : Eng) (b : Word) (s : State) : Res := .next (unitRow e (shTrig e .ctz b) s)

/-- SH_POPC (R239). -/
def execShPopc (e : Eng) (b : Word) (s : State) : Res := .next (unitRow e (shTrig e .popc b) s)

/-- SH_BREV (R239). -/
def execShBrev (e : Eng) (b : Word) (s : State) : Res := .next (unitRow e (shTrig e .brev b) s)

/-- SH_BSWAP (R239). -/
def execShBswap (e : Eng) (b : Word) (s : State) : Res := .next (unitRow e (shTrig e .bswap b) s)

/-- SH_BSWAP4 (R239). -/
def execShBswap4 (e : Eng) (b : Word) (s : State) : Res := .next (unitRow e (shTrig e .bswap4 b) s)

/-- SH_BSWAP2 (R239). -/
def execShBswap2 (e : Eng) (b : Word) (s : State) : Res := .next (unitRow e (shTrig e .bswap2 b) s)

/-! ### Address generators (R222-R228) -/

/-- An access port as a command: a generator with an access in flight stalls; the checks of R209 and the watch comparators
apply. -/
def agRow (e : Eng) (n : Fin 4) (op : Nat) (v : Word) (w : Nat) (s : State) : State :=
  let x := s.engine e
  if x.ag[n].flight.isSome then s
  else
    match checkPlans e [planAccess x n op v w false] s with
    | (.wait, s) => s
    | (.fault p vec inf, s) =>
      faultOut e (planEvent s e p vec) (match inf with | some i => recordMiss e p.acc.va.toNat i s | none => s)
    | (.ok ps, s) =>
      match watchVerdict s e ps with
      | .halt => haltEngine e 3 (watchAll e ps s)
      | .exc k => faultOut e (watchFault s e ps k) ((watchAll e ps s).put (DBG.E.STAT.UNIT e) (16 + k))
      | .go => ps.foldl (fun t p => startAccess e p t) (watchAll e ps s)

/-- AG_LD (R223). -/
def execAgLd (e : Eng) (n : Fin 4) (w : Fin 9) (s : State) : Res := .next (unitRow e (agRow e n 6 0 w) s)

/-- AG_LDX (R223). -/
def execAgLdx (e : Eng) (n : Fin 4) (v : Word) (w : Fin 9) (s : State) : Res := .next (unitRow e (agRow e n 7 v w) s)

/-- AG_ST (R223). -/
def execAgSt (e : Eng) (n : Fin 4) (v : Word) (w : Fin 9) (s : State) : Res := .next (unitRow e (agRow e n 8 v w) s)

/-- AG_LR (R227). -/
def execAgLr (e : Eng) (n : Fin 4) (w : Fin 9) (s : State) : Res := .next (unitRow e (agRow e n 9 0 w) s)

/-- AG_SC (R228). -/
def execAgSc (e : Eng) (n : Fin 4) (v : Word) (w : Fin 9) (s : State) : Res := .next (unitRow e (agRow e n 0xA v w) s)

/-- AG_SYNC (R223): it waits for the engine's earlier stores and changes nothing itself. -/
def execAgSync (_e : Eng) (_n : Fin 4) (s : State) : Res := .next s

/-! ### Branch unit, cache, status (R212, R215, R241-R243, R264, R267, R275, R280) -/

/-- A control transfer as a command: illegal in a delay slot, in a repeat and at the end of an active loop (R213, R216,
R218). -/
def transferRow (e : Eng) (go : State → State) (s : State) : State :=
  let x := s.engine e
  if x.flow.xfer.isSome || x.exc.sr.ra || x.exc.sr.la && x.flow.pc == x.flow.loopEnd then faultOut e (preciseEvent s e 3) s
  else afterStep e (retire e ⟨x.flow.rptCnt, false, false, true⟩ (go s))

/-- BR_JMP (R212). -/
def execBrJmp (e : Eng) (v : Word) (s : State) : Res := .next (unitRow e (transferRow e (setTransfer e true v)) s)

/-- BR_CALL (R212). -/
def execBrCall (e : Eng) (v : Word) (s : State) : Res := .next (unitRow e (transferRow e (callTo e v)) s)

/-- IC_INV (R242). -/
def execIcInv (e : Eng) (v : Word) (s : State) : Res := .next (unitRow e (icInv e v) s)

/-- IC_INVALL (R242). -/
def execIcInvall (e : Eng) (s : State) : Res := .next (unitRow e (icInvAll e) s)

/-- LOOP_CNT_WRITE (R215). -/
def execLoopCntWrite (e : Eng) (v : Word) (s : State) : Res := .next (unitRow e (fun s => s.modEng e (writeLoopCnt v)) s)

/-- The return as a command: illegal where a control transfer is, otherwise the reload and the restored state (R213, R275). -/
def returnRow (e : Eng) (s : State) : State :=
  let x := s.engine e
  if x.flow.xfer.isSome || x.exc.sr.ra || x.exc.sr.la && x.flow.pc == x.flow.loopEnd then faultOut e (preciseEvent s e 3) s
  else
    match reload e x.exc.sp.toNat s with
    | (.wait, s) => s
    | (.fault vec va inf, s) => afterStep e (returnFault e false vec va inf s)
    | (.words ws, s) => afterStep e (restore e ws (!x.exc.sr.df) s)

/-- EXC_RET (R275). -/
def execExcRet (e : Eng) (s : State) : Res := .next (unitRow e (returnRow e) s)

/-- EXC_SWI (R267). -/
def execExcSwi (e : Eng) (v : Word) (s : State) : Res := .next (unitRow e (swiAct e v) s)

/-- EXC_WDKICK (R280). -/
def execExcWdkick (e : Eng) (s : State) : Res := .next (unitRow e (kick e) s)

/-- EXC_SR_WRITE (R264, R282). -/
def execExcSrWrite (e : Eng) (v : Word) (s : State) : Res := .next (unitRow e (fun s => s.modExc e (writeSr v)) s)

/-! ### Instruction-cache fills (R242, R331) -/

/-- The address that a control transfer standing at the next bundle's address goes to, as far as it can be told before the
transfer issues (R331). -/
def transferTarget (s : State) (e : Eng) (v : Word) : Option Nat :=
  match decodeBundle v with
  | .branch _ _ _ d => some (s.pc e + 6 * d.signExtend 48).toNat
  | b =>
    if b.returns then some (s.engine e).exc.epc.toNat
    else
      match b.moves.find? (fun m => m.dst == 0x100 || m.dst == 0x101) with
      | some m =>
        match m.src with
        | .imm x => some x.toNat
        | .port p => if (srcUnit p).isSome then none else some (m.value (s.readPort e p)).toNat
      | none => none

/-- The target of the control transfer in progress, or of the one that stands next (R331). -/
def targetAhead (s : State) (e : Eng) : Nat :=
  match (s.engine e).flow.xfer with
  | some (_, a) => a.toNat
  | none =>
    match (fetchNow e (s.pc e).toNat s).1 with
    | .bundle v => (transferTarget s e v).getD (s.pc e).toNat
    | _ => (s.pc e).toNat

/-- A control transfer stands at the next bundle's address (R331). -/
def transferNext (s : State) (e : Eng) : Bool :=
  match (fetchNow e (s.pc e).toNat s).1 with
  | .bundle v => (decodeBundle v).transfers
  | _ => false

/-- A repeat prefix has issued and stalls on the fetch of its bundle (R218). -/
def repeatHeld (s : State) (e : Eng) : Bool := ((s.engine e).held.map (fun h => (decodeBundle h.1).isRepeat)).getD false

/-- The fetch is a demand: the next bundle's own, or that of the bundle after a repeat prefix (R218). -/
def demandFill (s : State) (e : Eng) (which : Nat) : Bool := which == 0 || which == 2 && repeatHeld s e

/-- The address whose bundle a line fill serves: 0 the next bundle, 1 the line after the line that it misses, 2 the bundle
after it, 3 the target of the control transfer in progress or standing next, 4 the bundle after that transfer's delay bundle.
Ahead of the next bundle the engine fetches only past a control transfer, and for a repeat prefix (R218, R331). -/
def fillBundle (s : State) (e : Eng) (which : Nat) : Option Nat :=
  let pc := (s.pc e).toNat
  let under := (s.engine e).flow.xfer.isSome
  match which with
  | 2 => if under || transferNext s e || repeatHeld s e then some ((pc + 6) % 2 ^ 48) else none
  | 3 => if under || transferNext s e then some (targetAhead s e) else none
  | 4 => if !under && transferNext s e then some ((pc + 12) % 2 ^ 48) else none
  | _ => some pc

/-- The line of address `va` that a fill reads has an answer: it enters the cache. An error response to a demand is kept for the
fetch; a speculative fill that fails leaves nothing but the read that went out (R331). -/
def fillWith (e : Eng) (va pa : Nat) (own demand : Bool) (data : List Byte) (err : Bool) (evict : Nat) (s : State) : State :=
  let line := va / 64
  let (bs, t) := readLine e va pa own demand data err s
  match bs with
  | some bs => fillLine e line bs evict t
  | none => if demand then t.modXl e (fun x => { x with lineErr := some line }) else if isExternal pa then t else s

/-- A fill of the line that the fetch of a bundle at `va` misses, or of the line after it (`after`), completes. The line that holds the
bundle's first byte is reached at that byte's address: a fetch from a reserved address takes its bus error (R318). -/
def fillFor (e : Eng) (va : Nat) (after demand : Bool) (data : List Byte) (err : Bool) (evict : Nat) (s : State) : State :=
  let (f, s1) := fetchNow e va s
  match f with
  | .busy (some miss) =>
    let line := if after then nextLine miss else miss
    let a := if line = va / 64 then va else 64 * line
    let (x, s2) := translate e a .fetch s1
    match x with
    | .ok pa own =>
      if (lookup line (s1.engine e).xl.lines).isSome || !demand && isReserved pa || isExternal pa && !s1.readsNow then s
      else fillWith e a pa own demand data err evict (if demand then s2 else s)
    | _ => s
  | _ => s

/-- ICACHE_FILL (R242, R331): the fill of a line that a fetch misses completes; `data` and `err` are the answer of external
memory. A speculative access changes no TLB, and it is dropped where it misses, lacks X or a mark, or reaches a device region. -/
def execIcacheFill (e : Eng) (which : Fin 5) (data : List Byte) (err : Bool) (evict : Nat) (s : State) : Res :=
  match fillBundle s e which with
  | some va => .next (fillFor e va (decide (which.val = 1)) (demandFill s e which) data err evict s)
  | none => .next s

/-! ### Req reads into a general register (R232) -/

/-- A Req read moved to general register `d`. -/
def reqTo (e : Eng) (p : Nat) (d : Fin 64) (s : State) : State :=
  let (v, s) := reqAct e p s
  s.modEng e (fun x => { x with g := x.g.set d v })

/-- SEM_TAKE (R295). -/
def execSemTake (e : Eng) (d : Fin 64) (s : State) : Res := .next (unitRow e (reqTo e 0x141 d) s)

/-- SEM_GIVE (R295). -/
def execSemGive (e : Eng) (v : Word) (s : State) : Res := .next (unitRow e (semGive e (v.toNat % 64)) s)

/-- EDB_RING (R245, R246). -/
def execEdbRing (e : Eng) (v : Word) (s : State) : Res := .next (unitRow e (post e true v) s)

/-- EDB_CLR (R245). -/
def execEdbClr (e : Eng) (v : Word) (s : State) : Res := .next (unitRow e (edbClr e v) s)

/-- MSG_SEND (R245, R246). -/
def execMsgSend (e : Eng) (v : Word) (s : State) : Res := .next (unitRow e (post e false v) s)

/-- The first parcel from one engine to another, and the rest (R246). -/
def takeParcel (src tgt : Eng) : List Parcel → Option (Parcel × List Parcel)
  | [] => none
  | x :: t =>
    if x.src = src ∧ x.tgt = tgt.val then some (x, t)
    else (takeParcel src tgt t).map (fun r => (r.1, x :: r.2))

/-- A message reaches an inbound queue, unless it is full (R246); the first one starts an engine that start-up parked (R378). -/
def receive (tgt : Eng) (v : Word) (s : State) : State :=
  let x := s.engine tgt
  if x.boot && s.engRuns tgt then s.setEng tgt { x with boot := false, flow := { x.flow with pc := v } }
  else if 8 ≤ x.msg.queue.length then s
  else s.modMsg tgt (fun m => { m with queue := m.queue ++ [v] })

/-- A parcel is delivered or fails (R246). -/
def deliver (x : Parcel) (tgt : Eng) (s : State) : State :=
  let full := decide (8 ≤ (s.engine tgt).msg.queue.length)
  let lost := !s.up (engDom tgt) || !x.ring && full
  if x.ring then
    let s := if lost then s else s.modMsg tgt (fun m => { m with edb := m.edb ||| x.value.setWidth 32 })
    s.modMsg x.src (fun m => { m with ringFail := lost })
  else
    let s := if lost then s else receive tgt x.value s
    s.modMsg x.src (fun m => { m with sendFail := lost })

/-- MSG_DELIVER (R246): the oldest SEND or RING from one engine to another arrives. -/
def execMsgDeliver (src tgt : Eng) (s : State) : Res :=
  match takeParcel src tgt s.parcels with
  | some (x, rest) => .next (deliver x tgt { s with parcels := rest })
  | none => .next s

/-- MSG_RECV (R245). -/
def execMsgRecv (e : Eng) (d : Fin 64) (s : State) : Res := .next (unitRow e (reqTo e 0x14E d) s)

/-- HDB_RING (R247, R344): it waits for the engine's earlier stores to a B2H mailbox. -/
def execHdbRing (m : Fin 2) (v : Word) (s : State) : Res :=
  let e : Eng := Fin.ofNat 14 m.val
  .next (unitRow e (fun s => if dstStalls e (s.engine e) 0x151 then s else ringHost (s.engine e).msg.hdbCh.toNat (v.toNat % 2 ^ 32) s) s)

/-- HDB_CLR (R247, R342). -/
def execHdbClr (m : Fin 2) (v : Word) (s : State) : Res :=
  let e : Eng := Fin.ofNat 14 m.val
  .next (unitRow e (clearBlock (s.engine e).msg.hdbCh.toNat (v.toNat % 2 ^ 32)) s)

/-- A port-cluster engine (R261). -/
def pce (c : Fin 12) : Eng := ⟨c.val + 2, by omega⟩

/-- SQ_RXPOP (R248). -/
def execSqRxpop (c : Fin 12) (v : Word) (s : State) : Res := .next (unitRow (pce c) (rxPop (pce c) v) s)

/-- SQ_EVPOP (R248). -/
def execSqEvpop (c : Fin 12) (v : Word) (s : State) : Res := .next (unitRow (pce c) (evPop (pce c) v) s)

/-- SQ_CMDPUSH (R248): it waits for the engine's earlier stores to its cluster memory. -/
def execSqCmdpush (c : Fin 12) (s : State) : Res :=
  .next (unitRow (pce c) (fun s => if dstStalls (pce c) (s.engine (pce c)) 0x167 then s else cmdPush (pce c) s) s)

/-- CRC_D1 (R249). -/
def execCrcD1 (e : Eng) (v : Word) (s : State) : Res := .next (unitRow e (crcTrig e 1 v) s)

/-- CRC_D2 (R249). -/
def execCrcD2 (e : Eng) (v : Word) (s : State) : Res := .next (unitRow e (crcTrig e 2 v) s)

/-- CRC_D4 (R249). -/
def execCrcD4 (e : Eng) (v : Word) (s : State) : Res := .next (unitRow e (crcTrig e 4 v) s)

/-- CRC_D6 (R249). -/
def execCrcD6 (e : Eng) (v : Word) (s : State) : Res := .next (unitRow e (crcTrig e 6 v) s)

/-- TM_HI (R251). -/
def execTmHi (e : Eng) (k : Fin 4) (d : Fin 64) (s : State) : Res := .next (unitRow e (reqTo e (0x180 + k.val) d) s)

/-- TM_LO (R251). -/
def execTmLo (e : Eng) (k : Fin 4) (d : Fin 64) (s : State) : Res := .next (unitRow e (reqTo e (0x184 + k.val) d) s)

/-- TM_ADJ_READ (R251). -/
def execTmAdjRead (e : Eng) (k : Fin 4) (d : Fin 64) (s : State) : Res := .next (unitRow e (reqTo e (0x188 + k.val) d) s)

/-- TM_ADJ_WRITE (R251, R93). -/
def execTmAdjWrite (e : Eng) (k : Fin 4) (v : Word) (s : State) : Res := .next (unitRow e (setAdj k v) s)

/-- TM_CMP (R250, R112). -/
def execTmCmp (c : Fin 12) (v : Word) (s : State) : Res := .next (unitRow (pce c) (armCompare (engClu (pce c)) (tmChan s (pce c)) v) s)

/-- TM_CAP (R250, R117). -/
def execTmCap (c : Fin 12) (d : Fin 64) (s : State) : Res := .next (unitRow (pce c) (reqTo (pce c) 0x190 d) s)

/-- TRC_NOTE (R252). -/
def execTrcNote (e : Eng) (t : Fin 32) (v : Word) (s : State) : Res := .next (unitRow e (note e false t v) s)

/-- TLB_WI (R253). -/
def execTlbWi (e : Eng) (d : Fin 64) (s : State) : Res := .next (unitRow e (reqTo e 0x1A2 d) s)

/-- TLB_WD (R253). -/
def execTlbWd (e : Eng) (d : Fin 64) (s : State) : Res := .next (unitRow e (reqTo e 0x1A3 d) s)

/-- TLB_W2 (R253). -/
def execTlbW2 (e : Eng) (d : Fin 64) (s : State) : Res := .next (unitRow e (reqTo e 0x1A4 d) s)

/-- TLB_PROBE (R253). -/
def execTlbProbe (e : Eng) (d : Fin 64) (s : State) : Res := .next (unitRow e (reqTo e 0x1A5 d) s)

/-- TLB_INVVA (R253). -/
def execTlbInvva (e : Eng) (d : Fin 64) (s : State) : Res := .next (unitRow e (reqTo e 0x1A6 d) s)

/-- TLB_INVALL (R253). -/
def execTlbInvall (e : Eng) (d : Fin 64) (s : State) : Res := .next (unitRow e (reqTo e 0x1A7 d) s)

/-- TLB_INV2 (R253). -/
def execTlbInv2 (e : Eng) (d : Fin 64) (s : State) : Res := .next (unitRow e (reqTo e 0x1A8 d) s)

/-- TLB_INV2ALL (R253). -/
def execTlbInv2all (e : Eng) (d : Fin 64) (s : State) : Res := .next (unitRow e (reqTo e 0x1A9 d) s)

/-! ### The husk interface (R255-R259, R266) -/

/-- A husk transaction is asked for and its request has not gone out. -/
def huskWaits (s : State) (e : Eng) : Bool := match (s.engine e).husk with | some w => !w.sent | none => false

/-- The engine whose turn on the husk interface comes next (R256). -/
def huskTurn (s : State) : Option Eng :=
  ((List.range 14).map (fun k => engOf (s.huskLast + 1 + k))).find? (huskWaits s)

/-- The request of an engine goes out (R256). -/
def sendHusk (e : Eng) (w : HuskWait) (s : State) : State :=
  let tx : HuskTx := { eng := e, port := w.port, write := w.write, data := w.value }
  { s.modEng e (fun x => { x with husk := some { w with sent := true } }) with husk := some tx, huskLast := e }.emit
    (.huskReq w.write (w.port - 0x1C0) e w.value)

/-- The interface is free and it is this engine's turn (R256). -/
def huskGo (write : Bool) (e : Eng) (s : State) : State :=
  match (s.engine e).husk with
  | some w => if w.write == write && s.husk.isNone && huskTurn s == some e then sendHusk e w s else s
  | none => s

/-- HUSK_WRITE (R256): the request of an engine's husk write goes out. -/
def execHuskWrite (e : Eng) (s : State) : Res := .next (huskGo true e s)

/-- HUSK_READ (R256): the request of an engine's husk read goes out. -/
def execHuskRead (e : Eng) (s : State) : Res := .next (huskGo false e s)

/-- The slot of a bundle's husk move, and the value that its write takes from the answer of its read. -/
def huskSlot (b : Bundle) : Bool :=
  match b with
  | .branch _ x _ _ => (fieldSrc x).husk.isNone
  | _ => match b.moves.find? (fun m => m.src.husk.isSome || decide (0x1C0 ≤ m.dst)) with | some m => m.slot | none => false

/-- A husk read whose move goes on to a husk port: that port and the width modifier (R256). -/
def huskOnward (w : HuskWait) : Option (Nat × Nat) :=
  if w.write then none
  else ((decodeBundle w.bundle).moves.find? (fun m => m.src.husk.isSome && decide (0x1C0 ≤ m.dst))).map (fun m => (m.dst, m.width))

/-- A husk transaction fails: a bus error, or a timeout (R257, R258). The manual gives no faulting address for the bus error:
FADDR takes a free value (log entry 2). -/
def huskFails (e : Eng) (w : HuskWait) (vec : Nat) (s : State) : State :=
  if w.debug then s.modEng e (fun x => { x with husk := none })
  else
    let ev := { preciseEvent s e vec with slot := huskSlot (decodeBundle w.bundle), faddr := s.freeVal 48 }
    faultOut e ev (if vec = 8 then s.took else s)

/-- A debugger's port access through the husk is answered: a read leaves its value in PDATA (R454). -/
def huskDebugDone (e : Eng) (w : HuskWait) (data : Word) (s : State) : State :=
  let s := s.modEng e (fun x => { x with husk := none })
  if w.write then s else s.put48 (DBG.E.PDATA_L.DATA e) (DBG.E.PDATA_H.DATA e) data

/-- A husk transaction is answered without an error (R256). -/
def huskAnswered (e : Eng) (w : HuskWait) (data : Word) (s : State) : State :=
  match huskOnward w with
  | some (port, width) => if w.debug then huskDebugDone e w data s else sendHusk e { w with port := port, write := true, value := widen width data } s
  | none =>
    if w.debug then huskDebugDone e w data s
    else
      let hv := if w.write then 0 else data
      resumeBundle e w.bundle w.vals hv (s.modEng e (fun x => { x with husk := some { w with answer := some hv } }))

/-- HSK_ACK (R256, R258): the transaction is answered; a stray answer is counted. -/
def execHskAck (data : Word) (err : Bool) (s : State) : Res :=
  match s.husk with
  | none => .next (s.count HSK.STAT.STRAY)
  | some t =>
    match (s.engine t.eng).husk with
    | none => .next { s with husk := none }
    | some w => .next (if err then huskFails t.eng w 8 { s with husk := none } else huskAnswered t.eng w data { s with husk := none })

/-- HUSK_TIMEOUT (R257). -/
def execHuskTimeout (s : State) : Res :=
  match s.husk with
  | none => .next s
  | some t =>
    let s := ({ s with husk := none }.emit (.huskAbort t.eng)).count HSK.STAT.TOCNT
    let s := ((s.put HSK.LAST.PORT (t.port - 0x1C0)).put HSK.LAST.WE t.write.toNat).put HSK.LAST.ENG t.eng
    match (s.engine t.eng).husk with
    | some w => .next (huskFails t.eng w 11 s)
    | none => .next s

/-- HSK_INT (R266): the boundary input of an engine changes. -/
def execHskInt (e : Eng) (level : Bool) (s : State) : Res :=
  .next { s with hskInt := if level then s.hskInt ||| BitVec.twoPow 14 e else s.hskInt &&& ~~~ (BitVec.twoPow 14 e.val) }

end Sys2Proof.Machine
end

