-- ==== Sys2Proof/Machine/Dma.lean ====
section
/-! DEFINITION. The DMA unit (R363-R366). -/

namespace Sys2Proof.Machine

open Reg

/-- A DMA channel. -/
abbrev Ch := Fin 4

def State.dmaCh (s : State) (c : Ch) : DmaSt := s.dma[c]

def State.modDma (s : State) (c : Ch) (g : DmaSt → DmaSt) : State := { s with dma := s.dma.set c (g s.dma[c]) }

/-- The requester number of the DMA unit on memory ports, and its number with the permit unit (R288, R402). -/
def dmaReq : Nat := 15
def dmaPermitReq : Nat := 11

/-! ### Reach (R363, R365) -/

/-- ERRCODE of a run of bytes as a source or destination: 0, ADDR, or OWNER (R363, R365). -/
def dmaReach (s : State) (a n : Nat) : Nat :=
  let z := a + n - 1
  if isExternal a then (if isExternal z then 0 else 4)
  else
    let r := a - blockSpace
    let e := z - blockSpace
    if inClu r && inClu e && (r - 0x400000) / 0x80000 == (e - 0x400000) / 0x80000 then 0
    else if inGran r && inGran e then 0
    else if inSp r && inSp e && (r - 0x600000) / 0x20000 == (e - 0x600000) / 0x20000 then
      (if s.admits ((r - 0x600000) / 0x20000) 2 then 0 else 5)
    else 4

/-- ERRCODE of a transfer before any byte moves. -/
def dmaCheck (s : State) (src dst n : Nat) : Nat :=
  let x := dmaReach s src n
  let y := dmaReach s dst n
  if x = 4 ∨ y = 4 then 4 else if x = 5 ∨ y = 5 then 5 else 0

/-! ### Notification (R365) -/

/-- A host-bound doorbell that a channel may ring. -/
def dmaBell (s : State) (c : Ch) : Bool :=
  let b := s.get (DMA.CH.CTRL.DBBIT c)
  !(b ≤ 2 || b == 31) && (s.on (DMA.CH.STAT.SEC c) || decide (2 ≤ s.get (DMA.CH.CTRL.DBCH c)))

/-- The notification that NOTE selects. -/
def dmaNotify (c : Ch) (s : State) : State :=
  let b := s.get (DMA.CH.CTRL.DBBIT c)
  let s := if s.bit (DMA.CH.CTRL.NOTE c) 0 && dmaBell s c then ringHost (s.get (DMA.CH.CTRL.DBCH c)) (2 ^ b) s else s
  let e := s.get (DMA.CH.CTRL.DBENG c)
  if s.bit (DMA.CH.CTRL.NOTE c) 1 && decide (e < 14) then
    s.modMsg (engOf e) (fun m => { m with edb := m.edb ||| BitVec.ofNat 32 (2 ^ b) })
  else s

/-! ### Start, permit, end (R364, R365) -/

/-- The channel that is next to have the unit's permit asks for it; waiting channels are served in ascending number (R364). -/
def dmaAsk (s : State) : State :=
  if s.dmaPermit.isSome then s
  else
    match (List.finRange 4).find? (fun c : Ch => s.on (DMA.CH.STAT.BUSY c) && (s.dmaCh c).heavy) with
    | some c => { askPermit dmaPermitReq 0 s with dmaPermit := some c.val }
    | none => s

/-- A channel no longer needs the permit. -/
def dmaRelease (c : Ch) (s : State) : State :=
  let s := (s.modDma c (fun x => { x with heavy := false })).lower (DMA.CH.STAT.PERMIT c)
  if s.dmaPermit = some c.val then dmaAsk { dropPermit dmaPermitReq s with dmaPermit := none } else s

/-- A transfer of the channel begins: a large one needs the permit (R364). -/
def dmaHeavy (c : Ch) (n : Nat) (s : State) : State :=
  if 65536 < n then dmaAsk ((s.modDma c (fun x => { x with heavy := true })).raise (DMA.CH.STAT.PERMIT c)) else s

/-- STATUS of the descriptor in progress is written (R365). -/
def dmaStatus (c : Ch) (code : Nat) (s : State) : State :=
  if s.on (DMA.CH.CTRL.CHAIN c) then
    let a := s.get (DMA.CH.CUR_L.ADDR c) + 2 ^ 32 * s.get (DMA.CH.CUR_H.ADDR c) + 20
    if isExternal a then sendWrites dmaReq (s.on (DMA.CH.STAT.SEC c)) a (bytesLE 4 code) s
    else (windowWrite dmaReq (a - blockSpace) (bytesLE 4 code) s).2
  else s

/-- A channel stops with an error or an abort (R365). -/
def dmaError (c : Ch) (code : Nat) (s : State) : State :=
  let s := (s.put (DMA.CH.STAT.ERRCODE c) code).raise (DMA.CH.STAT.ERR c)
  let s := (dmaRelease c (dmaStatus c code s)).lower (DMA.CH.STAT.BUSY c)
  dmaNotify c (s.modDma c (fun x => { x with abort := false, fetch := false, phase := 0 }))

/-- A channel completes (R365). -/
def dmaDone (c : Ch) (s : State) : State :=
  ((s.raise (DMA.CH.STAT.DONE c)).lower (DMA.CH.STAT.BUSY c)).modDma c (fun x => { x with abort := false, fetch := false })

/-- A transfer is set up: the reach of both ends is checked before any byte moves (R363). -/
def dmaSetup (c : Ch) (src dst n : Nat) (s : State) : State :=
  let s := (s.modDma c (fun x => { x with src := src, dst := dst, left := n })).put (DMA.CH.REMAIN.LEN c) n
  let code := dmaCheck s src dst n
  if code = 0 then dmaHeavy c n s else dmaError c code s

/-- A register transfer of length 0, whose outcome the manual does not state: it completes, or ends with ERRCODE DESC as a
descriptor's does; a free value decides (log entry 2). -/
def dmaEmpty (c : Ch) (s : State) : State :=
  if s.freeVal 1 = 1 then dmaError c 3 s.took else dmaNotify c (dmaDone c s.took)

/-- A write of GO (R364, R365). -/
def dmaStart (c : Ch) (sec : Bool) (s : State) : State :=
  if s.on (DMA.CH.STAT.BUSY c) then s
  else
    let s := (s.raise (DMA.CH.STAT.BUSY c)).put (DMA.CH.STAT.SEC c) sec.toNat
    let s := s.put (DMA.CH.STAT.ERRCODE c) 0
    if s.on (DMA.CH.CTRL.CHAIN c) then
      let a := s.get (DMA.CH.DESC_L.ADDR c) * 16 + 2 ^ 32 * s.get (DMA.CH.DESC_H.ADDR c)
      let s := (s.put (DMA.CH.CUR_L.ADDR c) (a % 2 ^ 32)).put (DMA.CH.CUR_H.ADDR c) (a / 2 ^ 32)
      s.modDma c (fun x => { x with fetch := true, left := 0 })
    else
      let n := s.get (DMA.CH.LEN.LEN c)
      let s := s.modDma c (fun x => { x with fetch := false, notify := true, last := true })
      if n = 0 then dmaEmpty c s
      else dmaSetup c (s.get (DMA.CH.SRC_L.ADDR c) + 2 ^ 32 * s.get (DMA.CH.SRC_H.ADDR c))
        (s.get (DMA.CH.DST_L.ADDR c) + 2 ^ 32 * s.get (DMA.CH.DST_H.ADDR c)) n s

/-- DMA_GO (R364): `sec` is the security of the write that starts the channel. -/
def execDmaGo (c : Ch) (sec : Bool) (s : State) : Res := .next (dmaStart c sec s)

/-- A channel waits for the permit of its transfer (R364). -/
def dmaWaits (s : State) (c : Ch) : Bool := (s.dmaCh c).heavy && !(s.dmaPermit == some c.val && s.holds dmaPermitReq)

/-- A write of ABORT (R365): the channel stops after the chunk in progress, at once where it waits for its permit. -/
def dmaAbort (c : Ch) (s : State) : State :=
  if s.on (DMA.CH.STAT.BUSY c) then
    (if dmaWaits s c then dmaError c 6 s else s.modDma c (fun x => { x with abort := true }))
  else s

/-- DMA_ABORT (R365). -/
def execDmaAbort (c : Ch) (s : State) : Res := .next (dmaAbort c s)

/-! ### Reads and writes of the unit (R363-R365) -/

/-- A read of bytes within one page: an answer, or an error; external memory answers with `ext`. -/
def dmaRead (a n : Nat) (ext : List Byte) (err : Bool) (s : State) : Option (List Byte) × State :=
  if isExternal a then (if err then none else some ((ext ++ List.replicate (n - ext.length) 0).take n), s)
  else
    let (st, bs, s) := windowRead dmaReq (a - blockSpace) n s
    (if st = stOkay then some bs else none, s)

/-- A read of external memory is given to the master port, with the channel's security (R364); whether all of it has left, so that its
answer can come (R413). -/
def dmaAsks (c : Ch) (a n : Nat) (s : State) : Bool × State :=
  if !isExternal a then (true, s)
  else if (s.dmaCh c).phase = 1 then (!s.unsent dmaReq false, s)
  else
    let s := sendReads dmaReq (s.on (DMA.CH.STAT.SEC c)) a n s
    if s.unsent dmaReq false then (false, s.modDma c (fun x => { x with phase := 1 })) else (true, s)

/-- The channel runs, its domain does, and it need not wait for a permit. -/
def dmaRuns (s : State) (c : Ch) : Bool :=
  s.on (DMA.CH.STAT.BUSY c) && s.up 0 && !dmaWaits s c

/-- The channel has a chunk to move. -/
def chunkReady (s : State) (c : Ch) : Bool := dmaRuns s c && !(s.dmaCh c).fetch && decide ((s.dmaCh c).left ≠ 0)

/-- The channel is the next, round-robin in ascending number, of those that have a chunk to move (R364); a chunk under way ends first. -/
def dmaTurn (s : State) (c : Ch) : Bool :=
  match (List.finRange 4).find? (fun k : Ch => decide ((s.dmaCh k).phase ≠ 0) && !(s.dmaCh k).fetch) with
  | some k => k == c && chunkReady s c
  | none => (((List.range 4).map (fun i => (Fin.ofNat 4 (s.dmaLast.val + 1 + i) : Ch))).find? (chunkReady s)) == some c

/-- A descriptor breaks R365; with LAST the address in NEXT is ignored. -/
def descBad (b : List Byte) : Bool :=
  fieldLE b 5 3 != 0 || fieldLE b 13 3 != 0 || decide (4 ≤ fieldLE b 19 1) || fieldLE b 16 3 == 0 || fieldLE b 29 3 != 0 ||
    !(fieldLE b 19 1).testBit 1 && decide (fieldLE b 24 5 % 16 ≠ 0)

/-- The descriptor in progress lies in memory that may be a source. -/
def descReach (s : State) (a : Nat) : Bool := dmaReach s a 32 == 0

/-- DMA_DESCRIPTOR_READ (R365): the descriptor at CUR is read whole. -/
def execDmaDescriptorRead (c : Ch) (ext : List Byte) (err : Bool) (s : State) : Res :=
  let x := s.dmaCh c
  if !(dmaRuns s c && x.fetch) then .next s
  else if x.abort then .next (dmaError c 6 s)
  else
    let a := s.get (DMA.CH.CUR_L.ADDR c) + 2 ^ 32 * s.get (DMA.CH.CUR_H.ADDR c)
    let s := s.put (DMA.CH.REMAIN.LEN c) 0
    if !descReach s a then .next (dmaError c 3 s)
    else
      match dmaAsks c a 32 s with
      | (false, s) => .next s
      | (true, s) =>
        match dmaRead a 32 ext err s with
        | (none, s) => .next (dmaError c 3 s)
        | (some b, s) =>
          let n := fieldLE b 16 3
          let flags := fieldLE b 19 1
          let s := s.modDma c (fun y => { y with
            fetch := false, notify := flags.testBit 0, last := flags.testBit 1, next := fieldLE b 24 5, phase := 0 })
          if descBad b then .next (dmaError c 3 (s.put (DMA.CH.REMAIN.LEN c) n))
          else .next (dmaSetup c (fieldLE b 0 5) (fieldLE b 8 5) n s)

/-- The end of a transfer or descriptor (R365). -/
def dmaNext (c : Ch) (s : State) : State :=
  let x := s.dmaCh c
  let s := dmaRelease c (dmaStatus c 0 s)
  let s := if x.last then dmaDone c s
    else
      let s := (s.put (DMA.CH.CUR_L.ADDR c) (x.next % 2 ^ 32)).put (DMA.CH.CUR_H.ADDR c) (x.next / 2 ^ 32)
      s.modDma c (fun y => { y with fetch := true })
  if x.notify then dmaNotify c s else s

/-- The length of the next chunk: at most 256 bytes within one 4 KiB page at both ends (R364). -/
def chunkLength (x : DmaSt) : Nat := min x.left (min 256 (min (4096 - x.src % 4096) (4096 - x.dst % 4096)))

/-- A chunk has been written, with or without an error: an abort stops the channel behind it, the last chunk too (R365). -/
def chunkDone (c : Ch) (ok : Bool) (s : State) : State :=
  let x := s.dmaCh c
  let n := chunkLength x
  if !ok then dmaError c 2 s
  else
    let s := (s.modDma c (fun y => { y with src := y.src + n, dst := y.dst + n, left := y.left - n, phase := 0 })).put
      (DMA.CH.REMAIN.LEN c) (x.left - n)
    if x.abort then dmaError c 6 s
    else if x.left = n then dmaNext c s
    else s

/-- A chunk has been read, and is written (R364): at external memory it is done once its writes have left and are answered. -/
def chunkWrite (c : Ch) (bs : List Byte) (werr : Bool) (s : State) : State :=
  let a := (s.dmaCh c).dst
  if isExternal a then
    let s := sendWrites dmaReq (s.on (DMA.CH.STAT.SEC c)) a bs s
    if s.unsent dmaReq true then s.modDma c (fun x => { x with phase := 2 }) else chunkDone c (!werr) s
  else
    let (st, s) := windowWrite dmaReq (a - blockSpace) bs s
    chunkDone c (decide (st = stOkay)) s

/-- A chunk is moved from its read on: external memory answers with `ext` or an error, once the read has left. -/
def chunkMove (c : Ch) (ext : List Byte) (err werr : Bool) (s : State) : State :=
  let x := s.dmaCh c
  let n := chunkLength x
  match dmaAsks c x.src n s with
  | (false, s) => s
  | (true, s) =>
    match dmaRead x.src n ext err s with
    | (none, s) => dmaError c 1 s
    | (some bs, s) => chunkWrite c bs werr s

/-- DMA_CHUNK (R364, R365): a chunk is read whole and then written; external memory answers a read with `ext` or an error,
and a write with an error where `werr` is set. The channels take turns. A chunk whose commands wait on the master port goes on with
the next such row. -/
def execDmaChunk (c : Ch) (ext : List Byte) (err werr : Bool) (s : State) : Res :=
  let x := s.dmaCh c
  if !dmaTurn s c then .next s
  else if x.phase = 2 then .next (if s.unsent dmaReq true then s else chunkDone c (!werr) s)
  else if x.phase = 1 then .next (chunkMove c ext err werr s)
  else
    let s := { s with dmaLast := c }
    let code := dmaCheck s x.src x.dst x.left
    .next (if code = 0 then chunkMove c ext err werr s else dmaError c code s)

/-- Every channel stops: BUSY clears, and no status is written (R364). -/
def stopDma (s : State) : State :=
  let s := (List.finRange 4).foldl (fun t (c : Ch) =>
    ((t.lower (DMA.CH.STAT.BUSY c)).lower (DMA.CH.STAT.PERMIT c)).modDma c (fun _ => DmaSt.reset)) s
  { dropPermit dmaPermitReq s with dmaPermit := none }

end Sys2Proof.Machine
end

