-- ==== Sys2Proof/Machine/CryJobs.lean ====
section
/-! DEFINITION. The firmware jobs of the cryptography unit (R384-R386). -/

namespace Sys2Proof.Machine

open Reg

/-- The unit's requester number on memory ports, and with the permit unit (R288, R402). -/
def cryReq : Nat := 20
def cryPermitReq : Nat := 12

/-- A 40-bit address held in two registers. -/
def addr40 (s : State) (lo hi : Fld) : Nat := s.get lo + 2 ^ 32 * s.get hi

/-- OP of the job. -/
def cryOp (s : State) : Nat := s.get CRY.CTRL.OP

/-- The bytes that a job processes. -/
def cryLength (s : State) : Nat := if cryOp s = 2 then 160 else s.get CRY.LEN.LEN

/-- All the data of a job: of a GCM job the additional data too (R384). -/
def cryData (s : State) : Nat := cryLength s + (if cryOp s = 3 ∨ cryOp s = 4 then s.get CRY.ALEN.LEN else 0)

/-- A write of GO (R385): a job over more than 64 KiB asks for the permit (R384). -/
def cryStart (s : State) : State :=
  if s.on CRY.STAT.BUSY then s
  else
    let s := { s.raise CRY.STAT.BUSY with cry := none, cryStop := false }
    if cryOp s ≤ 4 ∧ 65536 < cryData s then askPermit cryPermitReq 0 (s.raise CRY.STAT.PERMIT) else s

/-- The check of an image over more than 64 KiB has asked for the permit of the unit, which serves it before a firmware job: of IMGVERIFY,
of the ROM loader, or of the firmware that brings a cluster up again (R384). -/
def verifying (s : State) : Bool :=
  let asks (j : Option LoadJob) : Bool := j.any (fun x => x.asked)
  s.chans.toList.any (fun c => c.cmds.any (fun m => m.op == 0x0203 && decide (1 < m.params.length))) || asks s.boot.job ||
    s.clusters.toList.any (fun c => asks c.restore)

/-- A job needs the permit and does not have it. -/
def cryWaits (s : State) : Bool := s.on CRY.STAT.PERMIT && !(s.holds cryPermitReq && !verifying s)

/-- The check of an image gives up the permit that it asked for; a firmware job that needs it asks next (R384, R402). -/
def releaseCheck (s : State) : State :=
  let s := dropPermit cryPermitReq s
  if s.on CRY.STAT.PERMIT then askPermit cryPermitReq 0 s else s

/-- A job is running, its OP is the row's, its result is not known yet, and it has the permit that it needs. -/
def cryRuns (s : State) (op : Nat → Bool) : Bool :=
  s.on CRY.STAT.BUSY && s.cry.isNone && op (cryOp s) && s.up 0 && !cryWaits s

/-- The job's result is known; of a job that was aborted it is ABORT (R385). -/
def cryResult (r : Nat) (s : State) : State := { s with cry := some (if s.cryStop then 6 else r) }

/-- The key bytes of the slot that KEYSEL names; none where the slot is not valid. -/
def slotKey (s : State) : Option (List Byte) :=
  let k := s.get CRY.CTRL.KEYSEL
  if s.on (CRY.KEYCFG.VALID k) then some (((List.range 8).map (fun w => bytesLE 4 (s.get (CRY.KEY.KEY k w)))).flatten) else none

/-- The AES key of the slot: 16 or 32 bytes. -/
def aesKey (s : State) : Option (List Byte) :=
  (slotKey s).map (fun k => if s.on (CRY.KEYCFG.AES256 (s.get CRY.CTRL.KEYSEL)) then k else k.take 16)

/-- OUT0 to OUT7 take a byte string, from OUT0 on. -/
def cryOut (b : List Byte) (s : State) : State :=
  (List.range (b.length / 4)).foldl (fun t w => t.put (CRY.OUT.OUT w) (fieldLE b (4 * w) 4)) s

/-- The unit reads a run of bytes: external memory answers with `ext`, or with an error. -/
def cryRead (a n : Nat) (ext : List Byte) (err : Bool) (s : State) : Option (List Byte) × State :=
  if n = 0 then (some [], s)
  else if isExternal a then (if err then none else some ((ext ++ List.replicate (n - ext.length) 0).take n), s)
  else
    (bursts (n / 256 + n / 4096 + 3) (a - blockSpace) n).foldl (fun r b =>
      match r.1 with
      | none => r
      | some l =>
        let (st, bs, t) := windowRead cryReq b.1 b.2 r.2
        (if st = stOkay then some (l ++ bs) else none, t)) (some [], s)

/-- The unit writes a run of bytes, piece by piece; whether all of it is written. -/
def cryWrite (a : Nat) (bs : List Byte) (err : Bool) (s : State) : Bool × State :=
  (bursts (bs.length / 256 + bs.length / 4096 + 3) a bs.length).foldl (fun r b =>
    if !r.1 then r
    else
      let d := (bs.drop (b.1 - a)).take b.2
      if isExternal b.1 then (!err, sendWrites cryReq true b.1 d r.2)
      else
        let (st, t) := windowWrite cryReq (b.1 - blockSpace) d r.2
        (decide (st = stOkay), t)) (true, s)

/-- The source of the job, and its additional data. -/
def crySrc (s : State) : Nat := addr40 s CRY.SRC_L.ADDR CRY.SRC_H.ADDR
def cryAad (s : State) : Nat := addr40 s CRY.AAD_L.ADDR CRY.AAD_H.ADDR

/-- A job over SRC and LEN: its read goes out, and its data come once all of it has left (R413). -/
def onSource (n : Nat) (ext : List Byte) (err : Bool) (go : List Byte → State → State) (s : State) : State :=
  match askBulk 9 cryReq (crySrc s) n s with
  | (false, s) => s
  | (true, s) =>
    match cryRead (crySrc s) n ext err s with
    | (none, s) => cryResult 3 s
    | (some d, s) => go d s

/-- CRY_SHA256 (R385). -/
def execCrySha256 (ext : List Byte) (err : Bool) (s : State) : Res :=
  if cryRuns s (· == 0) then .next (onSource (cryLength s) ext err (fun d t => cryResult 0 (if t.cryStop then t else cryOut (sha256 d) t)) s) else .next s

/-- CRY_HMAC (R385). -/
def execCryHmac (ext : List Byte) (err : Bool) (s : State) : Res :=
  if cryRuns s (· == 1) then
    match slotKey s with
    | none => .next (cryResult 4 s)
    | some k => .next (onSource (cryLength s) ext err (fun d t => cryResult 0 (if t.cryStop then t else cryOut (hmac k d) t)) s)
  else .next s

/-- CRY_VERIFY (R385). -/
def execCryVerify (ext : List Byte) (err : Bool) (s : State) : Res :=
  if cryRuns s (· == 2) then
    .next (onSource 160 ext err (fun d t =>
      cryResult (if ecdsaVerify (num32 d 0) (num32 d 32) (num32 d 96) (num32 d 128) ((d.drop 64).take 32) then 0 else 1) t) s)
  else .next s

/-- The IV and the expected tag. -/
def cryIv (s : State) : List Byte := ((List.range 3).map (fun w => bytesLE 4 (s.get (CRY.IV.IV w)))).flatten
def cryTag (s : State) : List Byte := ((List.range 4).map (fun w => bytesLE 4 (s.get (CRY.TAG.TAG w)))).flatten

/-- A GCM job: the additional data, then the data. -/
def onGcm (ext aad : List Byte) (err : Bool) (go : List Byte → List Byte → List Byte → State → State) (s : State) : State :=
  match aesKey s with
  | none => cryResult 4 s
  | some k =>
    match if s.bulk.contains 9 then (true, s) else askBulk 8 cryReq (cryAad s) (s.get CRY.ALEN.LEN) s with
    | (false, s) => s
    | (true, s) =>
      onSource (cryLength s) ext err (fun d s =>
        match cryRead (cryAad s) (s.get CRY.ALEN.LEN) aad err s with
        | (none, s) => cryResult 3 s
        | (some a, s) => go k a d s) s

/-- The job ends behind a block of data that an ABORT found in progress: how many blocks of its output stand at DST by then is not
given, a free value (R385; log entry 63). -/
def stopAt (out : List Byte) (werr : Bool) (s : State) : State :=
  let n := (s.freeVal 32).toNat % ((out.length + 15) / 16 + 1)
  cryResult 6 (cryWrite (addr40 s CRY.DST_L.ADDR CRY.DST_H.ADDR) (out.take (16 * n)) werr s.took).2

/-- CRY_ENCRYPT (R385): `ext` and `aad` are what external memory answers for data and additional data, `err` an error on a
read, `werr` one on a write. -/
def execCryEncrypt (ext aad : List Byte) (err werr : Bool) (s : State) : Res :=
  if cryRuns s (· == 3) then
    .next (onGcm ext aad err (fun k a d t =>
      let r := gcmEncrypt k (cryIv t) a d
      if t.cryStop then stopAt r.1 werr t
      else
        let (ok, t) := cryWrite (addr40 t CRY.DST_L.ADDR CRY.DST_H.ADDR) r.1 werr t
        if ok then cryResult 0 (cryOut r.2 t) else cryResult 3 t) s)
  else .next s

/-- CRY_DECRYPT (R385): with a wrong tag every byte written at DST becomes 0. -/
def execCryDecrypt (ext aad : List Byte) (err werr : Bool) (s : State) : Res :=
  if cryRuns s (· == 4) then
    .next (onGcm ext aad err (fun k a d t =>
      let r := gcmDecrypt k (cryIv t) a d
      let dst := addr40 t CRY.DST_L.ADDR CRY.DST_H.ADDR
      if t.cryStop then stopAt r.1 werr t
      else
        let (ok, t) := cryWrite dst r.1 werr t
        if !ok then cryResult 3 t
        else if r.2 = cryTag t then cryResult 0 t
        else
          let (ok, t) := cryWrite dst (List.replicate d.length 0) werr t
          cryResult (if ok then 2 else 3) t) s)
  else .next s

/-- CRY_RESERVED_OP (R385). -/
def execCryReservedOp (s : State) : Res :=
  .next (if cryRuns s (fun op => decide (5 ≤ op)) then cryResult 5 s else s)

/-- A job ends: RESULT, DONE, the permit, the notification (R385). -/
def cryEnd (r : Nat) (s : State) : State :=
  let s := ((s.put CRY.STAT.RESULT r).raise CRY.STAT.DONE).lower CRY.STAT.BUSY
  let s := if s.on CRY.STAT.PERMIT && !verifying s then dropPermit cryPermitReq s else s
  let s : State := { forgetBulk 8 (forgetBulk 9 (s.lower CRY.STAT.PERMIT)) with cry := none, cryStop := false }
  let e := s.get CRY.CTRL.NENG
  if s.get CRY.CTRL.NOTE = 1 ∧ e < 14 then
    s.modMsg (engOf e) (fun m => { m with edb := m.edb ||| BitVec.ofNat 32 (2 ^ s.get CRY.CTRL.NBIT) })
  else s

/-- CRY_DONE (R385): once every write of the job has left on the master port (R413). -/
def execCryDone (s : State) : Res :=
  match s.cry with
  | some r => .next (if s.on CRY.STAT.BUSY && !s.unsent cryReq true then cryEnd r s else s)
  | none => .next s

/-- A write of ABORT (R385): the job ends after the block of data in progress, at once where it waits for its permit; one whose last block
is done ends with its own result. -/
def cryAbort (s : State) : State :=
  if s.on CRY.STAT.BUSY && s.cry.isNone then (if cryWaits s then cryEnd 6 s else { s with cryStop := true }) else s

/-- CRY_ABORT (R385). -/
def execCryAbort (s : State) : Res := .next (cryAbort s)

end Sys2Proof.Machine
end

