-- ==== Sys2Proof/Machine/Tester.lean ====
section
/-! DEFINITION. Scratchpad handovers, semaphores from the host, error write-back, and the memory tester: granary tests and
scratchpad loans (R290-R313). -/

namespace Sys2Proof.Machine

open Reg

/-! ### Scratchpad ownership (R292) -/

/-- A write of SPi.OWNER by the host, ME0 or ME1. The value 0b11 cannot be written (R290). -/
def ownerWrite (i : Eng) (v : Nat) (s : State) : State :=
  if s.get (SP.OWNER.OWNER i) = 3 ∨ s.on (SP.OWNER.PEND i) then s.raise MEM.EVT.OWNBUSY
  else if v % 4 = 3 ∨ v % 4 = s.get (SP.OWNER.OWNER i) then s
  else (s.put (SP.OWNER.OWNER i) (v % 4)).raise (SP.OWNER.PEND i)

/-- SP_OWNER_WRITE (R292). -/
def execSpOwnerWrite (i : Eng) (v : BitVec 2) (s : State) : Res := .next (ownerWrite i v.toNat s)

/-- An untranslated access of the engine to its own scratchpad has been accepted and has not completed. -/
def ownAccess (s : State) (e : Eng) : Bool :=
  let x := s.engine e
  x.ag.toList.any (fun a => match a.flight with | some f => f.own | none => false) || x.posted.any (·.own)

/-- SP_HANDOVER_DONE (R292): once the accesses already accepted have completed, PEND falls. -/
def execSpHandoverDone (i : Eng) (s : State) : Res :=
  .next (if ownAccess s i then s else s.lower (SP.OWNER.PEND i))

/-! ### Semaphores from the host (R295-R297, R316) -/

/-- SEM_TAKE_READ (R316): a host read of SEM.TAKEk. -/
def execSemTakeRead (k : Fin 64) (s : State) : Res :=
  let (v, s) := semTake 14 k s
  .next { s with ans := ⟨stOkay, v⟩ }

/-- SEM_GIVE_WRITE (R316): a host write of SEM.GIVE. -/
def execSemGiveWrite (k : Fin 64) (s : State) : Res := .next { semGive 14 k s with ans := ⟨stOkay, 0⟩ }

/-- Semaphores named by a bit set are freed (R297). -/
def semForceAll (m : Nat) (s : State) : State :=
  (List.range 64).foldl (fun t k => if m.testBit k then semForce k t else t) s

/-- SEM_FORCE (R297): a write of SEM.FORCE_H:SEM.FORCE_L. -/
def execSemForce (m : BitVec 64) (s : State) : Res := .next (semForceAll m.toNat s)

/-! ### Error write-back (R298) -/

/-- ECC_WRITEBACK (R298): the codeword at address 8 × `k`, whose single-bit error a read has corrected, is written back. -/
def execEccWriteback (k : Nat) (s : State) : Res :=
  .next { s with ecc := s.ecc.filter (fun e => !(e.1 == k && !e.2)) }

/-! ### Granary tests (R303-R310) -/

/-- A granary test is called for: after GAPMS under CONTINUOUS, or recorded under SCHEDULED (R309, R310). -/
def testCalled (s : State) : Bool :=
  match s.get MEMT.CTRL.POLICY with
  | 1 => true
  | 2 => s.tester.queued
  | _ => false

/-- GRANARY_TEST_START (R304, R309): the test of the next logical bank asks for its permit; an untested spare is marched first
(R308). The phase begins when the permit is granted. In IDLE the tester pauses (R394). -/
def execGranaryTestStart (s : State) : Res :=
  if s.mode 0 != 0 || s.tester.test.isSome || s.get MEMT.SPARE.PBANK == 0x1F || !testCalled s || s.hasRequest testerReq then .next s
  else
    let l := s.get MEMT.STAT.NEXT % 16
    let pre := s.on MEMT.SPARE.UNTESTED
    let s := (s.put MEMT.STAT.LBANK l).put MEMT.STAT.NEXT ((l + 1) % 16)
    let s := s.modTester (fun t => { t with
      test := some l, phys := if pre then s.get MEMT.SPARE.PBANK else s.get (MEMT.MAP.PB l), pre := pre, queued := false
      offered := false })
    .next (askPermit testerReq (if pre then 1 else 0) s)

/-- The codeword lies in a logical bank. -/
def inBank (l k : Nat) : Bool := decide (0x1000000 + 0x80000 * l ≤ 8 * k ∧ 8 * k < 0x1000000 + 0x80000 * (l + 1))

/-- The copy's reads: single-bit errors are counted, recorded and corrected, double-bit ones recorded (R298, R305). -/
def copyReads (l : Nat) (s : State) : State :=
  let s := noteCe (0x1000000 + 0x80000 * l) 0x80000 s
  let s := (s.ecc.filter (fun e => e.2 && inBank l e.1)).foldl (fun t e => noteUe (8 * e.1) t) s
  { s with ecc := s.ecc.filter (fun e => e.2 || !inBank l e.1) }

/-- GRANARY_COPY_DONE (R306): the copy ends, the logical bank maps to the old spare, and the march asks for its permit; the phase
reads swap until it is granted. No bank is the spare until the release (log entry 24). -/
def execGranaryCopyDone (s : State) : Res :=
  match s.tester.test with
  | some l =>
    if s.get MEMT.STAT.PHASE = 1 ∧ testPermit s 0 = true then
      let s := copyReads l s
      let sp := s.get MEMT.SPARE.PBANK
      let s := s.modTester (fun t => { t with phys := s.get (MEMT.MAP.PB l) })
      let s := ((s.put (MEMT.MAP.PB l) sp).put MEMT.SPARE.PBANK 0x1F).put MEMT.STAT.PHASE 2
      .next (askPermit testerReq 1 (dropPermit testerReq s))
    else .next s
  | none => .next s

/-- A granary test is over: its permit or request goes, and an offer that waits may ask for its own. -/
def endTest (s : State) : State :=
  askLoan (dropPermit testerReq ((s.put MEMT.STAT.PHASE 0).modTester (fun t => { t with test := none, pre := false })))

/-- A bank is retired (R307). -/
def retireBank (p row : Nat) (s : State) : State :=
  let s := ((s.raiseBit MEMT.BAD.BAD p).put MEMT.FAILROW.ROW row).put MEMT.FAILROW.PBANK p
  (s.raise MEMT.EVT.BANKFAIL).put MEMT.SPARE.PBANK 0x1F

/-- GRANARY_MARCH_DONE (R307, R308): the march passes, or meets a mismatch in a row. -/
def execGranaryMarchDone (bad : Option (BitVec 15)) (s : State) : Res :=
  if s.tester.test.isNone || s.get MEMT.STAT.PHASE != 3 || !testPermit s 1 then .next s
  else
    let p := s.tester.phys
    match bad with
    | some row => .next (endTest ((retireBank p row.toNat s).lower MEMT.SPARE.UNTESTED))
    | none =>
      let s := s.put MEMT.PASS.CNT (s.get MEMT.PASS.CNT + 1)
      if s.tester.pre then
        let s := (s.lower MEMT.SPARE.UNTESTED).put MEMT.STAT.PHASE 0
        .next (askPermit testerReq 0 (dropPermit testerReq (s.modTester (fun t => { t with pre := false }))))
      else .next (endTest ((s.put MEMT.SPARE.PBANK p).raise MEMT.EVT.DONE))

/-- A test is abandoned: MGMT leaves RUN and IDLE, or POLICY becomes OFF (R308). -/
def abandonTest (s : State) : State :=
  if s.tester.test.isNone then s
  else if 2 ≤ s.get MEMT.STAT.PHASE ∧ s.tester.pre = false then
    endTest ((s.put MEMT.SPARE.PBANK s.tester.phys).raise MEMT.SPARE.UNTESTED)
  else endTest s

/-- A write of MEMT.CTRL.POLICY: the reserved value changes nothing, OFF abandons a test, and leaving SCHEDULED drops what
waits (R308-R310). -/
def policyWrite (v : Nat) (s : State) : State :=
  let old := s.get MEMT.CTRL.POLICY
  if v = 3 then s
  else
    let s := s.put MEMT.CTRL.POLICY v
    let s := if old = 2 ∧ v ≠ 2 then dropOffer (s.modTester (fun t => { t with queued := false, next := none })) else s
    if v = 0 then abandonTest (dropOffer s) else s

/-- MEMT_GRAN (R310). -/
def memtGran (s : State) : State :=
  let stopped := s.get MEMT.SPARE.PBANK == 0x1F && s.tester.test.isNone
  if s.get MEMT.CTRL.POLICY ≠ 2 ∨ stopped = true ∨ s.tester.queued = true then s.raise MEMT.EVT.CMDIGN
  else s.modTester (fun t => { t with queued := true })

/-- MEMT_GRAN (R310): a write of MEMT.CMD.GRAN. -/
def execMemtGran (s : State) : Res := .next (memtGran s)

/-! ### Scratchpad loans (R311-R313) -/

/-- A write of MEMT.CMD.SP (R310). -/
def memtSp (i : Nat) (s : State) : State :=
  if s.get MEMT.CTRL.POLICY ≠ 2 ∨ 13 < i then s.raise MEMT.EVT.CMDIGN
  else if s.on MEMT.STAT.LOAN || s.tester.offer.isSome then
    if s.tester.next.isSome then s.raise MEMT.EVT.CMDIGN else s.modTester (fun t => { t with next := some i })
  else makeOffer i s

/-- MEMT_SP (R310). -/
def execMemtSp (i : BitVec 4) (s : State) : Res := .next (memtSp i.toNat s)

/-- The engine whose turn comes next under CONTINUOUS: the first after the last one offered that the tester may test now (R309,
R311). -/
def nextOffer (s : State) : Option Nat := ((List.range 14).map (fun k => (s.tester.turn + 1 + k) % 14)).find? (lendable s)

/-- The tester takes a scratchpad (R311). -/
def takeScratchpad (i : Nat) (s : State) : State :=
  (((s.put (SP.OWNER.OWNER i) 3).raise MEMT.STAT.LOAN).put MEMT.STAT.LENG i).modTester (fun t => { t with offer := none })

/-- SCRATCHPAD_LOAN (R309, R311): the tester makes its next offer, drops one that no longer stands, or with its permit takes
the scratchpad. -/
def execScratchpadLoan (s : State) : Res :=
  if s.on MEMT.STAT.LOAN then .next s
  else
    match s.tester.offer with
    | none =>
      match nextOffer s with
      | some i => .next (if s.get MEMT.CTRL.POLICY = 1 ∧ s.tester.offered = false then makeOffer i s else s)
      | none => .next s
    | some i =>
      .next (if !lendable s i then dropOffer s else if testPermit s 2 then takeScratchpad i s else askLoan s)

/-! ### Parking and starting an engine (R359, R394, R395) -/

def State.modPower (s : State) (g : PowerSt → PowerSt) : State := { s with power := g s.power }

/-- A condition that takes an engine out of IDLE, or keeps it from entering (R395). -/
def wakeDue (s : State) (e : Eng) : Bool :=
  (s.takeable e).isSome || (s.engine e).haltReq.isSome || (s.engine e).boot && !(s.engine e).msg.queue.isEmpty

/-- An engine that runs parks, unless a wake condition holds (R395). -/
def parkEngine (s : State) (e : Eng) : State :=
  if s.engRuns e && s.up (engDom e) && !wakeDue s e then s.raiseBit PWR.EIDLE.ENG e else s

/-- The engines that a domain in IDLE parks, to be released when it returns to RUN (R394). -/
def idleEngines (l : List Eng) (s : State) : State :=
  let now := l.filter (fun e : Eng => !s.bit PWR.EIDLE.ENG e)
  let s := now.foldl parkEngine s
  s.modPower (fun x => { x with idled := x.idled ++ (now.filter (fun e : Eng => s.bit PWR.EIDLE.ENG e)).map (fun e : Eng => e.val) })

/-- An engine starts at an address with MASK 7, out of reset (R359); in a domain in IDLE its clock is gated (R394). The tester drops
its offer for it (R311). -/
def startEngine (e : Eng) (entry : Word) (s : State) : State :=
  let s := (s.modEng e (fun x => { x with boot := false, flow := { x.flow with pc := entry, xfer := none } })).raiseBit FLT.RUN.ENG e
  checkOffer (if s.mode (engDom e) = 1 then idleEngines [e] s else s)

/-- The rows of a scratchpad whose signature did not match are unreliable: which rows, what they hold and which of their
codewords carry an error are free values (R313, log entry 2). -/
def failRows (i : Nat) (s : State) : State :=
  let rows := s.freeVal 8192
  let data := s.took.freeVal (8192 * 128)
  let marks := s.took.took.freeVal (8192 * 4)
  let base := 0x600000 + 0x20000 * i
  let fails (a : Nat) : Bool := decide (base ≤ a ∧ a < base + 0x20000) && rows.getLsbD ((a - base) / 16)
  let bad := ((List.range 16384).filter (fun k => fails (base + 8 * k) && marks.getLsbD (2 * k))).map
    (fun k => (base / 8 + k, marks.getLsbD (2 * k + 1)))
  let s := ((List.range 8192).filter (fun r => rows.getLsbD r)).foldl
    (fun t r => { t with mem := memSetAll t.mem (base + 16 * r) (bytesLE 16 (data.extractLsb' (128 * r) 128).toNat) }) s.took.took.took
  { s with ecc := s.ecc.filter (fun e => !fails (8 * e.1)) ++ bad }

/-- LOAN_END (R312, R313): ownership returns, a mismatch is recorded, a restart held back takes place, and the offer recorded
behind the loan is made. -/
def execLoanEnd (mismatch : Bool) (s : State) : Res :=
  if !s.on MEMT.STAT.LOAN then .next s
  else
    let i := s.get MEMT.STAT.LENG
    let t := returnLoan i (s.lower MEMT.SPRES.ABORT)
    let t := if mismatch then failRows i ((t.raise MEMT.EVT.SPFAIL).put MEMT.SPRES.ENG i) else t
    .next (makeNext (match s.tester.restart with | some a => startEngine (engOf i) a t | none => t))

end Sys2Proof.Machine
end

