-- ==== Sys2Proof/Machine/Power.lean ====
section
/-! DEFINITION. Power modes: parking engines, mode requests, the power-controller handshake and wakes, and the events that the
firmware reports to the host (R360, R394-R399). -/

namespace Sys2Proof.Machine

open Reg

/-! ### Events for the host (R353, R360) -/

def State.chan (s : State) (c : Fin 4) : ChanSt := s.chans[c]

def State.modChan (s : State) (c : Fin 4) (g : ChanSt → ChanSt) : State := { s with chans := s.chans.set c (g s.chans[c]) }

/-- An event joins a channel's queue of unsent events; one that finds 16 is dropped (R360). -/
def queueEvent (code detail : Nat) (s : State) (c : Fin 4) : State :=
  s.modChan c (fun x => if 16 ≤ x.events.length then { x with lost := x.lost + 1 } else { x with due := x.due ++ [.event code detail] })

/-- The channels on which the events of a group are enabled (R353). -/
def eventChans (s : State) (group : Nat) : List (Fin 4) := (List.finRange 4).filter (fun c => (s.chan c).mask.getLsbD group)

/-- An event goes to every channel that has its group enabled; the group is the code's second byte. -/
def notifyHost (code detail : Nat) (s : State) : State :=
  (eventChans s (code / 256)).foldl (queueEvent code detail) s

/-- The POWER event (R406). -/
def powerEvent (dom mode : Nat) (refused pcto : Bool) (s : State) : State :=
  notifyHost 0x0981 (dom + 2 ^ 4 * mode + 2 ^ 8 * refused.toNat + 2 ^ 9 * pcto.toNat) s

/-! ### Parking (R395) -/

/-- ENGINE_PARK (R395): a write of PWR.EIDLE. -/
def execEnginePark (m : BitVec 14) (s : State) : Res := .next ((engMask m.toNat).foldl parkEngine s)

/-- ENGINE_WAKE (R395): a wake condition takes an engine out of IDLE, once a scratchpad loan has ended (R312); an offer for it is
dropped (R311). -/
def execEngineWake (e : Eng) (s : State) : Res :=
  .next (if s.bit PWR.EIDLE.ENG e && s.up (engDom e) && wakeDue s e && !onLoan s e then checkOffer (s.lowerBit PWR.EIDLE.ENG e)
    else s)

/-- The engines of a domain (R9, R11). -/
def domEngines (d : Nat) : List Eng := (List.finRange 14).filter (fun e : Eng => engDom e == d)

/-- The ports of a domain. -/
def domPorts (d : Nat) : List Port := (List.finRange 8).filter (fun p : Port => p.val / 2 + 1 == d)

/-- A domain's mode. -/
def setMode (d m : Nat) (s : State) : State := s.put (modeFld d) m

/-- The engines that a request has parked leave IDLE. -/
def releaseParked (l : List Nat) (s : State) : State := checkOffer (l.foldl (fun t e => t.lowerBit PWR.EIDLE.ENG e) s)

/-! ### Requests (R396) -/

/-- A request completes. -/
def requestDone (d m : Nat) (s : State) : State := powerEvent d m false false ((s.raise PWR.EVT.DONE).lower PWR.STAT.BUSY)

/-- A request is refused (R396). -/
def requestRefusedPwr (d m : Nat) (s : State) : State := powerEvent d m true false (s.raise PWR.EVT.REFUSED)

/-- A cluster is about to wake: its handshake is under way, or a wake event still has to wake it (R399). -/
def clusterWaking (s : State) : Bool :=
  s.power.wakes.any (fun d => d != 0) || (match s.power.pch with | some h => h.wake && h.dom != 0 | none => false)

/-- What refuses a request (R396): one for MGMT also while a cluster is about to run (R10). -/
def refusesMode (s : State) (d m : Nat) : Bool :=
  s.on PWR.STAT.BUSY || decide (4 < d) || decide (4 < m) || decide (0 < d ∧ m ≤ 1) && !s.up 0 ||
    decide (d = 0 ∧ 2 ≤ m) && ([1, 2, 3, 4].any s.up || clusterWaking s)

/-- A granary test that paused between two phases while MGMT was in IDLE goes on, once its permit is there (R304, R394). -/
def resumeTester (s : State) : State :=
  match s.permit.granted.find? (fun e => e.1 == testerReq) with
  | some e => beginPhase e s
  | none => s

/-- A change between RUN and IDLE (R397): IDLE parks the domain's engines, RUN releases those that it parked. -/
def changeRunIdle (d m : Nat) (s : State) : State :=
  let s := setMode d m s
  let s := if d = 0 then resumeTester s else s
  if m = 1 then idleEngines (domEngines d) s
  else
    let mine := s.power.idled.filter (fun e => engDom e == d)
    (releaseParked mine s).modPower (fun x => { x with idled := x.idled.filter (fun e => engDom e != d) })

/-- A request for RETAIN, DEEP or OFF begins (R396): ports are disabled, a memory test is abandoned, husk transactions end,
engines are to park. -/
def beginEntry (d m : Nat) (s : State) : State :=
  let s := (s.raise PWR.STAT.BUSY).modPower (fun x => { x with wait := some (d, m) })
  let s := (domPorts d).foldl (fun t p => disablePort p t) s
  let s := if d = 0 then abandonTest s else s
  (domEngines d).foldl (fun t e => abortHusk e t) s

/-- An engine has accesses that have not completed. -/
def accessesOut (s : State) (e : Eng) : Bool :=
  let x := s.engine e
  x.ag.toList.any (fun a => a.flight.isSome) || !x.posted.isEmpty || !x.ext.isEmpty || x.undo.isSome

/-- Engines of the domain that can park now do (R395, R396). -/
def parkDomain (d : Nat) (s : State) : State :=
  let now : List Eng := (domEngines d).filter (fun e : Eng => s.engRuns e && !s.parked e)
  let s := now.foldl parkEngine s
  s.modPower (fun x => { x with parked := x.parked ++ (now.filter (fun e : Eng => s.bit PWR.EIDLE.ENG e.val)).map (fun e : Eng => e.val) })

/-- The domain is ready for the handshake: its ports have drained, its engines are parked and their accesses complete. -/
def entryReady (s : State) (d : Nat) : Bool :=
  (domPorts d).all (fun p => !s.on (PX.STAT.ENACT p)) &&
    (domEngines d).all (fun e => (!s.engRuns e || s.parked e && !s.midBundle e || s.halted e) && !accessesOut s e)

/-- A handshake begins (R397). -/
def raiseReq (d m : Nat) (wake : Bool) (s : State) : State :=
  s.modPower (fun x => { x with pch := some ⟨d, m, wake, true⟩ })

/-- A request that takes MGMT down waits for its engines. -/
def mgmtFalls (s : State) : Bool := match s.power.wait with | some (d, m) => d == 0 && decide (2 ≤ m) | none => false

/-- The next domain that a wake event names, and that still sleeps, begins its handshake, once the handshake before it is over (R399). A
cluster waits while MGMT is about to sleep, and MGMT wakes before it (R10). -/
def nextWake (s : State) : State :=
  let s := s.modPower (fun x => { x with wakes := x.wakes.filter (fun d => !s.up d) })
  if s.power.pch.isSome || s.power.ack then s
  else
    match s.power.wakes with
    | d :: t =>
      if d ≠ 0 ∧ mgmtFalls s = true then s
      else if d ≠ 0 ∧ s.up 0 = false then raiseReq 0 0 true s
      else raiseReq d 0 true (s.modPower (fun x => { x with wakes := t }))
    | [] => s

/-- A request that waits goes on as far as it can: engines park, and the handshake begins (R396, R397). -/
def powerProceed (s : State) : State :=
  match s.power.wait with
  | some (d, m) =>
    let s := if s.up d then parkDomain d s else s
    if s.power.pch.isNone && !s.power.ack && (!s.up d || entryReady s d) then
      raiseReq d m false (s.modPower (fun x => { x with wait := none }))
    else s
  | none => nextWake s

/-- A domain is already to wake: a wake event has named it, or its handshake is under way. -/
def willWake (s : State) (d : Nat) : Bool :=
  s.power.wakes.contains d || (match s.power.pch with | some h => h.wake && h.dom == d | none => false)

/-- A write of PWR.REQ with GO (R396). Of a sleeping domain only ME0 and ME1 (`me`) may ask for a wake (R398); one that is to wake
already is not woken twice. -/
def powerRequest (me : Bool) (d m : Nat) (s : State) : State :=
  if refusesMode s d m || decide (m ≤ 1) && !s.up d && !me then requestRefusedPwr d m s
  else if s.mode d = m then requestDone d m s
  else if m ≤ 1 ∧ s.up d = true then requestDone d m (changeRunIdle d m s)
  else if m ≤ 1 then
    let s := (s.raise PWR.STAT.BUSY).modPower (fun x => { x with asked := some (d, m) })
    if willWake s d then s
    else if s.power.pch.isNone && !s.power.ack then raiseReq d m true s
    else s.modPower (fun x => { x with wakes := x.wakes ++ [d] })
  else powerProceed (beginEntry d m s)

/-- POWER_REQUEST (R396): by ME0 or ME1. -/
def execPowerRequest (d m : Fin 8) (s : State) : Res :=
  .next (powerRequest true d m ((s.put PWR.REQ.DOM d).put PWR.REQ.MODE m))

/-! ### The handshake (R397, R302, R119) -/

/-- Instruction caches, TLBs and tuns of a domain are not retained (R302). -/
def loseCaches (d : Nat) (s : State) : State :=
  let s := (domEngines d).foldl (fun t e => t.modXl e (fun x => { x with
    itlb := Tlb.empty, dtlb := Tlb.empty, lines := [], badLines := [], ahead := none, walk := none, walkFault := none, lineErr := none })) s
  let s := s.setL2 (if d = 0 then 4 else d - 1) Tlb.empty
  (domPorts d).foldl (fun t p => t.modPort p (fun x => { x with tun := [] })) s

/-- The deepest mode that a domain has been in since it last ran (R394). -/
def State.sleepDepth (s : State) (d : Nat) : Nat := max (s.mode d) ((lookup d s.power.depth).getD 0)

/-- The domain is in its new mode from PCH_ACK (R397): its time stops, unless nothing of it is kept (R119), and the wake timer
starts over (R398). Its bit lines go idle (R439). A memory test that has begun since the request ends too (R308). From a mode in which state is lost a domain may go to another, which keeps nothing more (log entry 21). -/
def enterSleep (d m : Nat) (s : State) : State :=
  let k := if s.up d then m else max m (s.sleepDepth d)
  let s := if d = 0 then abandonTest s else s
  let s := (List.finRange 8).foldl (fun t (k : Line) => if k.val / 2 + 1 = d then cutLine k t else t) s
  let s := loseCaches d (setMode d m s)
  let s := { s with stopped := s.stopped.filter (· != d) ++ (if k = 4 then [] else [d]) }
  requestDone d m (s.modPower (fun x => { x with timer := s.get PWR.WAKE.TICKS != 0, depth := insertAt d k x.depth }))

/-- A wake from RETAIN (R397, R398): every engine goes on where it stopped, those that the entry or an IDLE before it had parked
included. -/
def wakeRetained (d m : Nat) (s : State) : State :=
  let mine := (s.power.parked ++ s.power.idled).filter (fun e => engDom e == d)
  let s := releaseParked mine (setMode d m s)
  s.modPower (fun x => { x with
    parked := x.parked.filter (fun e => engDom e != d)
    idled := x.idled.filter (fun e => engDom e != d)
    depth := eraseAt d x.depth })

/-- An entry that times out: the request ends, and the engines that it parked go on (R397). -/
def entryTimesOut (h : PchSt) (s : State) : State :=
  let s := releaseParked (s.power.parked.filter (fun e => engDom e == h.dom)) (s.lower PWR.STAT.BUSY)
  s.modPower (fun x => { x with pch := none, parked := x.parked.filter (fun e => engDom e != h.dom) })

/-- A wake that times out: the domain is in reset, and its next wake finds nothing kept but what the always-on island saved (R119,
R397); a request for this wake ends. Without MGMT no cluster wakes (R10). -/
def wakeTimesOut (h : PchSt) (s : State) : State :=
  let k := if s.sleepDepth h.dom = 3 then 3 else 4
  let s := if s.power.asked.any (fun a => a.1 == h.dom) then
      (s.lower PWR.STAT.BUSY).modPower (fun x => { x with asked := none })
    else s
  let s := { s with stopped := if k = 3 then s.stopped else s.stopped.filter (· != h.dom) }
  s.modPower (fun x => { x with pch := none, depth := insertAt h.dom k x.depth, wakes := if h.dom = 0 then [] else x.wakes })

/-- PCH_TIMEOUT (R397): 1 ms has passed since PCH_REQ. -/
def execPchTimeout (s : State) : Res :=
  let s := powerProceed s
  match s.power.pch with
  | some h =>
    if h.req && !s.power.ack then
      let s := powerEvent h.dom h.mode false true (s.raise PWR.EVT.PCTO)
      .next (nextWake (if h.wake then wakeTimesOut h s else entryTimesOut h s))
    else .next s
  | none => .next s

/-- PCH_ACK_FALL (R397, R399): the handshake is over, and the next one may begin. -/
def execPchAckFall (s : State) : Res :=
  match s.power.pch with
  | some h => .next (if s.power.ack && !h.req then powerProceed (s.modPower (fun x => { x with pch := none, ack := false })) else s)
  | none => .next (if s.power.ack then powerProceed (s.modPower (fun x => { x with ack := false })) else s)

/-! ### Wake events (R398, R399) -/

/-- The domains that a wake event wakes, in order: MGMT first if it sleeps; from DEEP or OFF it brings every cluster with
it. -/
def wakeOrder (s : State) : List Nat :=
  let sel := ([0, 1, 2, 3, 4] : List Nat).filter (fun d => s.bit PWR.WAKESET.DOM d && !s.up d)
  if sel.isEmpty then []
  else if s.up 0 then sel
  else if 3 ≤ s.sleepDepth 0 then [0]
  else 0 :: sel.filter (· != 0)

/-- A wake event (R399). -/
def wakeEvent (s : State) : State :=
  let new := (wakeOrder s).filter (fun d => !willWake s d)
  nextWake (s.modPower (fun x => { x with wakes := x.wakes ++ new }))

/-- PCH_WAKE (R399). -/
def execPchWake (s : State) : Res := .next (wakeEvent s)

/-- WAKE_TIMER (R398). -/
def execWakeTimer (s : State) : Res :=
  .next (if s.power.timer then wakeEvent (s.modPower (fun x => { x with timer := false })) else s)

/-- GLB_WDOG_KICK (R393). -/
def kickBlock (s : State) : State := s.put GLB.WDOG.CNT.MS (s.get GLB.WDOG.PER.MS)

def execGlbWdogKick (s : State) : Res := .next (kickBlock s)

end Sys2Proof.Machine
end

