-- ==== Sys2Proof/Machine/TwinRole.lean ====
section
/-! DEFINITION. The roles of a twin unit: SBY and ADOPT in the private areas, epochs, fencing and takeover (R168, R169, R175,
R181, R183, R184). -/

namespace Sys2Proof.Machine

open Reg

/-- The ports of the twinned rings. -/
def twinPorts (s : State) : List Port := (List.finRange 8).filter (fun p : Port => twinned s (p.val / 2))

/-- The twin controller writes the role byte of every twinned port (R169). A byte that it cannot read counts as 0 (log entry 75). -/
def writeRoles (g : Byte → Byte) (s : State) : State :=
  (twinPorts s).foldl (fun t p =>
    let a := privAddr t p 0xC20
    hwStore a [g (BitVec.ofNat 8 ((hwLoad t a 1).getD 0))] (hwNote a 1 t)) s

/-- SBY has been set in ports: held classes return their unstarted descriptors (R175). -/
def holdQueues (ps : List Port) (s : State) : State :=
  ps.foldl (fun t p =>
    ((List.finRange 8).filter (fun c : Fin 8 => s.bit TWN.QHOLD.CLS c)).foldl (fun u c => returnClass p u c) t) s

/-- The role bytes of every twinned port hold the unit's SBY: rings newly twinned, and ports whose memory a wake or an erase has
emptied, take it here; where SBY is new, the held classes return their descriptors (R168, R169, R175). -/
def refreshRoles (s : State) : State :=
  let sby := sbyIn (twinState s)
  let new := (twinPorts s).filter (fun p => sby && !(roleByte s p).getLsbD 0)
  holdQueues new (writeRoles (fun v => (v &&& 2) ||| (if sby then 1 else 0)) s)

/-- SBY is set, and held classes return their unstarted descriptors; or SBY is cleared, and the hold lifts (R168, R175). -/
def setSby (b : Bool) (s : State) : State :=
  if b then holdQueues (twinPorts s) (writeRoles (· ||| 1) s) else writeRoles (· &&& 2) s

/-- The private area of a twinned port has moved: the role byte stands in its new place too (R168, R169). -/
def moveRole (p : Port) (role : Byte) (s : State) : State :=
  if twinned s (p.val / 2) then hwStore (privAddr s p 0xC20) [role] s else s

/-- ADOPT is set in every twinned port (R169). -/
def setAdopt (s : State) : State := writeRoles (· ||| 2) s

/-- The unit enters a pair state, with the SBY that goes with it (R168). -/
def enterTwin (st : Nat) (s : State) : State :=
  let was := sbyIn (twinState s)
  let s := s.put TWN.STAT.STATE st
  if was = sbyIn st then s else setSby (sbyIn st) s

/-- The ports whose private areas the firmware keeps for Tiller: those of twinned rings and of rings in service (R149). -/
def tillerPorts (s : State) : List Port :=
  (List.finRange 8).filter (fun p : Port => twinned s (p.val / 2) || s.on (TIL.RING.CTRL.EN (p.val / 2)))

/-- The unit's epoch, passed to every ring, and to the private areas by the firmware (R149, R181, R183). -/
def setEpoch (n : Nat) (s : State) : State :=
  let s := (List.finRange 4).foldl (fun t (r : Clu) => t.put (TIL.RING.EPOCH.EPOCH r) n) (s.put TWN.EPOCH.EPOCH n)
  (tillerPorts s).foldl (fun t p => hwStoreN (privAddr t p 0x3A4) 2 n t) s

/-- Epoch `a` is newer than epoch `b` (R135). -/
def epochNewer (a b : Nat) : Bool := let d := (a % 65536 + 65536 - b % 65536) % 65536; decide (1 ≤ d ∧ d ≤ 32767)

/-- Epoch `a` is older than epoch `b` (R135). -/
def epochOlder (a b : Nat) : Bool := decide (32768 ≤ (a % 65536 + 65536 - b % 65536) % 65536)

/-- An order for a handover, or one under way, is abandoned with HOFAIL (R186, R193). -/
def dropHandover (s : State) : State :=
  if s.twin.ordered || s.twin.handover.isSome then
    ({ s with twin := { s.twin with ordered := false, handover := none } }).raise TWN.EVT.HOFAIL
  else s

/-- The twin stream stops: nothing captured waits, and an image transfer ends with its permit (R184, R187). -/
def stopStream (s : State) : State :=
  let s := { s with capture := [], twin := { s.twin with pushing := false, marked := [], page := 0 } }
  dropPermit 10 s

/-- A unit in ACTIVE, SOLO or PUSH is fenced (R184); a handover that it had ordered is abandoned. -/
def fenceUnit (s : State) : State :=
  let st := twinState s
  if st == 2 || st == 4 || st == 5 then (stopStream (enterTwin 7 (dropHandover s))).raise TWN.EVT.FENCED else s

/-- The takeover of a standby (R181): region writes since the last CUT are dropped, the epoch moves on, and the unit becomes
SOLO. -/
def takeOver (s : State) : State :=
  let e := match s.twin.handover with
    | some (_, e, _) => e
    | none => s.get TWN.EPOCH.EPOCH + 1
  let s := { s with twin := { s.twin with batch := [], part := none, handover := none } }
  (enterTwin 5 (setEpoch e s)).raise TWN.EVT.TAKEOVER

/-- The partner is declared failed (R180). -/
def declareFailed (s : State) : State :=
  match twinState s with
  | 6 => takeOver s
  | 4 | 2 => (enterTwin 5 (stopStream (dropHandover s))).raise TWN.EVT.SBYLOST
  | 3 => (enterTwin 1 s).raise TWN.EVT.RESYNCFAIL
  | _ => s

end Sys2Proof.Machine
end

