-- ==== Sys2Proof/Machine/Tiller.lean ====
section
/-! DEFINITION. The rings of Tiller: addresses, frames, claims, numbering, layouts, the segment cycle, echo exchanges and
routing, with the parts that the manual gives to the Tiller firmware (file 05). -/

namespace Sys2Proof.Machine

open Reg

/-! ### Addresses (R128, R133, R145, R149, R171) -/

/-- The registers of the image's tables that the snapshot carries beside the routing table: the transmit windows of every line,
and the attributes of external memory (R187; log entry 71). -/
def snapFields : List Fld :=
  ((List.range 4).map (fun n => ((List.range 4).map (fun l =>
    [TTW.CTRL.DOM n l, TTW.PERIOD.NS n l, TTW.PHASE.NS n l, TTW.GUARD.NS n l] ++
      ((List.range 16).map (fun w => [TTW.W.OPEN.NS n l w, TTW.W.LEN.NS n l w])).flatten)).flatten)).flatten ++
  ((List.range 8).map (fun k => [RAM.BASE_L.EN k, RAM.BASE_L.DEV k, RAM.BASE_L.PA k, RAM.BASE_H.PA k, RAM.LIM_L.PA k,
    RAM.LIM_H.PA k])).flatten ++ [RAM.DEFAULT.DEV]

/-- The bytes of the configuration snapshot, at image offset 10 MiB: the node address of each ring, the routing table, and the
image's other tables (R187). -/
def snapshot (s : State) : List Byte :=
  ((List.finRange 4).map (fun r : Clu => bytesLE 4 ((hwLoad s (privAddr s (ringPort r false) 0x3A0) 4).getD 0))).flatten ++
    ((List.range 512).map (fun i => bytesLE 4 (s.get (TIL.RT.VALID i) + 2 * s.get (TIL.RT.LOCAL i) +
      4 * s.get (TIL.RT.RING i) + 16 * s.get (TIL.RT.NEXT i) + 2 ^ 16 * s.get (TIL.RT.METRIC i)))).flatten ++
    (snapFields.map (fun g => bytesLE 4 (s.get g))).flatten

/-- The image frame that carries the snapshot (R187, R191); the reads of the addresses leave their errors recorded (R298). -/
def sendSnapshot (s : State) : State :=
  (List.finRange 4).foldl (fun t (r : Clu) => hwNote (privAddr t (ringPort r false) 0x3A0) 4 t)
    (sendPt 0x15 (bytesBE 4 0xA00000 ++ padTo 8192 (snapshot s)) s)

/-- A new address of the active unit goes to its standby over PT (R171). The manual names no frame for it: the snapshot, which
holds the pair's addresses (log entry 71). Before the bulk pass has sent the snapshot, the pass itself brings the address. -/
def shareAddress (r : Clu) (s : State) : State :=
  if twinned s r && streams s && (twinState s == 4 || decide (1281 ≤ s.twin.page)) then sendSnapshot s else s

/-- The ring takes a node address, or gives it up; a numbered node other than the master contributes 1 to summation word 0, and
an unnumbered node keeps both its contributions at 0 (R133, R145, R149). The firmware of a master sets the base of its carry
buffer. -/
def setAddress (r : Clu) (a : Option Nat) (s : State) : State :=
  let v := a.getD 0
  let s := putPriv r 0x3A0 4 (v + if a.isSome then 2 ^ 31 else 0) (s.put (TIL.RING.STAT.NODE r) v)
  let s := putPriv r 0x3D0 8 (if a.isSome && v % 512 != 1 then 1 else 0) s
  let s := if a.isSome then s.modRing r (fun x => { x with seg := v / 512 }) else putPriv r 0x3D8 8 0 s
  let s := if a.isSome && v % 512 == 1 then putPriv r 0x41C 4 (s.ring r).carry s else s
  shareAddress r s

/-- The unit obeys SBY = 1 on a ring now (R169). -/
def ringSby (s : State) (r : Clu) : Bool := (roleByte s (ringPort r false)).getLsbD 0

/-- The ring returns to LISTEN, without an address (R139, R141). -/
def relisten (r : Clu) (s : State) : State :=
  setAddress r none ((setRingState r 1 s).modRing r (fun x => { x with seg := 0 }))

/-- A write of TIL.RINGr.CTRL.EN (R139). On the way into service the firmware copies the own epoch, the EtherType and the
factory ID into the private areas (R149). -/
def ringEnable (r : Clu) (en : Bool) (s : State) : State :=
  let was := s.on (TIL.RING.CTRL.EN r)
  let s := s.put (TIL.RING.CTRL.EN r) en.toNat
  if en then
    let s := putPriv r 0x3A4 2 (s.get (TIL.RING.EPOCH.EPOCH r)) s
    let s := putPriv r 0x410 8 s.fid (putPriv r 0x3A6 2 (s.get TIL.ETYPE.TYPE) s)
    if was then s else relisten r s
  else setAddress r none (setRingState r 0 s)

/-- RING_ENABLE (R139). -/
def execRingEnable (r : Clu) (en : Bool) (s : State) : Res := .next (ringEnable r en s)

/-- A write of RELISTEN (R139). -/
def ringRelisten (r : Clu) (s : State) : State := if ringState s r = 0 then s else relisten r s

/-- RELISTEN (R139). -/
def execRelisten (r : Clu) (s : State) : Res := .next (ringRelisten r s)

/-! ### Frames that the firmware sends (R130, R142, R145, R147) -/

/-- TIMEVALID of the master's frames (R158). -/
def timeValid (s : State) : Bool := !(unsync s 0) || (!(s.on TIL.TSRC.EN) && s.on TIL.TSRC.ROOT)

/-- FLAGS of a frame that this node sends: a master adds TIMEVALID (R130, R158). -/
def ringFlags (s : State) (r : Clu) (flags : Nat) : Nat :=
  flags + if ringState s r == 3 && timeValid s then 1 else 0

/-- A Tiller frame of a ring, without its FCS: type, DST, FLAGS and body. -/
def ringFrame (s : State) (r : Clu) (p : Port) (ty src dst flags : Nat) (body : List Byte) : List Byte :=
  bytesBE 6 (s.ring r).da.toNat ++ s.bytes (privAddr s p 0x1A0) 6 ++ bytesBE 2 (s.get TIL.ETYPE.TYPE) ++ [1] ++ bytesBE 1 ty ++
    bytesBE 3 src ++ bytesBE 3 dst ++ bytesBE 2 (s.get (TIL.RING.EPOCH.EPOCH r)) ++ bytesBE 6 (s.ring r).cycle.toNat ++
    bytesBE 2 (ringFlags s r flags) ++ body

/-- The firmware sends a frame on a port in service whose link is up. Under the window check it waits for a guarded span in which it
fits, and one that fits no used window is not sent, as R107 has it for a descriptor without LAUNCH (DESIGN CHOICE, log entry 76). -/
def sendRing (p : Port) (l : List Byte) (s : State) : State :=
  let f := withFcs (padTo 60 l)
  if s.on (PX.STAT.ENACT p) && s.bit GLB.MI.LINK.LINK p.val then
    match frameCheck s p (s.get (LP.STAT.RATE p)) (f.length - 4) 0 0 with
    | .ok => s.emit (.frame p.val f)
    | .wait => s.modPort p (fun x => { x with ringWait := x.ringWait ++ [f] })
    | .never => s
  else s

/-- DST of the SHEAF, CLAIM, SCOUT and LAYOUT frames that a node sends: every node of this segment (R128). The manual names none
(DESIGN CHOICE, log entry 70). -/
def everyNode : Nat := 511

/-- The claim of a ring, padded to the scout length (R142). SRC is 0: the node has no number (DESIGN CHOICE, log entry 70). -/
def sendClaim (r : Clu) (s : State) : State :=
  let p := ringPort r true
  let body := bytesBE 8 s.fid ++ bytesBE 2 (s.get (TIL.RING.CFG.SEG r)) ++ bytesBE 4 (s.get (TIL.RING.PERIOD.NS r))
  sendRing p (padTo 8224 (ringFrame s r p 2 0 everyNode 0 body)) s

/-- LISTEN_EXPIRY (R140, R142): the ring claims, or repeats its claim; a standby never claims (R171). -/
def execListenExpiry (r : Clu) (s : State) : Res :=
  let st := ringState s r
  if ringSby s r then .next s
  else if st = 1 && s.on (TIL.RING.CTRL.MCAP r) then .next (sendClaim r (setRingState r 2 s))
  else if st = 2 then .next (sendClaim r s)
  else .next s

/-- The block is a member or the master of the ring's segment: UNNUMBERED, MEMBER or MASTER (R139, R161). -/
def inSegment (s : State) (r : Clu) : Bool := decide (3 ≤ ringState s r ∧ ringState s r ≤ 5)

/-- A member or master in more than one segment is a router (R161). -/
def isRouter (s : State) : Bool := decide (1 < ((List.finRange 4).filter (fun r : Clu => inSegment s r)).length)

/-- A unit with a partner (R168). -/
def paired (s : State) : Bool := let st := twinState s; st == 2 || st == 4

/-- The scout entry of a node (R145). -/
def scoutEntry (s : State) (r : Clu) (p : Port) (moved : Bool) : List Byte :=
  let flags := (s.on (TIL.RING.CTRL.MCAP r)).toNat + 2 * (isRouter s).toNat + 4 * (paired s && twinned s r).toNat + 8 * moved.toNat
  bytesBE 8 s.fid ++ bytesBE 2 (s.load (privAddr s p 0x418) 2) ++ bytesBE 2 flags ++
    bytesBE 2 (s.get (TIL.RING.EPOCH.EPOCH r)) ++ [0, 0]

/-- The body of the scout that a master sends (R145). -/
def scoutBody (s : State) (r : Clu) (p : Port) : List Byte :=
  bytesBE 2 1 ++ bytesBE 2 (s.get (TIL.RING.CFG.SEG r)) ++ List.replicate 28 0 ++ scoutEntry s r p false

/-- The master sends a numbering scout, or a check scout (R145). -/
def sendScout (r : Clu) (renum : Bool) (s : State) : State :=
  if ringState s r = 3 && !(ringSby s r) then
    let p := ringPort r true
    let l := ringFrame s r p 3 (ownAddr s p) everyNode (if renum then 4 else 0) (scoutBody s r (ringPort r false))
    sendRing p (padTo 8224 l) s
  else s

/-- RENUM (R145). -/
def execRenum (r : Clu) (s : State) : Res := .next (sendScout r true s)

/-- CHECK (R145). -/
def execCheck (r : Clu) (s : State) : Res := .next (sendScout r false s)

/-- CHECK_SCOUT_TIMER (R145). -/
def execCheckScoutTimer (r : Clu) (s : State) : Res := .next (sendScout r false s)

/-- SHEAF_LOSS (R141, R154): LOSS periods have passed without a SHEAF. -/
def execSheafLoss (r : Clu) (s : State) : Res :=
  let st := ringState s r
  if st = 4 ∨ st = 5 then .next (ringEvent r 4 (relisten r s))
  else if st = 3 then .next (ringEvent r 4 s)
  else .next s

/-! ### Layouts (R132, R146, R147) -/

/-- The number of summation words that the master of a ring uses: its firmware's configuration, 2 to 8 (R132). -/
def sums (s : State) (r : Clu) : Nat := max 2 (min 8 (s.ring r).sums)

/-- The frame offset of the first slot (R132). -/
def firstSlot (s : State) (r : Clu) : Nat := 64 + 8 * sums s r

/-- The frame offset, node and length of each slot, from the offset of the first (R132). -/
def slotOffsets : Nat → List (Nat × Nat) → List (Nat × Nat × Nat)
  | _, [] => []
  | o, (n, l) :: t => (o, n, l) :: slotOffsets (o + 8 + l) t

/-- Length of the SHEAF of a layout without its FCS (R132). -/
def sheafLen (s : State) (r : Clu) (slots : List (Nat × Nat)) : Nat := firstSlot s r + (slots.map (fun x => 8 + x.2)).sum

/-- The slots that a scout's entries ask for (R146): address and length, in ring order. -/
def requestedSlots (seg : Nat) (reqs : List Nat) : List (Nat × Nat) :=
  ((List.range reqs.length).map (fun i => (seg * 512 + i + 1, (reqs.getD i 0 + 7) / 8 * 8))).filter (fun x => x.2 != 0)

/-- The base of the carry buffer's half in cluster memory (R149, R153). -/
def carryBase (s : State) (r : Clu) (half : Nat) : Nat :=
  let p := ringPort r false
  cluAddr r (s.load (privAddr s p 0x41C) 4 % 2 ^ 19 + 32768 * half)

/-- The master builds a SHEAF of a layout in the source half: every slot without valid data (R132, R134, R147). -/
def buildSheaf (r : Clu) (version : Nat) (slots : List (Nat × Nat)) (s : State) : State :=
  let p := ringPort r false
  let own := ownAddr s p
  let body := List.replicate 18 0 ++ bytesBE 2 version ++ bytesBE 2 slots.length ++ bytesBE 2 (sums s r) ++
    bytesBE 4 (s.get (TIL.RING.PERIOD.NS r)) ++ List.replicate (4 + 8 * sums s r) 0 ++
    (slots.map (fun x => bytesBE 3 x.1 ++ [0xFF, 0, 0] ++ bytesBE 2 x.2 ++ List.replicate x.2 0)).flatten
  let s := twinWrite (carryBase s r (s.ring r).half) (ringFrame s r p 1 own everyNode 0 body) s
  s.modRing r (fun x => { x with built := true, version := version, slots := slots })

/-- The words of a bank of port A's wire-program memory: a program, or nothing. -/
def fillBank (r : Clu) (bank : Nat) (ops : List Nat) (s : State) : State :=
  let rest (m : List (Nat × Nat)) : List (Nat × Nat) := m.filter (fun e => decide (¬(1024 * bank ≤ e.1 ∧ e.1 < 1024 * bank + 1024)))
  let fill (m : List (Nat × Nat)) : List (Nat × Nat) :=
    (List.range ops.length).foldl (fun m i => putAt 0 (1024 * bank + i) (ops.getD i 0) m) m
  s.modPort (ringPort r false) (fun x => { x with wpm := fill (rest x.wpm) })

/-- The bank of port A's wire-program memory that WPBANK does not name. -/
def idleBank (s : State) (r : Clu) : Nat := 1 - s.get (WSQ.CTRL.WPBANK (ringPort r false))

/-- The wire program for a layout goes into the inactive bank of port A; its own slot is entry 0 of the slot table, which is
written when the bank changes (R147, R149). A member's program works on its own slot only: which slots it reads is the
licensee's. -/
def stageProgram (r : Clu) (master : Bool) (own : Option (Nat × Nat)) (s : State) : State :=
  let ops :=
    if master then [0x60000003, 0x65000000, 0x01000000, 0x66000000, 0x06000000, 0x01000000]
    else [0x60000000, 0x61000000, 0x62000000, 0x62000001] ++ (if own.isSome then [0x64000000] else []) ++ [0x06000000, 0x01000000]
  (fillBank r (idleBank s r) ops s).modRing r (fun x => { x with staged := some own })

/-- A staged program is dropped, and the contribution to word 1 returns to 0 (R147). -/
def dropStaged (r : Clu) (s : State) : State :=
  let s := if (s.ring r).staged.isSome then fillBank r (idleBank s r) [] s else s
  putPriv r 0x3D8 8 0 (s.modRing r (fun x => { x with staged := none }))

/-- The master takes up the layout that a numbering scout asked for, unless it has no slot, its frame does not fit or it is the
one in force (R132, R146, R147). -/
def orderLayout (r : Clu) (slots : List (Nat × Nat)) (s : State) : State :=
  let x := s.ring r
  if slots.isEmpty || slots == x.slots || decide (32768 < sheafLen s r slots + 4) then s
  else
    let own := (slotOffsets (firstSlot s r) slots).find? (fun e => e.2.1 == ownAddr s (ringPort r false))
    let s := stageProgram r true (own.map (fun e => (e.1, e.2.2))) s
    s.modRing r (fun y => { y with change := some (y.version + 1, slots, false), next := false, sent := false })

/-- A LAYOUT frame (R147). -/
def sendLayout (r : Clu) (version : Nat) (slots : List (Nat × Nat)) (s : State) : State :=
  let p := ringPort r true
  let entry (e : Nat × Nat × Nat) : List Byte := bytesBE 3 e.2.1 ++ [0] ++ bytesBE 2 e.1 ++ bytesBE 2 e.2.2
  let body := bytesBE 2 version ++ bytesBE 2 slots.length ++ bytesBE 2 (sums s r) ++ List.replicate 26 0 ++
    ((slotOffsets (firstSlot s r) slots).map entry).flatten
  sendRing p (ringFrame s r p 4 (ownAddr s p) everyNode 0 body) s

/-- LAYOUT_TIMEOUT (R147): word 1 has not reached NODES in time, and the change is abandoned. -/
def execLayoutTimeout (r : Clu) (s : State) : Res :=
  match (s.ring r).change with
  | some (_, _, false) => .next (ringEvent r 13 (s.modRing r (fun x => { x with change := none, next := false, sent := false })))
  | _ => .next s

/-! ### The launch (R150, R151) -/

/-- The change of layout takes effect once a SHEAF has carried NEXTLAYOUT (R147): bank switch, new frame, LAYOUT. -/
def newLayout (r : Clu) (s : State) : State :=
  let x := s.ring r
  match x.change with
  | some (v, slots, true) =>
    if x.sent then
      let s := buildSheaf r v slots (takeStaged r s)
      ringEvent r 8 (s.modRing r (fun y => { y with change := none, next := false, sent := false }))
    else sendLayout r v slots (s.modRing r (fun y => { y with next := true }))
  | some (v, slots, false) => sendLayout r v slots s
  | none => s

/-- The firmware puts a descriptor at the tail of queue 7 of a port, if there is room: its index, and what it leaves (R81). -/
def postDesc (p : Port) (addr len ctrl stamp : Nat) (s : State) : Option (Nat × State) :=
  let count := s.get (PQ.TX.CFG.COUNT p 7)
  let tail := s.get (PQ.TX.TAIL.TAIL p 7)
  if count = 0 ∨ (tail + 1) % max 1 count = s.get (PQ.TX.HEAD.HEAD p 7) then none
  else
    let s := hwStore (descAddr s p 7 tail) (bytesLE 4 addr ++ bytesLE 2 len ++ [BitVec.ofNat 8 ctrl, 0] ++ bytesLE 6 stamp ++ [0, 0]) s
    some (tail, s.put (PQ.TX.TAIL.TAIL p 7) ((tail + 1) % count))

/-- The launch descriptor of a SHEAF goes into queue 7 of port A, with LAUNCH and THRU set, if there is room. -/
def postLaunch (r : Clu) (t : Nat) (s : State) : State :=
  let x := s.ring r
  match postDesc (ringPort r false) (carryBase s r x.half) (sheafLen s r x.slots) 0x83 t s with
  | some (_, s) => s
  | none => s

/-- SHEAF_LAUNCH (R147, R150, R151): a cycle of the segment starts, at the last multiple of PERIOD in domain 0. Every ring in
service counts the start; the active master launches. -/
def execSheafLaunch (r : Clu) (s : State) : Res :=
  if ringState s r = 0 then .next s
  else
    let s := s.modRing r (fun x => { x with cycle := x.cycle + 1 })
    if ringState s r = 3 && !(ringSby s r) then
      let period := max 1 (s.get (TIL.RING.PERIOD.NS r))
      let t := (s.dom 0).ns / period * period * 2 ^ 18
      let s := s.modRing r (fun x => { x with launch := t, prior := x.launch })
      let s := if (s.ring r).built then newLayout r s else buildSheaf r (s.ring r).version (s.ring r).slots s
      .next (postLaunch r t s)
    else .next s

/-! ### Echo exchanges (R155, R156) -/

/-- A time in units of 2^-16 ns since the epoch of its domain. -/
def units16 (hi lo : Word) : Nat := hi.toNat * 1000000000 * 65536 + lo.toNat / 4

/-- The nearest whole number to a fraction. -/
def roundDiv (n d : Int) : Int := (2 * n + d) / (2 * d)

/-- The link delay in units of 2^-16 ns: the mean of the exchanges plus half of ASYM (R156). -/
def linkDelay (s : State) (r : Clu) : Int :=
  let e := (s.ring r).echoes
  let n : Int := e.length
  let asym := toSigned 32 (s.get (TIL.RING.ASYM.PS r))
  roundDiv (e.sum * 1000 + n * asym * 65536) (2000 * max n 1)

/-- LINK as the private area holds it (R149). -/
def linkReg (s : State) (p : Port) : Int := toSigned 64 (s.load (privAddr s p 0x3A8) 8)

/-- A complete exchange enters the estimate (R156). -/
def addExchange (r : Clu) (t1 t2 t3 t4 : Nat) (s : State) : State :=
  let twice : Int := ((t4 : Int) - t1) - ((t3 : Int) - t2)
  let s := s.modRing r (fun x => { x with echoes := (twice :: x.echoes).take 256 })
  let l := linkDelay s r
  let s := putPriv r 0x3A8 8 (BitVec.ofInt 64 l).toNat s
  s.put (TIL.RING.LINK.PS r) (BitVec.ofInt 32 (roundDiv (l * 1000) 65536)).toNat

/-- The upstream node of a numbered node: the one before it in the ring, for node 1 the last one (R128). -/
def upstream (s : State) (r : Clu) : Nat :=
  let a := ownAddr s (ringPort r false)
  if a % 512 = 1 then a / 512 * 512 + s.get (TIL.RING.NODES.N r) + 1 else a - 1

/-- The downstream unit of a pair: the link between the two units is upstream of it (R172, R173). -/
def belowPartner (s : State) (r : Clu) : Bool :=
  let st := twinState s
  twinned s r && (st == 2 || st == 3 || st == 4 || st == 6) && !(Config.facesRing r)

/-- SRC and DST of an echo request (R155, R172): to the upstream node, or inside the pair from node field 0. -/
def echoEnds (s : State) (r : Clu) : Nat × Nat :=
  let a := ownAddr s (ringPort r false)
  if belowPartner s r then (a / 512 * 512, a) else (a, upstream s r)

/-- The firmware sends an echo frame from its buffer for the port, through queue 7 (R155, R175): the index of its descriptor. -/
def sendEcho (r : Clu) (b : Bool) (l : List Byte) (s : State) : Option (Nat × State) :=
  let a := (s.ring r).echoBuf + 64 * b.toNat
  match postDesc (ringPort r b) (cluAddr r a) 60 0x80 0 s with
  | some (i, t) => some (i, hwStore (cluAddr r a) (padTo 60 l) t)
  | none => none

/-- ECHOREQ (R155): port A of a numbered ring asks upstream; an exchange older than four requests is dropped. -/
def execEchoreq (r : Clu) (s : State) : Res :=
  let p := ringPort r false
  let st := ringState s r
  if (st = 3 ∨ st = 5) && numbered s p then
    let n := ((s.ring r).echoSeq + 1) % 65536
    let s := s.modRing r (fun x => { x with echoSeq := n, exchanges := ((n, none, none) :: x.exchanges).take 4 })
    match sendEcho r false (ringFrame s r p 5 (echoEnds s r).1 (echoEnds s r).2 0 (bytesBE 2 n)) s with
    | some (i, s) => .next (s.modRing r (fun x => { x with echoTx := some (n, i) }))
    | none => .next s
  else .next s

/-- The upstream node answers an echo request on port B (R155), inside a pair in kind (R172): the request's number and receive
stamp, and the previous reply's number and transmit stamp. -/
def answerEcho (r : Clu) (n src : Nat) (rx : Stamp) (s : State) : State :=
  let p := ringPort r true
  let a := ownAddr s p
  let ends := if src % 512 = 0 then (a / 512 * 512, a) else (a, src)
  match sendEcho r true (ringFrame s r p 6 ends.1 ends.2 0 (bytesBE 2 n ++ tsiBytes rx 0 ++ (s.ring r).reply)) s with
  | some (i, s) => s.modRing r (fun x => { x with replyTx := some (n, i) })
  | none => s

/-- A transmit stamp with the second it lies in: the domain's own, or the one before where the stamp is still ahead. -/
def stampSecond (d : TimeDom) (lo : Word) : Stamp := ⟨if d.lo.toNat < lo.toNat then d.hi - 1 else d.hi, lo, d.adj⟩

/-- The descriptor of an echo frame has returned: a transmit stamp gives t1 of a request, or t3 of a reply (R100, R155). -/
def echoSent (r : Clu) (b : Bool) (idx status : Nat) (lo : Word) (s : State) : State :=
  let x := s.ring r
  let st := stampSecond (s.dom 0) lo
  match if b then x.replyTx else x.echoTx with
  | some (n, i) =>
    if i ≠ idx then s
    else if b then
      s.modRing r (fun y => { y with replyTx := none, reply := if status = 0 then bytesBE 2 n ++ tsiBytes st 0 else y.reply })
    else
      s.modRing r (fun y => { y with echoTx := none, exchanges := y.exchanges.map (fun e =>
        if e.1 = n ∧ status = 0 then (n, some (units16 st.hi st.lo), e.2.2) else e) })
  | none => s

/-- The end of a queue 7 frame on a ring port: the firmware takes the stamp of its echo frames from the descriptor. -/
def noteEcho (p : Port) (t : TxFrame) (s : State) : State :=
  let r := cluOf p
  let b := p == ringPort r true
  if t.cls = 7 ∧ t.addr = cluAddr r ((s.ring r).echoBuf + 64 * b.toNat) then
    let a := descAddr s p 7 t.idx
    echoSent r b t.idx (s.byte (a + 7)).toNat (BitVec.ofNat 48 (s.load (a + 8) 6)) s
  else s

/-- TX_COMPLETE (R81, R155): of the frame the transmit MAC sends, or of the THRU frame that has entered the pipeline. -/
def execTxComplete (p : Port) (s : State) : Res :=
  match (s.port p).tx with
  | some t => .next (noteEcho p t (txComplete p s))
  | none => .next (txComplete p s)

/-- A timestamp in format 0b00 as units of 2^-16 ns. -/
def stampUnits (l : List Byte) : Nat := (natBE (l.take 6) * 1000000000 + natBE ((l.drop 6).take 4)) * 65536

/-- A reply arrives on port A (R155, R156): t2 and t4 of its own number, t3 of the previous one. -/
def takeReply (r : Clu) (body : List Byte) (rx : Stamp) (s : State) : State :=
  let n := natBE (body.take 2)
  let q := natBE ((body.drop 12).take 2)
  let t2 := stampUnits (body.drop 2)
  let t3 := stampUnits (body.drop 14)
  let t4 := units16 rx.hi rx.lo
  let s := s.modRing r (fun x => { x with exchanges := x.exchanges.map (fun e =>
    if e.1 = n then (e.1, e.2.1, some (t2, t4)) else e) })
  match (s.ring r).exchanges.find? (fun e => e.1 == q) with
  | some (_, some t1, some (t2, t4)) =>
    let s := s.modRing r (fun x => { x with exchanges := x.exchanges.filter (fun e => e.1 != q) })
    addExchange r t1 t2 t3 t4 s
  | _ => s

/-- DST names this node (R128, R131). -/
def forNode (s : State) (p : Port) (f : Frame) : Bool :=
  let d := f.num 19 3 % 2 ^ 18
  let seg := d / 512
  numbered s p && d % 512 == ownAddr s p % 512 && (seg == 0 || seg == 511 || seg == ownAddr s p / 512)

/-- The reply comes from the node that this unit asks: its upstream node, or inside the pair node field 0 (R155, R172). -/
def fromAsked (s : State) (r : Clu) (src : Nat) : Bool :=
  if belowPartner s r then src % 512 == 0 else src == upstream s r

/-- The firmware acts on a queued echo frame for this node that has a good FCS (R155, R172). -/
def echoFrame (p : Port) (f : Frame) (s : State) : State :=
  let r := cluOf p
  if !(isTiller s f && forNode s p f && f.fate.verdict == some true) then s
  else if f.byte 15 == 5 && p == ringPort r true then
    answerEcho r (f.num 32 2) (f.num 16 3 % 2 ^ 18) (f.stamps[(0 : Fin 4)]) s
  else if f.byte 15 == 6 && p == ringPort r false && fromAsked s r (f.num 16 3 % 2 ^ 18) then takeReply r (f.slice 32 24) (f.stamps[(0 : Fin 4)]) s
  else s

/-- RX_QUEUE_VISIBLE (R78): the queue copies of a frame whose end, verdict and program end are known. The firmware of a ring in
service answers an echo frame in queue 0 (R155). -/
def execRxQueueVisible (p : Port) (s : State) : Res :=
  match visibleFrame s p with
  | none => .next s
  | some f =>
    let t := showQueued p f s
    .next (if f.ques.any (fun c => c.q == 0) && !(queueFull s p 0) && ringState s (cluOf p) != 0 then echoFrame p f t else t)

/-! ### Routing (R161-R163) -/

/-- The firmware of a router copies a slot from the input image of one ring, which it has taken, to the output image of another
(R161). A slot that it cannot read stays as it is. -/
def copyRoute (r : Clu) (s : State) (x : Route) : State :=
  let p := ringPort r false
  let q := ringPort x.dst false
  let a := inBuf s p (s.get (PI.INROLE.HELD p)) + 16 + x.src
  if s.readable a x.len then
    hwStore (outBuf s q (s.get (PI.OUTROLE.FILL q)) + 16 + x.out) (s.bytes a x.len) (hwNote a x.len s)
  else hwNote a x.len s

/-- New cyclic data of a ring goes to the other rings of a router: all its slots, and then each ring that has taken one publishes. -/
def copyRoutes (r : Clu) (s : State) : State :=
  let xs := (s.ring r).routes
  if isRouter s && inSegment s r && !xs.isEmpty then
    let s := xs.foldl (copyRoute r) (takeImage s (ringPort r false))
    ((List.finRange 4).filter (fun d : Clu => xs.any (fun x => x.dst == d))).foldl (fun t d => publishOwn (ringPort d false) t) s
  else s

/-- BUFFER_COMMIT (R73, R161). -/
def execBufferCommit (p : Port) (s : State) : Res :=
  let t := bufferCommit p s
  .next (if p == ringPort (cluOf p) false && s.get (PI.INROLE.READY p) != t.get (PI.INROLE.READY p) then copyRoutes (cluOf p) t else t)

/-- A routed frame goes out on a ring, ring-direction (R163). -/
def sendRouted (r : Clu) (dst : Nat) (body : List Byte) (s : State) : State :=
  let p := ringPort r true
  sendRing p (ringFrame s r p 7 (ownAddr s p) dst 0 body) s

/-- ROUTED_FORWARD (R163): the firmware of a router acts on a ROUTED frame that ring `r` brought to this node. `body` is the
frame from offset 32. A final DST in this node's own segment and node field is the router's own: nothing is forwarded. -/
def execRoutedForward (r : Clu) (body : List Byte) (s : State) : Res :=
  let final := natBE (body.take 3) % 2 ^ 18
  let seg := final / 512
  let hops := (body.getD 6 0).toNat - 1
  let out := body.take 6 ++ bytesBE 1 hops ++ body.drop 7
  let mine := (List.finRange 4).any (fun q : Clu =>
    ownAddr s (ringPort q false) == final && numbered s (ringPort q false))
  if !(isRouter s) || mine then .next s
  else if hops = 0 then .next (ringEvent r 11 s)
  else if seg = 511 then
    .next (((List.finRange 4).filter (fun q : Clu => q != r && inSegment s q)).foldl
      (fun t q => sendRouted q (ownAddr t (ringPort q false) / 512 * 512 + final % 512) out t) s)
  else if s.on (TIL.RT.VALID seg) && seg != 0 then
    let q : Clu := Fin.ofNat 4 (s.get (TIL.RT.RING seg))
    let dst := if s.on (TIL.RT.LOCAL seg) then final
      else ownAddr s (ringPort q false) / 512 * 512 + s.get (TIL.RT.NEXT seg)
    .next (sendRouted q dst out s)
  else .next (ringEvent r 11 s)

end Sys2Proof.Machine
end

