-- ==== Sys2Proof/Machine/Twin.lean ====
section
/-! DEFINITION. The twin controller's commands: pairing, heartbeats, the state stream, takeover, planned handover and
resynchronization (file 06). A received frame is given with its FCS. -/

namespace Sys2Proof.Machine

open Reg

/-! ### Received frames (R179, R191, R192) -/

/-- A frame of a type, well formed and with a good FCS (R191). -/
def ptGood (s : State) (ty : Nat) (f : List Byte) : Bool :=
  let n := f.length
  decide (64 ≤ n ∧ n ≤ 8244) && natLE (f.drop (n - 4)) == (fcs (f.take (n - 4))).toNat &&
    natBE ((f.drop 12).take 2) == s.get TIL.ETYPE.TYPE && f.getD 14 0 == 1 && (f.getD 15 0).toNat == ty

/-- A field of a frame. -/
def ptNum (f : List Byte) (o n : Nat) : Nat := natBE ((f.drop o).take n)

/-- The frame comes from this unit's partner: PAIRID and FID. -/
def fromPeer (s : State) (f : List Byte) : Bool :=
  ptNum f 16 2 == s.get TWN.PAIRID.ID && ptNum f 20 8 == s.get TWN.PEERFID_L.FID + 2 ^ 32 * s.get TWN.PEERFID_H.FID

def modTwin (g : TwinSt → TwinSt) (s : State) : State := { s with twin := g s.twin }

/-- The unit becomes the puller. -/
def enterPull (s : State) : State :=
  enterTwin 3 (modTwin (fun t => { t with
    batch := [], part := none, page := 0, began := none, quiet := 0, missed := 0 }) (dropHandover s))

/-- A frame was lost on PT (R192): what is incomplete is discarded; the standby asks for an image and pulls; a puller asks for the
image from its first page. -/
def ptLoss (s : State) : State :=
  let s := modTwin (fun t => { t with expect := none, part := none }) s
  match twinState s with
  | 6 => enterPull (sendPt 0x19 [] s)
  | 3 => sendPt 0x19 [] (modTwin (fun t => { t with batch := [], page := 0 }) s)
  | _ => s

/-- The header's SEQ is checked and remembered (R192). -/
def ptSequence (f : List Byte) (s : State) : State :=
  let n : BitVec 32 := BitVec.ofNat 32 (ptNum f 28 4)
  let s := match s.twin.expect with
    | some e => if e = n then s else ptLoss s
    | none => s
  modTwin (fun t => { t with expect := some (n + 1) }) s

/-- Act on a good frame of a type from the partner; any other is discarded (R191). -/
def onFrame (ty : Nat) (f : List Byte) (g : State → State) (s : State) : Res :=
  .next (if ptGood s ty f && fromPeer s f then g (ptSequence f s) else s)

/-! ### Pairing (R166, R170, R185) -/

/-- The unit becomes the pusher: the image starts again, and its permit is asked for (R187). A handover that was ordered is
abandoned (R186). -/
def enterPush (s : State) : State :=
  let s := modTwin (fun t => { t with pushing := false, page := 0, marked := [], quiet := 0, missed := 0 }) (dropHandover { s with capture := [] })
  askPermit 10 0 (enterTwin 2 s)

/-- A write of TWN.CTRL.LEVEL (R166). -/
def writeLevel (v : Nat) (s : State) : State :=
  if v = 3 then s
  else
    let s := s.put TWN.CTRL.LEVEL v
    if v = 0 then enterTwin 0 (stopStream (dropHandover s))
    else if twinState s = 0 then enterTwin 1 s
    else s

/-- TWIN_LEVEL_WRITE (R166). -/
def execTwinLevelWrite (v : BitVec 2) (s : State) : Res := .next (writeLevel v.toNat s)

/-- The HELLO of the unit (R191). -/
def sendHello (s : State) : State :=
  let flags := s.get TWN.STAT.DBGOPEN + 2 * s.get TWN.CTRL.SOLOOK
  sendPt 0x10 (bytesBE 1 (twinState s) ++ bytesBE 1 flags ++ bytesBE 1 (s.get TWN.CTRL.RINGS) ++ [0] ++
    bytesBE 4 (s.get GLB.BOOT.IMGVER.VER)) s

/-- HELLO_SEND (R168). A SOLO unit sends it as well: a FENCED unit and a unit in SEEK wait for it (R170, R185). -/
def execHelloSend (s : State) : Res :=
  let st := twinState s
  .next (if st = 1 ∨ st = 5 then sendHello s else s)

/-- The sender of a HELLO may pair with this unit (R170). A unit that is debug-unlocked itself pairs with none, since every
partner refuses it (R190). -/
def helloAccepted (s : State) (f : List Byte) : Bool :=
  ptNum f 16 2 == s.get TWN.PAIRID.ID && ptNum f 34 1 == s.get TWN.CTRL.RINGS && ptNum f 36 4 == s.get GLB.BOOT.IMGVER.VER &&
    !(f.getD 33 0).getLsbD 0 && !(s.on TWN.STAT.DBGOPEN)

/-- The partner's factory ID (R193): this unit is the one it pairs with. -/
def notePeer (f : List Byte) (s : State) : State :=
  modTwin (fun t => { t with agreed := true })
    ((s.put TWN.PEERFID_H.FID (ptNum f 20 4)).put TWN.PEERFID_L.FID (ptNum f 24 4))

/-- No partner's factory ID is known. -/
def noPeer (s : State) : Bool := s.get TWN.PEERFID_L.FID == 0 && s.get TWN.PEERFID_H.FID == 0

/-- HELLO_RECEIVE (R170, R185): a unit that is active answers a seeking one with its own HELLO and pushes. A fenced unit takes the
HELLO of an active unit that passes the checks of R170 for its successor's, whatever partner it knew before (DEDUCED, log entry
71). -/
def execHelloReceive (f : List Byte) (s : State) : Res :=
  if !(ptGood s 0x10 f) then .next s
  else
    let st := twinState s
    let peer := ptNum f 32 1
    let s := modTwin (fun t => { t with expect := some (BitVec.ofNat 32 (ptNum f 28 4 + 1)) }) s
    if st = 0 then .next s
    else if !(helloAccepted s f) then
      .next ((modTwin (fun t => { t with agreed := t.agreed && !fromPeer s f }) s).raise TWN.EVT.PAIRREF)
    else if st = 1 then
      if peer = 2 ∨ peer = 4 ∨ peer = 5 then .next (enterPull (notePeer f s))
      else if peer = 1 then
        if s.fid < ptNum f 20 8 then .next (setAdopt (enterPush (notePeer f s))) else .next (enterPull (notePeer f s))
      else .next s
    else if (st = 2 ∨ st = 4 ∨ st = 5) ∧ peer = 1 then .next (sendHello (enterPush (notePeer f s)))
    else if st = 7 && (peer == 2 || peer == 4 || peer == 5) then .next (enterPull (notePeer f s))
    else .next s

/-- SEEK_TIMEOUT (R170). -/
def execSeekTimeout (s : State) : Res :=
  if twinState s = 1 then
    let s := s.raise TWN.EVT.SEEKTO
    .next (if s.on TWN.CTRL.SOLOOK then setAdopt (enterTwin 5 s) else s)
  else .next s

/-! ### Heartbeats and failure (R178-R180, R184, R189) -/

/-- HEARTBEAT_SEND (R178): not once a third fault of ME0 or ME1 has stopped the heartbeats. -/
def execHeartbeatSend (s : State) : Res :=
  let hold := debugHold s
  if 2 ≤ twinState s && (s.alive || hold) && !s.twin.spent then
    .next (sendPt 0x11 (bytesBE 1 (twinState s) ++ bytesBE 1 hold.toNat ++ [0, 0] ++ bytesBE 6 s.twin.cuts.toNat ++
      List.replicate 6 0) s)
  else .next s

/-- A valid heartbeat (R179): HOLD is noted, a unit in step copies the epoch (R183), and a SOLO unit whose partner pulls pushes,
if that partner has passed the checks of R170. -/
def takeHeartbeat (f : List Byte) (s : State) : State :=
  let hold := (f.getD 33 0).getLsbD 0
  let st := twinState s
  let s := modTwin (fun t => { t with peerHold := hold, quiet := 0, missed := 0 }) s
  let s := if hold then s.raise TWN.EVT.PEERHOLD else s
  let s := if st = 3 ∨ st = 6 then setEpoch (ptNum f 18 2) s else s
  let s := if st = 5 && ptNum f 32 1 == 3 && s.twin.agreed then enterPush s else s
  if hold && s.on TWN.CTRL.HOLDTAKE then declareFailed s else s

/-- HEARTBEAT_RECEIVE (R179, R184). -/
def execHeartbeatReceive (f : List Byte) (s : State) : Res :=
  let own := s.get TWN.EPOCH.EPOCH
  let peer := ptNum f 32 1
  if !(ptGood s 0x11 f) || ptNum f 16 2 != s.get TWN.PAIRID.ID then .next s
  else
    let s := ptSequence f s
    if epochNewer (ptNum f 18 2) own && (peer == 4 || peer == 5) && (let st := twinState s; st == 2 || st == 4 || st == 5) then
      .next (fenceUnit (if noPeer s then notePeer f s else s))
    else if fromPeer s f && !(epochOlder (ptNum f 18 2) own) then .next (takeHeartbeat f s)
    else .next s

/-- ALIVE_KICK (R178): ME0 writes 1 to TWN.ALIVE.KICK. -/
def execAliveKick (s : State) : Res := .next { s with alive := true }

/-- ALIVE_EXPIRY (R178, R189): not while a debug hold is in force. -/
def execAliveExpiry (s : State) : Res := .next (if debugHold s then s else { s with alive := false })

/-- PARTNER_TIMEOUT (R179): three heartbeat periods have been missed; those that TWN.HBMISS has not counted yet are counted. -/
def execPartnerTimeout (s : State) : Res :=
  let st := twinState s
  .next (if st = 2 ∨ st = 3 ∨ st = 4 ∨ st = 6 then declareFailed (modTwin (fun t => { t with missed := 3 }) (s.count TWN.HBMISS.CNT (3 - s.twin.missed))) else s)

/-- PT_LINK_DOWN_TIMEOUT (R179). -/
def execPtLinkDownTimeout (s : State) : Res := .next (if s.bit GLB.MI.LINK.LINK 8 then s else declareFailed s)

/-- GONE_RECEIVE (R179): after an unlock the sender is no partner any more (R190). -/
def execGoneReceive (f : List Byte) (s : State) : Res :=
  onFrame 0x17 f (fun s => declareFailed (if f.getD 32 0 == 2 then modTwin (fun t => { t with agreed := false }) s else s)) s

/-! ### Cuts, handover and the stream (R176, R177, R186, R192) -/

/-- The WRITE frames of a region write, 8,192 data bytes at most in each. -/
def writeFrames : Nat → Nat → List Byte → List (List Byte)
  | 0, _, _ => []
  | k + 1, a, d =>
    (bytesBE 4 a ++ bytesBE 2 (min d.length 8192) ++ [0, 0] ++ d.take 8192) ::
      (if d.length ≤ 8192 then [] else writeFrames k (a + 8192) (d.drop 8192))

/-- The captured region writes go out in order (R176). -/
def sendBatch (s : State) : State :=
  let frames := (s.capture.map (fun w => writeFrames 64 w.1 w.2)).flatten
  { frames.foldl (fun t b => sendPt 0x13 b t) s with capture := [] }

/-- The image frames: granary, cluster memories, and the configuration snapshot (R187). -/
def imageFrames : Nat := 1281

/-- The block-relative address of an image offset below the snapshot. -/
def imageAddr (o : Nat) : Nat := if o < 0x800000 then 0x1000000 + o else 0x400000 + (o - 0x800000)

/-- The bytes of an image page, with 0 for the codewords that the image leaves out (R187; DESIGN CHOICE, log entry 71). -/
def imageBytes (s : State) (a : Nat) (bs : List Byte) : List Byte :=
  ((List.range 1024).map (fun i => if leftOut s (a + 8 * i) 8 then List.replicate 8 0 else (bs.drop (8 * i)).take 8)).flatten

/-- Frame `k` of the image goes out, unless the image leaves the whole page out (R187, R191). -/
def sendImage (k : Nat) (s : State) : State :=
  if k = 1280 then sendSnapshot s
  else if leftOut s (imageAddr (8192 * k)) 8192 then s
  else
    let r := twinRead (imageAddr (8192 * k)) 8192 s
    sendPt 0x15 (bytesBE 4 (8192 * k) ++ imageBytes s (imageAddr (8192 * k)) r.1) r.2

/-- The bulk pass and the resends are done. -/
def imageSent (s : State) : Bool := s.twin.pushing && decide (imageFrames ≤ s.twin.page) && s.twin.marked.isEmpty

/-- The resynchronization ends at a cut (R187). -/
def resyncDone (st : Nat) (s : State) : State :=
  let us := ((s.dom 0).absNs - s.twin.began.getD (s.dom 0).absNs) / 1000
  let s := dropPermit 10 (modTwin (fun t => { t with pushing := false, page := 0, marked := [] }) s)
  ((enterTwin st s).put TWN.RSYNCUS.US us).raise TWN.EVT.PAIRED

/-- Another cut has been sent or applied: TWN.CUTCNT shows the count modulo 2^32, the frames carry 48 bits (R191, R193). -/
def countCut (c : Word) (s : State) : State := modTwin (fun t => { t with cuts := c }) (s.put TWN.CUTCNT.CNT c.toNat)

/-- A handover comes to its cut on the old active (R186): without ACK it is abandoned. -/
def handOver (c : Nat) (s : State) : State :=
  match s.twin.handover with
  | some (at', e, acked) =>
    if at' ≠ c then s
    else
      let s := modTwin (fun t => { t with handover := none }) s
      if acked then enterTwin 6 (stopStream (setEpoch e (modTwin (fun t => { t with ordered := false }) s))) else s.raise TWN.EVT.HOFAIL
  | none => s

/-- A planned handover is announced behind a cut (R186). -/
def announce (c : Nat) (s : State) : State :=
  if s.twin.ordered && twinState s == 4 then
    let e := (s.get TWN.EPOCH.EPOCH + 1) % 65536
    let n := (c + 1) % 2 ^ 48
    let s := sendPt 0x16 (bytesBE 6 n ++ bytesBE 2 e) s
    modTwin (fun t => { t with ordered := false, handover := some (n, e, false) }) s
  else s

/-- CUT (R176, R186, R187). -/
def execCut (s : State) : Res :=
  if streams s then
    let c := s.twin.cuts + 1
    let s := sendPt 0x14 (bytesBE 6 c.toNat) (countCut c (sendBatch s))
    if twinState s = 2 && imageSent s then .next (resyncDone 4 s)
    else .next (announce c.toNat (handOver c.toNat s))
  else .next s

/-- The batch of region writes is applied in one pass (R177). -/
def applyBatch (s : State) : State :=
  let s' := s.twin.batch.foldl (fun t w => twinWrite w.1 w.2 t) s
  modTwin (fun t => { t with batch := [] }) s'

/-- The standby reaches the cut of a planned handover (R186). -/
def takeHandover (c : Nat) (s : State) : State :=
  match s.twin.handover with
  | some (at', e, _) =>
    if at' = c then
      (enterTwin 4 (setEpoch e (modTwin (fun t => { t with handover := none }) s))).raise TWN.EVT.HANDOVER
    else s
  | none => s

/-- A received CUT (R177, R186, R187): the puller is in step once the whole image has come. The manual does not say how it
tells the cut that follows the last resent page: a free value. -/
def takeCut (f : List Byte) (s : State) : State :=
  let c := ptNum f 32 6
  match twinState s with
  | 6 => takeHandover c (countCut (BitVec.ofNat 48 c) (applyBatch s))
  | 3 =>
    let s := countCut (BitVec.ofNat 48 c) (applyBatch s)
    if imageFrames ≤ s.twin.page then
      let b : BitVec 1 := s.freeVal 1
      if b = 1 then resyncDone 6 s.took else s.took
    else s
  | _ => s

/-- CUT_RECEIVE (R177). -/
def execCutReceive (f : List Byte) (s : State) : Res := onFrame 0x14 f (takeCut f) s

/-- The unit applies what it receives (R177). -/
def inStep (s : State) : Bool := twinState s == 3 || twinState s == 6

/-- A whole publication is applied: into the FILL buffer of its port, and published (R177). -/
def applyPublication (port : Nat) (d : List Byte) (s : State) : State :=
  let p := portOf port
  publishImage (twinWrite (outBuf s p (s.get (PI.OUTROLE.FILL p)) + 16) (d.take (s.get (PI.OUTSIZE.SIZE p))) s) p

/-- A PUBLISH frame (R177, R192): `len` is the number of its data bytes, which the frame does not carry. A publication is applied
once its frames have come from the one with OFFS 0 to the one with LAST, without a gap; one that is not whole is discarded. -/
def takePublish (f : List Byte) (len : Nat) (s : State) : State :=
  if inStep s then
    let port := ptNum f 32 1
    let seqn := ptNum f 34 6
    let offs := ptNum f 40 4
    let d := (f.drop 48).take len
    let old : Option (List Byte) := match s.twin.part with
      | some (q, n, b) => if q = port ∧ n = seqn ∧ offs = b.length then some b else if offs = 0 then some [] else none
      | none => if offs = 0 then some [] else none
    let s := modTwin (fun t => { t with part := none }) s
    match old with
    | none => s
    | some b =>
      if (f.getD 33 0).getLsbD 0 then applyPublication port (b ++ d) s
      else modTwin (fun t => { t with part := some (port, seqn, b ++ d) }) s
  else s

/-- PUBLISH_FRAME (R177): the data runs to the end of the frame, or to the end of the data area where the frame is padded. -/
def execPublishFrame (f : List Byte) (s : State) : Res :=
  let area := s.get (PI.OUTSIZE.SIZE (portOf (ptNum f 32 1))) - ptNum f 40 4
  onFrame 0x12 f (takePublish f (min area (f.length - 52))) s

/-- WRITE_FRAME (R177). -/
def execWriteFrame (f : List Byte) (s : State) : Res :=
  onFrame 0x13 f (fun s =>
    if inStep s then modTwin (fun t => { t with batch := t.batch ++ [(ptNum f 32 4, (f.drop 40).take (ptNum f 36 2))] }) s
    else s) s

/-- Image bytes below the snapshot are written, a codeword at a time, but for those that come from the wire. -/
def storeImage (s : State) (a : Nat) (bs : List Byte) : State :=
  (List.range (bs.length / 8)).foldl (fun t i =>
    if leftOut t (a + 8 * i) 8 then t else twinWrite (a + 8 * i) ((bs.drop (8 * i)).take 8) t) s

/-- The standby's ring takes the pair's address and with it its part in the segment (R129, R139, R171). -/
def takeAddress (r : Clu) (a : Option Nat) (s : State) : State :=
  let s := setAddress r a s
  if ringState s r = 0 then s
  else match a with
    | some v => setRingState r (if v % 512 = 1 then 3 else 5) s
    | none => if 3 ≤ ringState s r then setRingState r 4 s else s

/-- The snapshot is applied: the addresses of the twinned rings, the routing table, and the image's other tables (R187). -/
def applySnapshot (d : List Byte) (s : State) : State :=
  let s := (List.finRange 4).foldl (fun t (r : Clu) =>
    if twinned t r then
      let v := natLE ((d.drop (4 * r.val)).take 4)
      takeAddress r (if v.testBit 31 then some (v % 2 ^ 18) else none) t
    else t) s
  let s := (List.range 512).foldl (fun t i =>
    let v := natLE ((d.drop (16 + 4 * i)).take 4)
    if i = 0 ∨ i = 511 then t
    else ((((t.put (TIL.RT.VALID i) v).put (TIL.RT.LOCAL i) (v / 2)).put (TIL.RT.RING i) (v / 4)).put (TIL.RT.NEXT i)
      (v / 16)).put (TIL.RT.METRIC i) (v / 2 ^ 16)) s
  (List.range snapFields.length).foldl (fun t i =>
    t.put (snapFields.getD i RAM.DEFAULT.DEV) (natLE ((d.drop (2064 + 4 * i)).take 4))) s

/-- A page comes to the puller: the first of the image, or one after it. After a loss, and before the first page, every other waits for
the image to start again (R192). -/
def takePage (o : Nat) (d : List Byte) (s : State) : State :=
  if s.twin.page = 0 && o != 0 then s
  else
    let s := if o < 0xA00000 then storeImage s (imageAddr o) d else applySnapshot d s
    modTwin (fun t => { t with page := max t.page (o / 8192 + 1), began := t.began.or (some (s.dom 0).absNs) }) s

/-- IMAGE_FRAME (R171, R187): a puller takes every page; a standby takes the snapshot, with which the active passes on a new
address. -/
def execImageFrame (f : List Byte) (s : State) : Res :=
  onFrame 0x15 f (fun s =>
    let o := ptNum f 32 4
    let d := (f.drop 36).take 8192
    if twinState s = 3 then takePage o d (setEpoch (ptNum f 18 2) s)
    else if twinState s = 6 && decide (0xA00000 ≤ o) then applySnapshot d s
    else s) s

/-- RESYNC_SEND (R187): on its permit the pusher sends the next frame of the image, or resends a marked page. -/
def execResyncSend (s : State) : Res :=
  if twinState s ≠ 2 then .next s
  else if !s.twin.pushing then
    if s.holds 10 then
      .next (modTwin (fun t => { t with pushing := true, page := 0, marked := [], began := some (s.dom 0).absNs }) s)
    else .next (askPermit 10 0 s)
  else
    let k := s.twin.page
    if k < imageFrames then .next (modTwin (fun t => { t with page := k + 1 }) (sendImage k s))
    else
      match s.twin.marked with
      | m :: _ =>
        let s := modTwin (fun t => { t with marked := t.marked.filter (fun j => j / 2 != m / 2) }) s
        .next (sendImage (m / 2) s)
      | [] => .next s

/-- DESYNC_RECEIVE (R176, R192). -/
def execDesyncReceive (f : List Byte) (s : State) : Res :=
  onFrame 0x19 f (fun s =>
    match twinState s with
    | 4 => enterPush s
    | 2 => modTwin (fun t => { t with page := 0, marked := [] }) s
    | 6 => enterPull s
    | _ => s) s

/-- PT_FRAME_LOSS (R192): a PUBLISH, WRITE, CUT or IMAGE frame with a bad FCS. A gap in SEQ shows when the next frame
comes. -/
def execPtFrameLoss (f : List Byte) (s : State) : Res :=
  let n := f.length
  let ty := (f.getD 15 0).toNat
  let bad := natLE (f.drop (n - 4)) != (fcs (f.take (n - 4))).toNat
  .next (if bad && decide (0x12 ≤ ty ∧ ty ≤ 0x15) then ptLoss s else s)

/-- A write of TWN.CTRL.HANDOVER (R186). -/
def orderHandover (s : State) : State :=
  if twinState s = 4 && s.get TWN.CTRL.LEVEL != 0 then modTwin (fun t => { t with ordered := true }) s
  else s.raise TWN.EVT.HOFAIL

/-- TWN_HANDOVER (R186). -/
def execTwnHandover (s : State) : Res := .next (orderHandover s)

/-- HANDOVER_FRAME (R186): the standby answers with ACK. -/
def execHandoverFrame (f : List Byte) (s : State) : Res :=
  onFrame 0x16 f (fun s =>
    if twinState s = 6 then
      let c := ptNum f 32 6
      let s := modTwin (fun t => { t with handover := some (c, ptNum f 38 2, false) }) s
      sendPt 0x18 ([0x16, 0] ++ bytesBE 6 c) s
    else s) s

/-- ACK_RECEIVE (R186). -/
def execAckReceive (f : List Byte) (s : State) : Res :=
  onFrame 0x18 f (fun s =>
    match s.twin.handover with
    | some (c, e, _) =>
      if twinState s = 4 && f.getD 32 0 == 0x16 && ptNum f 34 6 == c then
        modTwin (fun t => { t with handover := some (c, e, true) }) s
      else s
    | none => s) s

/-- HANDOVER_ACK_TIMEOUT (R186): the handover is abandoned, on either unit. -/
def execHandoverAckTimeout (s : State) : Res :=
  match s.twin.handover with
  | some (_, _, false) => .next ((modTwin (fun t => { t with handover := none }) s).raise TWN.EVT.HOFAIL)
  | _ => .next s

/-- A write of TWN.CTRL.RESYNC (R193): on the active it forces a full resynchronization; the standby is told by DESYNC. -/
def forceResync (s : State) : State := if twinState s = 4 then enterPush (sendPt 0x19 [] s) else s

/-- TWN_RESYNC. -/
def execTwnResync (s : State) : Res := .next (forceResync s)

/-- DELTAOVF (R176): the capture buffer holds more than 64 KiB. -/
def execDeltaovf (s : State) : Res :=
  if (twinState s == 4 || twinState s == 2) && decide (65536 < (s.capture.map (fun w => w.2.length)).sum) then
    .next (enterPush (sendPt 0x19 [] (s.raise TWN.EVT.DELTAOVF)))
  else .next s

end Sys2Proof.Machine
end

