-- ==== Sys2Proof/Machine/Reset.lean ====
section
/-! DEFINITION. The resets of the block, of a cluster and of an engine, and the block watchdog (R303, R391, R393, R410, R447). -/

namespace Sys2Proof.Machine

open Reg

/-- The unit has a partner: PUSH, PULL, ACTIVE or STANDBY (R168). -/
def hasPartner (s : State) : Bool := let st := twinState s; st == 2 || st == 3 || st == 4 || st == 6

/-! ### The granary map at a block reset (R303) -/

/-- The physical banks that are not retired, lowest first. -/
def goodBanks (s : State) : List Nat := (List.range 17).filter (fun p => !s.bit MEMT.BAD.BAD p)

/-- Logical banks are mapped in order onto the good banks; the good bank left over is the spare (R303). -/
def mapBanks (s : State) : State :=
  let g := goodBanks s
  let s := (List.range 16).foldl (fun t l => t.put (MEMT.MAP.PB l) (g.getD l 0x1F)) s
  (s.put MEMT.SPARE.PBANK (g.getD 16 0x1F)).put MEMT.STAT.UNMAPPED (16 - g.length)

/-! ### Power-on and block reset (R391) -/

/-- Register fields that a block reset keeps: those of the always-on island, and MEMT.BAD (R391). -/
def alwaysOn : List Fld :=
  [GLB.BOOT.STAT.FAILA, GLB.BOOT.STAT.FAILB, GLB.BOOT.CTRL.PREF, MEMT.BAD.BAD, GLB.RST.CAUSE.POR, GLB.RST.CAUSE.PIN,
   GLB.RST.CAUSE.SOFT, GLB.RST.CAUSE.BWDOG, GLB.RST.CAUSE.WAKE]

/-- What lies outside the block and the model's own records: commands that wait, outputs so far, free values taken, the level
of HSK_INT, the TCK cycles still to come. -/
def outside (s t : State) : State :=
  { t with pending := s.pending, out := s.out, free := s.free, hskInt := s.hskInt, tap := { t.tap with edges := s.tap.edges } }

/-- The domains whose time values the always-on island holds: those in DEEP, until their restart cycle (R119, R120). -/
def savedDomains (s : State) : List Nat :=
  if s.boot.inReset then s.stopped else ([0, 1, 2, 3, 4] : List Nat).filter (fun d => s.mode d != 0 && s.sleepDepth d == 3)

/-- The saved time values outlast the reset (R119, R391). -/
def restoreTimes (old s : State) : State :=
  let kept := savedDomains old
  { s with
    time := if kept.contains 0 then old.time.map (fun (t : TimeDom) => { TimeDom.reset with hi := t.hi, lo := t.lo }) else s.time
    clusters := s.clusters.mapFinIdx (fun i c h => if kept.contains (i + 1) then { c with cnt := old.clusters[i].cnt } else c)
    stopped := kept }

/-- The block is held in reset by the causes of a bit set: the always-on island keeps its state, everything else returns to
its reset value (R391). A handshake that PCH_ACK has not reached is given up: PCH_REQ falls, and every domain is in RUN (R10, log entry
21). -/
def heldInReset (s : State) (causes : Nat) : State :=
  let t := { outside s State.reset with
    tap := { s.tap with busy := none }
    power := { PowerSt.reset with pch := s.power.pch.filter (fun h => !h.req), ack := s.power.ack }
    boot := ⟨true, causes, none, [], false, s.boot.sel, s.boot.div, FlashRead.plain, false, none⟩ }
  mapBanks (alwaysOn.foldl (fun t f => t.put f (s.get f)) (restoreTimes s t))

/-- Power-on: everything is reset (R391). -/
def poweredOn (s : State) : State := outside s State.reset

/-- A reset of the block by a cause bit: 0 power-on, 1 RST_N, 2 soft, 3 block watchdog, 4 wake of MGMT. One that is asserted
while the block erases takes effect once the erase has completed (R447). Causes add up while the reset is in force. -/
def blockReset (cause : Nat) (s : State) : State :=
  if s.on DBG.LOCK.ERASING then { s with boot := { s.boot with queued := some (s.boot.queued.getD 0 ||| 2 ^ cause) } }
  else if cause = 0 then poweredOn s
  else heldInReset s ((if s.boot.inReset then s.boot.causes else 0) ||| 2 ^ cause)

/-- POWER_ON_RESET (R391). -/
def execPowerOnReset (s : State) : Res := .next (blockReset 0 s)

/-- RST_N_ASSERT (R391, R410): RST_N is low for `ns` nanoseconds. The effect of a pulse shorter than 20 ns is undefined. -/
def execRstNAssert (ns : Nat) (s : State) : Res := if ns < 20 then .fault .resetPulseTooShort else .next (blockReset 1 s)

/-- BLOCK_RESET (R391): by the pin, RESET with KIND 0, the block watchdog or a wake of MGMT from DEEP or OFF. -/
def execBlockReset (cause : Fin 4) (s : State) : Res := .next (blockReset (cause.val + 1) s)

/-- The heartbeat, the watchdog and what else counts time hold or run with the block watchdog: it expires with PER other than
0 and no hold in force (R393). -/
def watchdogRuns (s : State) : Bool := s.get GLB.WDOG.PER.MS != 0 && !s.on DBG.WDHOLD.HOLD && !s.boot.inReset

/-- BLOCK_WATCHDOG_EXPIRY (R189, R393): GONE on a paired unit, then a block reset. -/
def execBlockWatchdogExpiry (s : State) : Res :=
  .next (if watchdogRuns s then blockReset 3 (if hasPartner s then sendPt 0x17 [1] s else s) else s)

/-! ### Engine reset (R391) -/

/-- ENGINE_RESET (R391). -/
def execEngineReset (e : Eng) (s : State) : Res := .next (resetEngine e s)

/-! ### Cluster reset (R391) -/

/-- The memory of an address window reads as nothing written. -/
def clearMem (a b : Nat) (s : State) : State :=
  { s with mem := s.mem.filter (fun e => decide (¬(a ≤ e.1 ∧ e.1 < b)))
           ecc := s.ecc.filter (fun e => decide (¬(a ≤ 8 * e.1 ∧ 8 * e.1 < b))) }

/-- The memories of a cluster hold nothing after a power-down (R302; log entry 3). -/
def clearCluster (n : Clu) (s : State) : State :=
  let s := clearMem (0x400000 + 0x80000 * n.val) (0x480000 + 0x80000 * n.val) s
  (domEngines (n.val + 1)).foldl (fun t e => clearMem (0x600000 + 0x20000 * e.val) (0x620000 + 0x20000 * e.val) t) s

/-- An engine of a cluster after the reset of its cluster: parked, to be started by its first message (R378, R392). -/
def parkForStart (s : State) (e : Eng) : State :=
  (((resetEngine e s).raiseBit FLT.RUN.ENG e).lowerBit PWR.EIDLE.ENG e).modEng e (fun x => { x with boot := true })

/-- The firmware no longer brings a cluster up: a permit that it asked for is given up. -/
def dropRestore (n : Clu) (s : State) : State :=
  let j := (s.clu n).restore
  let s := s.modClu n (fun c => { c with restore := none })
  if j.any (fun x => x.asked) then releaseCheck s else s

/-- A cluster reset (R391): engines, sequencers, ports, bit lines, timer unit, second-level TLB and the register window. The
memories are kept at RESET with KIND 1 (`keep`) and hold nothing after DEEP or OFF. -/
def clusterReset (n : Clu) (keep : Bool) (s : State) : State :=
  let s := (domEngines (n.val + 1)).foldl parkForStart (dropRestore n s)
  let s := (domPorts (n.val + 1)).foldl (fun t (p : Port) => dropPermit p.val (t.modPort p PortSt.cleared)) s
  let s := (s.setClu n ClusterSt.reset).setL2 n Tlb.empty
  let s := (List.finRange 8).foldl (fun t (k : Line) => if lineClu k = n then cutLine k t else t) s
  let s := { s with bits := s.bits.mapFinIdx (fun i x _ => if i / 2 = n.val then BitSt.reset else x) }
  let s := s.clearCells (cluBase n) (cluBase n + 0x10000)
  checkOffer (if keep then s else clearCluster n s)

end Sys2Proof.Machine
end

