-- ==== Sys2Proof/Machine/Unlock.lean ====
section
/-! DEFINITION. The debug unlock and its erase, scan mode, and trace enable (R190, R442, R444-R447, R462). -/

namespace Sys2Proof.Machine

open Reg

/-- The value that requests an unlock (R445). -/
def unlockKey : Nat := 0x554E4C4B

/-! ### An accepted request (R190, R446) -/

/-- Step 1: R190 on a paired unit; on any other, RUN of every port is cleared. -/
def unlockTwin (s : State) : State :=
  if hasPartner s then
    let s := sendPt 0x17 [2] s
    let s := (twinPorts s).foldl (fun t p => t.lower (WSQ.CTRL.RUN p)) s
    enterTwin 0 (stopStream (dropHandover s))
  else (List.finRange 8).foldl (fun t (p : Port) => t.lower (WSQ.CTRL.RUN p)) s

/-- Engines halt, and their husk transactions end. -/
def haltAll (s : State) : State := (List.finRange 14).foldl (fun t e => haltEngine e 5 t) s

/-- Every control-store load is aborted, whatever its pass. -/
def abortLoads (s : State) : State :=
  (List.finRange 8).foldl (fun t (p : Port) => if (t.port p).csld.isSome then endLoad p 5 t else t) s

/-- Every firmware crypto job ends (R384). -/
def stopCrypto (s : State) : State :=
  let s : State := { s with cry := none, cryStop := false, bulk := [] }
  ((((s.lower CRY.STAT.BUSY).lower CRY.STAT.PERMIT).lower CRY.STAT.DONE).lower CRY.STAT.RESULT)

/-- Commands that wait or are in progress are dropped, with what the firmware held of the channels. -/
def dropCommands (s : State) : State :=
  { s with chans := s.chans.map (fun (c : ChanSt) => { ChanSt.reset with crossed := c.crossed, crossUs := c.crossUs }), accum := [], ptp := [], resetDue := none }

/-- A mode change that still waits for its engines is dropped. -/
def dropModeChange (s : State) : State :=
  if s.power.wait.isSome then
    let s := releaseParked s.power.parked (s.lower PWR.STAT.BUSY)
    s.modPower (fun x => { x with wait := none, parked := [] })
  else s

/-- Step 2: everything that acts stops, and every permit is released. -/
def unlockStop (s : State) : State :=
  let s := dropModeChange (dropCommands (stopCrypto (stopDma (abandonTest (dropOffer (abortLoads (haltAll s)))))))
  { s with
    permit := ⟨[], [], []⟩
    boot := { s.boot with job := none, accepted := false }
    clusters := s.clusters.map (fun (c : ClusterSt) => { c with restore := none }) }

/-- Step 3: every domain in RETAIN wakes, MGMT first. -/
def unlockWake (s : State) : State :=
  let asleep := ([0, 1, 2, 3, 4] : List Nat).filter (fun d => s.sleepDepth d == 2 && !willWake s d)
  nextWake (s.modPower (fun x => { x with wakes := x.wakes ++ asleep }))

/-- An unlock request (R445). In reset, which leaves the block locked (R444), none is accepted. -/
def unlockRequest (v : Nat) (s : State) : State :=
  if s.boot.inReset || s.on DBG.LOCK.OPEN || s.on DBG.LOCK.ERASING then s
  else if v = unlockKey then unlockWake (unlockStop (unlockTwin (s.raise DBG.LOCK.ERASING)))
  else s.count DBG.LOCK.BADKEY

/-! ### The erase (R446) -/

/-- Sequencer registers and comparators reset, and the stores of the ports erased. -/
def erasePort (x : PortSt) : PortSt :=
  { x with seq := { x.seq with sq := Vector.replicate 4 0, cmp := Vector.replicate 4 ⟨0, 0, 0, false⟩ }
           wpm := [], cs := [], csEcc := [], gcl := [] }

/-- An engine after the erase: reset registers, PC 0. -/
def eraseEngine (x : EngSt) : EngSt := { EngSt.reset with seqn := x.seqn }

/-- The register windows that the erase clears: dispatch and routing tables, patch RAM, doorbells, semaphores, and the
cryptography unit's outputs and keys. -/
def eraseWindows : List (Nat × Nat) :=
  (List.range 8).map (fun p => (wsqBase p + 0x400, wsqBase p + 0x800)) ++ [(tilBase + 0x4000, tilBase + 0x4800)] ++
    (List.range 14).map (fun i => (dbgEBase i + 0xC0, dbgEBase i + 0x140)) ++
    (List.range 4).map (fun c => (mbBase c + 0x800, mbBase c + 0x804)) ++
    (List.range 4).map (fun c => (mbBase c + 0x810, mbBase c + 0x814)) ++
    [(mgtBase + 0xD200, mgtBase + 0xD300), (mgtBase + 0xB440, mgtBase + 0xB460), (mgtBase + 0xB470, mgtBase + 0xB500)]

/-- The debug registers of an engine show its halt at PC 0. -/
def showErased (s : State) (e : Eng) : State :=
  ((s.put48 (DBG.E.PC_L.PC e) (DBG.E.PC_H.PC e) 0).put48 (DBG.E.NPC_L.NPC e) (DBG.E.NPC_H.NPC e) 6).lower (DBG.E.STAT.DS e)

/-- Step 4: the erase. The twin controller of a unit that still has a pair state writes its role bytes again (R168). -/
def erase (s : State) : State :=
  let s := { s with
    mem := [], ecc := []
    ports := s.ports.map erasePort
    clusters := s.clusters.map (fun (c : ClusterSt) => { c with streams := [], dups := [] })
    eng := s.eng.map eraseEngine
    l2 := Vector.replicate 5 Tlb.empty
    parcels := [], capture := [], alive := false
    twin := { s.twin with batch := [], part := none } }
  let s := (List.range 4).foldl (fun t c => rearmCross c t) (eraseWindows.foldl (fun t w => t.clearCells w.1 w.2) s)
  let s := (List.range 4).foldl (fun t c => t.lower (MB.STAT.READY c)) (s.lower GRIST.PREC.PREC)
  refreshRoles ((List.finRange 14).foldl showErased s)

/-- Step 5: the block is open; a reset asked for in the meantime takes effect (R447). -/
def eraseEnds (s : State) : State :=
  let s := ((s.lower DBG.LOCK.ERASING).raise DBG.LOCK.OPEN).raise TWN.STAT.DBGOPEN
  match s.boot.queued with
  | some q => if q % 2 = 1 then poweredOn s else heldInReset s ((if s.boot.inReset then s.boot.causes else 0) ||| q)
  | none => s

/-- Step 4 may begin: no domain is in RETAIN; one whose wake has timed out is in reset (R397). -/
def noneRetained (s : State) : Bool := ([0, 1, 2, 3, 4] : List Nat).all (fun d => s.sleepDepth d != 2)

/-- The erase that an unlock, or a rise of SCAN_MODE, waits for: its end opens the block, and connects the scan chains (R446, R447). -/
def eraseDue (s : State) : State :=
  if (s.on DBG.LOCK.ERASING || s.tap.scanDue && !s.tap.scan) && noneRetained s then
    let scan := s.tap.scanDue
    let s := erase s
    let s := { s with tap := { s.tap with scan := scan } }
    if s.on DBG.LOCK.ERASING then eraseEnds s else s
  else s

/-- UNLOCK_ERASE_DONE (R446). -/
def execUnlockEraseDone (s : State) : Res := .next (eraseDue s)

/-- SCAN_MODE (R442, R447): SCAN_MODE rises: steps 2 to 4 of an unlock, and only then the scan chains are connected. A sleeping domain's
wake is waited for, and UNLOCK_ERASE_DONE completes the rest. -/
def execScanMode (s : State) : Res :=
  .next (if s.tap.scanDue then s
    else eraseDue (let s := unlockWake (unlockStop s)
      { s with tap := { s.tap with scanDue := true } }))

/-! ### Trace enable (R462) -/

/-- A write of TRC.CTRL.EN: a rise starts with a SYNC, 0 empties the FIFO. -/
def traceEnable (on : Bool) (s : State) : State :=
  let was := s.on TRC.CTRL.EN
  let s := s.put TRC.CTRL.EN on.toNat
  if on then (if was then s else traceSync s) else { s with trace := { s.trace with now := [], fifo := [] } }

/-- TRACE_ENABLE (R462). -/
def execTraceEnable (on : Bool) (s : State) : Res := .next (traceEnable on s)

end Sys2Proof.Machine
end

