-- ==== Sys2Proof/Machine/DebugIo.lean ====
section
/-! DEFINITION. A debugger's access to the ports of a halted engine through PSEL and PDATA (R454). -/

namespace Sys2Proof.Machine

open Reg

/-- The debug registers of a halted engine show where it stands (R451, R453). -/
def showFlow (e : Eng) (s : State) : State :=
  let f := (s.engine e).flow
  let (ds, npc) := match f.xfer with | some (_, a) => (true, a) | none => (false, f.pc + 6)
  let s := s.put (DBG.E.STAT.DS e) ds.toNat
  (s.put48 (DBG.E.PC_L.PC e) (DBG.E.PC_H.PC e) f.pc).put48 (DBG.E.NPC_L.NPC e) (DBG.E.NPC_H.NPC e) npc

/-- The value that a PDATA access holds. -/
def pdataPut (e : Eng) (v : Word) (s : State) : State := s.put48 (DBG.E.PDATA_L.DATA e) (DBG.E.PDATA_H.DATA e) v

/-- A debugger's transaction on the husk interface is asked for (R454). -/
def huskDebug (e : Eng) (p : Nat) (write : Bool) (v : Word) (s : State) : State :=
  s.modEng e (fun x => { x with
    husk := some { port := p, write := write, value := v, sent := false, bundle := 0, vals := [], answer := none, debug := true } })

/-- The source port that a debugger reads: its value, and what an active read does. A port whose value is still on its way
(a husk port, an operation under way) returns a free value (log entry 25). -/
def debugRead (e : Eng) (p : Nat) (active : Bool) (s : State) : Word × State :=
  if 0x1C0 ≤ p then
    let s1 := if active && (s.engine e).husk.isNone then huskDebug e p false 0 s else s
    (s1.freeVal 48, s1.took)
  else if srcStalls (s.engine e) (.port p) then (s.freeVal 48, s.took)
  else if (srcUnit p).isSome then (if active then reqAct e p s else (reqQuiet s e p, s))
  else (s.readPort e p, s)

/-- A refused PDATA access (R454). -/
def pdataRefused (e : Eng) (s : State) : State := s.raise (DBG.E.STAT.PERR e)

/-- A read of PDATA_L (R454): the value latched. `quiet`: the read itself is a quiet one (R8, R449). While the engine is not halted it
returns 0 and latches nothing. -/
def pdataRead (e : Eng) (quiet : Bool) (s : State) : Word × State :=
  let p := s.get (DBG.E.PSEL.PORT e)
  if !s.halted e then (0, pdataRefused e s)
  else if canRead s e p then
    let (v, s) := debugRead e p (s.on (DBG.E.PSEL.ACTIVE e) && !quiet) s
    (v, pdataPut e v s)
  else (0, pdataPut e 0 (pdataRefused e s))

/-- A read of PDATA_H (R454): bits [47:32] of the latched value. -/
def pdataHigh (e : Eng) (s : State) : Nat × State :=
  if s.halted e then (s.get (DBG.E.PDATA_H.DATA e), s) else (0, pdataRefused e s)

/-- The watch comparators over a debugger's access (R458): the packets and events of a bundle's. No bundle carries it, so a match with
ACTION HALT or EXC refuses it (log entry 25). -/
def debugWatch (e : Eng) (ps : List Plan) (s : State) : State :=
  match watchVerdict s e ps with
  | .go => ps.foldl (fun t q => startAccess e q t) (watchAll e ps s)
  | _ => pdataRefused e (watchAll e ps s)

/-- A move to an access port by the debugger (R223, R454); none while its translation waits. -/
def debugAccess (e : Eng) (p : Nat) (v : Word) (s : State) : Option State :=
  match checkPlans e [planAccess (s.engine e) ((p - 0x0C0) / 0x10) (p % 0x10) v 0 false] s with
  | (.ok ps, s) => some (debugWatch e ps s)
  | (.fault .., s) => some (pdataRefused e s)
  | (.wait, _) => none

/-- A move to EXC.RET by the debugger (R275, R454); none while its reload waits. -/
def debugReturn (e : Eng) (s : State) : Option State :=
  let x := (s.engine e).exc
  match reload e x.sp.toNat s with
  | (.words ws, s) => some (showFlow e (restore e ws (!x.sr.df) s))
  | (.fault .., s) => some (pdataRefused e s)
  | (.wait, _) => none

/-- What a move of the debugger that must wait leaves under way: the walk or the read that it waits for. -/
def debugWaits (e : Eng) (p : Nat) (v : Word) (s : State) : State :=
  if dstStalls e (s.engine e) p then s
  else if sizedPort p then (checkPlans e [planAccess (s.engine e) ((p - 0x0C0) / 0x10) (p % 0x10) v 0 false] s).2
  else if p = 0x121 then (reload e (s.engine e).exc.sp.toNat s).2
  else s

/-- The move of a value to a destination port, without a bundle (R454); none while its unit is busy. -/
def debugMove (e : Eng) (p : Nat) (v : Word) (s : State) : Option State :=
  if dstStalls e (s.engine e) p then none
  else if sizedPort p then debugAccess e p v s
  else if p = 0x121 then debugReturn e s
  else if 0x1C0 ≤ p then (if (s.engine e).husk.isSome then none else some (huskDebug e p true v s))
  else some (showFlow e (trigger e false p v (writeReg e p v s)))

/-- The oldest move of the debugger that waits is tried (log entry 25). -/
def tryMove (e : Eng) (s : State) : State :=
  match (s.engine e).moves with
  | (p, v) :: t =>
    match debugMove e p v s with
    | some s => s.modEng e (fun x => { x with moves := t })
    | none => debugWaits e p v s
  | [] => s

/-- A write of PDATA_H (R454): the move waits while its unit is busy, behind those that wait already. -/
def pdataWrite (e : Eng) (h : Nat) (s : State) : State :=
  let p := s.get (DBG.E.PSEL.PORT e)
  if !s.halted e then pdataRefused e s
  else
    let s := s.put (DBG.E.PDATA_H.DATA e) h
    if canWrite s e p then
      let s := s.modEng e (fun x => { x with moves := x.moves ++ [(p, s.get48 (DBG.E.PDATA_L.DATA e) (DBG.E.PDATA_H.DATA e))] })
      if (s.engine e).moves.length = 1 then tryMove e s else s
    else pdataRefused e s

/-- A write of PDATA_L (R454). -/
def pdataLow (e : Eng) (v : Nat) (s : State) : State :=
  if s.halted e then s.put (DBG.E.PDATA_L.DATA e) v else pdataRefused e s

/-- PDATA_READ (R454): a read of PDATA_L, which leaves the 48 bits in PDATA. -/
def execPdataRead (e : Eng) (s : State) : Res :=
  .next (if s.on DBG.LOCK.OPEN then { (pdataRead e false s).2 with ans := ⟨stOkay, (pdataRead e false s).1.toNat % 2 ^ 32⟩ } else s)

/-- PDATA_WRITE (R454): a write of PDATA_H. -/
def execPdataWrite (e : Eng) (v : BitVec 16) (s : State) : Res :=
  .next (if s.on DBG.LOCK.OPEN then pdataWrite e v.toNat s else s)

end Sys2Proof.Machine
end

