-- ==== Sys2Proof/Machine/WireOps.lean ====
section
/-! DEFINITION. The base wire ops of R66. A wire-op command carries out the whole routine of the wire op just dispatched,
its closing NXW included, if that op is the command's; otherwise nothing changes, and while the routine would stall or
wait nothing changes either. Where R88 prints the routine, its registers end as printed; elsewhere R65 lets a routine
change SQ1-SQ3, the carry, CMP0, CMP1 and F0, and those end as free values. -/

namespace Sys2Proof.Machine

open Reg

/-! ### Shared by the routines -/

/-- The dispatch reached a routine: the dispatch entry is not 0x0000, which reaches UDF (R39, R42), and its word holds no
uncorrectable error (R49). -/
def dispatched (s : State) (p : Port) : Bool :=
  (s.port p).seq.fresh && (s.port p).seq.upc != 0 && !fetchBad s p

/-- Carry out the routine of the wire op just dispatched if its opcode is one of `ops`; `g` answers nothing where the
routine stalls or waits. Nothing happens where the dispatch entry names no routine: UDF is the next micro-op there. -/
def wireCmd (p : Port) (s : State) (ops : Nat → Bool) (g : Frame → Option State) : Res :=
  match s.running p with
  | some f =>
    if dispatched s p && ops (s.port p).seq.opc.toNat then .next (((g f).map (noteFetch s p)).getD s) else .next s
  | none => .next s

/-- The routine's closing NXW. -/
def closeOp (p : Port) (s : State) : State :=
  match s.running p with
  | some f => dispatch s p f
  | none => s

/-- SQ1-SQ3, the carry, CMP0, CMP1 and F0 end as free values (R65). -/
def scratch (p : Port) (s : State) : State :=
  let v (i w : Nat) : BitVec w := Config.freeValue w (s.free + i)
  let s := s.modSeq p (fun q =>
    { q with sq := #v[q.reg 0, v 0 48, v 1 48, v 2 48], carry := v 3 1 == 1, f0 := v 4 1 == 1,
             cmp := #v[⟨v 5 48, v 6 48, v 7 2, v 8 1 == 1⟩, ⟨v 9 48, v 10 48, v 11 2, v 12 1 == 1⟩,
                       q.cmp[(2 : Fin 4)], q.cmp[(3 : Fin 4)]] })
  { s with free := s.free + 13 }

/-- The scratch registers change, then the closing NXW. -/
def closeFree (p : Port) (s : State) : State := closeOp p (scratch p s)

/-- The operand of the wire op (R63). -/
def wop (s : State) (p : Port) : Nat := (s.port p).seq.wop.toNat

/-- The cursor, SQ0, as a frame offset (R65). -/
def cursor (s : State) (p : Port) : Nat := (sqReg s p 0).toNat % 2 ^ 16

/-- The cursor moves forward. -/
def advance (p : Port) (n : Nat) (s : State) : State := setSq p 0 (sqReg s p 0 + BitVec.ofNat 48 n) s

/-- PAST follows a read of frame bytes (R38). -/
def readPast (p : Port) (f : Frame) (o n : Nat) (s : State) : State := s.modSeq p (fun q => { q with past := f.pastEnd o n })

/-- A frame access of a routine that is not printed: where it ends the program, the scratch registers are free (R65). -/
def opAccess (p : Port) (s : State) (f : Frame) (o n : Nat) (g : State) : Option State := frameAccess p s f o n (scratch p s) g

/-- A routine whose frame access at the cursor succeeds moves the cursor past the field and closes. -/
def atCursor (p : Port) (s : State) (f : Frame) (n : Nat) (g : Nat → State → State) : Option State :=
  let o := cursor s p
  opAccess p s f o n (closeFree p (advance p n (g o s)))

/-- The program continues at a wire-op index (WJMP). -/
def jumpOp (p : Port) (i : Nat) (s : State) : State := s.modSeq p (fun q => { q with wpc := BitVec.ofNat 10 i })

/-! ### Control and cursor -/

/-- END (R66): ENDF. -/
def execWEnd (p : Port) (s : State) : Res := wireCmd p s (· == 0x01) (fun f => some (endProgram s p f))

/-- DROP (R66): DISC. -/
def execWDrop (p : Port) (s : State) : Res := wireCmd p s (· == 0x02) (fun f => some (discardFrame s p f))

/-- JMP (R66). -/
def execWJmp (p : Port) (s : State) : Res := wireCmd p s (· == 0x03) (fun _ => some (closeFree p (jumpOp p (wop s p) s)))

/-- JF (R66). -/
def execWJf (p : Port) (s : State) : Res := wireCmd p s (· == 0x04) (fun _ =>
  let q := (s.port p).seq
  let flag := if (wop s p).testBit 10 then q.f1 else q.f0
  some (closeFree p (if flag then jumpOp p (wop s p) s else s)))

/-- NOP (R66). -/
def execWNop (p : Port) (s : State) : Res := wireCmd p s (· == 0x05) (fun _ => some (closeFree p s))

/-- COMMIT (R66), as R88 prints it: CMT, NXW. -/
def execWCommit (p : Port) (s : State) : Res := wireCmd p s (· == 0x06) (fun f => some (closeOp p (armCommit p f s)))

/-- SIGNAL (R66): event code 0x01 with the operand. -/
def execWSignal (p : Port) (s : State) : Res := wireCmd p s (· == 0x07) (fun f =>
  some (signalEvent p f 0x01 (scratch p) (closeFree p) s))

/-- SEEK (R66), as R88 prints it: MOVS SQ0 from WOP, NXW. -/
def execWSeek (p : Port) (s : State) : Res := wireCmd p s (· == 0x08) (fun _ =>
  some (closeOp p (setSq p 0 (BitVec.ofNat 48 (wop s p)) s)))

/-- ADV (R66). -/
def execWAdv (p : Port) (s : State) : Res := wireCmd p s (· == 0x09) (fun _ =>
  some (closeFree p (advance p (wop s p % 2 ^ 16) s)))

/-- SKIP (R66), as R88 prints it: MOVS SQ0 from WOP, SKTO at the cursor, NXW. -/
def execWSkip (p : Port) (s : State) : Res := wireCmd p s (· == 0x0A) (fun f =>
  let s := setSq p 0 (BitVec.ofNat 48 (wop s p)) s
  some (closeOp p (s.modFrame p f.fctr (fun g => { g with cur := skipTo g (cursor s p) }))))

/-- TAGSKIP (R66). -/
def execWTagskip (p : Port) (s : State) : Res := wireCmd p s (· == 0x0B) (fun f =>
  let o := cursor s p
  let t := natBE (f.slice o 2)
  opAccess p s f o 2 (closeFree p (readPast p f o 2 (if t = 0x8100 ∨ t = 0x88A8 then advance p 4 s else s))))

/-- SETF (R66). F0 ends as the operand says when it names F0. -/
def execWSetf (p : Port) (s : State) : Res := wireCmd p s (· == 0x0E) (fun _ =>
  some (closeOp p (setFlag p ((wop s p).testBit 1) ((wop s p).testBit 0) (scratch p s))))

/-! ### Frame arithmetic -/

/-- ADDW (R66), as R88 prints it: SQ1 from WOP, SQ2 the field plus SQ1, the cursor past the field. -/
def addwRoutine (p : Port) (f : Frame) (s : State) : State :=
  let o := cursor s p
  let sum := BitVec.ofNat 48 (natBE (f.slice o 2)) + BitVec.ofNat 48 (wop s p)
  let s := setSq p 2 sum (setSq p 1 (BitVec.ofNat 48 (wop s p)) (readPast p f o 2 s))
  let s := depositAt p f o (bytesBE 2 sum.toNat) s
  closeOp p (aluTo p 0 (aluFn 0 (sqReg s p 0) 2) s)

def execWAddw (p : Port) (s : State) : Res := wireCmd p s (· == 0x0C) (fun f =>
  frameAccess p s f (cursor s p) 2 (setSq p 2 0 (setSq p 1 (BitVec.ofNat 48 (wop s p)) s)) (addwRoutine p f s))

/-- ADDL (R66). -/
def execWAddl (p : Port) (s : State) : Res := wireCmd p s (· == 0x0D) (fun f =>
  atCursor p s f 4 (fun o s => readPast p f o 4 (depositAt p f o (bytesBE 4 (natBE (f.slice o 4) + wop s p)) s)))

/-- CORR (R66): FADD of DELAY. -/
def execWCorr (p : Port) (s : State) : Res := wireCmd p s (· == 0x43) (fun f =>
  atCursor p s f 8 (fun o s => depositAt p f o (faddField f o (BitVec.ofNat 48 (delayReg s p))) s))

/-! ### Matches -/

/-- MATET (R66), as R88 prints it: SQ1 the type, SQ2 the difference; ends unless it is 0. -/
def matetRoutine (p : Port) (f : Frame) (s : State) : State :=
  let o := cursor s p
  let ty := BitVec.ofNat 48 (wop s p % 2 ^ 16)
  let diff := BitVec.ofNat 48 (natBE (f.slice o 2)) ^^^ ty
  let s := setSq p 2 diff (setSq p 1 ty (readPast p f o 2 s))
  if diff = 0 then closeOp p (aluTo p 0 (aluFn 0 (sqReg s p 0) 2) s) else endProgram s p f

def execWMatet (p : Port) (s : State) : Res := wireCmd p s (· == 0x10) (fun f =>
  frameAccess p s f (cursor s p) 2 (setSq p 2 0 (setSq p 1 (BitVec.ofNat 48 (wop s p % 2 ^ 16)) s)) (matetRoutine p f s))

/-- Match entry `e` of the private area matches 6 bytes: the masked reference equals the masked bytes (R66, R71). -/
def entryMatches (s : State) (p : Port) (e : Nat) (l : List Byte) : Bool :=
  let a := privAddr s p (0x1A0 + 16 * e)
  let ref := s.bytes a 6
  let mask := s.bytes (a + 6) 6
  (l.zip mask).map (fun x => x.1 &&& x.2) == (ref.zip mask).map (fun x => x.1 &&& x.2)

/-- A match entry lies in a codeword with a double-bit error (R299). -/
def entryBad (s : State) (p : Port) (e : Nat) : Bool := s.memBad (privAddr s p (0x1A0 + 16 * e)) 12

/-- What the reads of match entries leave: their errors recorded (R298). -/
def noteEntries (s : State) (p : Port) (es : List Nat) (t : State) : State :=
  es.foldl (fun t e => noteRead (privAddr s p (0x1A0 + 16 * e)) 12 t) t

/-- A routine that reads match entries: an uncorrectable error abandons the frame (R299), with the scratch registers free. -/
def withEntries (p : Port) (s : State) (f : Frame) (es : List Nat) (g : State) : State :=
  noteEntries s p es (if es.any (fun e => entryBad s p e) then abandonFrame (scratch p s) p f else g)

/-- The program ends with the scratch registers changed. -/
def endFree (p : Port) (f : Frame) (s : State) : State := endProgram (scratch p s) p f

/-- MATDA (R66). -/
def execWMatda (p : Port) (s : State) : Res := wireCmd p s (· == 0x11) (fun f =>
  let l := f.slice 0 6
  let hit := entryMatches s p 0 l || entryMatches s p 1 l
  opAccess p s f 0 6 (withEntries p s f [0, 1]
    (if hit then closeFree p (readPast p f 0 6 s) else endFree p f (readPast p f 0 6 s))))

/-- The 6 bytes and the entry that MATCH and TEST name (R66). -/
def matchOff (s : State) (p : Port) : Nat := (cursor s p + wop s p % 2 ^ 12) % 2 ^ 16

def matchEntry (s : State) (p : Port) : Nat := wop s p / 2 ^ 12 % 32

/-- MATCH (R66). -/
def execWMatch (p : Port) (s : State) : Res := wireCmd p s (· == 0x12) (fun f =>
  let o := matchOff s p
  let e := matchEntry s p
  opAccess p s f o 6 (withEntries p s f [e]
    (if entryMatches s p e (f.slice o 6) then closeFree p (readPast p f o 6 s) else endFree p f (readPast p f o 6 s))))

/-- TEST (R66). -/
def execWTest (p : Port) (s : State) : Res := wireCmd p s (· == 0x13) (fun f =>
  let o := matchOff s p
  let e := matchEntry s p
  opAccess p s f o 6 (withEntries p s f [e]
    (closeOp p (setFlag p false (entryMatches s p e (f.slice o 6)) (scratch p (readPast p f o 6 s))))))

/-! ### Process data -/

/-- AGE (R66): the age of the current output buffer. -/
def outAge (s : State) (p : Port) : Nat :=
  if s.on (PI.OUTROLE.CVALID p) then min (s.load (outBuf s p (s.get (PI.OUTROLE.CUR p)) + 6) 2) 0xFE else 0xFF

def execWAge (p : Port) (s : State) : Res := wireCmd p s (· == 0x14) (fun f =>
  atCursor p s f 1 (fun o s => depositAt p f o (bytesLE 1 (outAge s p)) s))

/-- The frame bytes at the cursor go to the filling input buffer (RDB, RD); `regs` gives the scratch registers as they stand when
the copy begins, and `close` ends the routine. Outside the window zeros are copied, as for CPY. -/
def readImage (p : Port) (s : State) (f : Frame) (n : Nat) (regs close : State → State) : Option State :=
  let o := cursor s p
  let off := wop s p % 2 ^ 19
  let r := seqWrite s p f 1 off (f.slice o n)
  frameAccess p s f o n (regs (copyZero p f 1 off n s)) (if r.2 then close r.1 else regs r.1)

/-- The bytes of the current output buffer go to the frame at the cursor (WRB, WR). -/
def writeImage (p : Port) (s : State) (f : Frame) (n : Nat) (regs close : State → State) : Option State :=
  let o := cursor s p
  frameAccess p s f o n (regs s)
    (match seqRead s p 2 (wop s p % 2 ^ 19) n with
    | (some bs, s) => close (depositAt p f o bs s)
    | (none, s) => abandonFrame (regs s) p f)

/-- RDB (R66). -/
def execWRdb (p : Port) (s : State) : Res := wireCmd p s (fun o => decide (0x18 ≤ o ∧ o ≤ 0x1A)) (fun f =>
  let n := (s.port p).seq.opc.toNat - 0x17
  readImage p s f n (scratch p) (fun t => closeFree p (advance p n t)))

/-- WRB (R66). -/
def execWWrb (p : Port) (s : State) : Res := wireCmd p s (fun o => decide (0x1B ≤ o ∧ o ≤ 0x1D)) (fun f =>
  let n := (s.port p).seq.opc.toNat - 0x1A
  writeImage p s f n (scratch p) (fun t => closeFree p (advance p n t)))

/-- The RD and WR routines that R88 prints begin with SQ1 from WOP. For the other lengths the scratch registers are free. -/
def dataRegs (p : Port) (printed : Bool) (w : Nat) (s : State) : State :=
  if printed then setSq p 1 (BitVec.ofNat 48 w) s else scratch p s

/-- The end of the RD and WR routines: as printed, SQ1 from WOP, the cursor past the field through ALUI, NXW. -/
def closeData (p : Port) (n : Nat) (printed : Bool) (w : Nat) (s : State) : State :=
  if printed then
    let s := setSq p 1 (BitVec.ofNat 48 w) s
    closeOp p (aluTo p 0 (aluFn 0 (sqReg s p 0) (BitVec.ofNat 48 n)) s)
  else closeFree p (advance p n s)

/-- RD (R66, R88). -/
def execWRd (p : Port) (s : State) : Res := wireCmd p s (fun o => decide (0x20 ≤ o ∧ o ≤ 0x2F)) (fun f =>
  let n := 4 * ((s.port p).seq.opc.toNat - 0x1F)
  readImage p s f n (dataRegs p (n == 24) (wop s p)) (closeData p n (n == 24) (wop s p)))

/-- WR (R66, R88). -/
def execWWr (p : Port) (s : State) : Res := wireCmd p s (fun o => decide (0x30 ≤ o ∧ o ≤ 0x3F)) (fun f =>
  let n := 4 * ((s.port p).seq.opc.toNat - 0x2F)
  writeImage p s f n (dataRegs p (n == 16) (wop s p)) (closeData p n (n == 16) (wop s p)))

/-! ### Time -/

/-- TSRX and TSTX (R66): a timestamp at the cursor; format 0b11 reaches an illegal microword, whose microaddress the
manual does not give and WSQ.UNDEF records as a free value (R43). -/
def stampOp (p : Port) (f : Frame) (tx : Bool) (s : State) : Option State :=
  let fmt := wop s p % 4
  if fmt = 3 then
    let u : BitVec 14 := s.freeVal 14
    some (illegalWord (scratch p (jumpU p u s.took)) p f (WSQ.ERR.ILLUW p))
  else
    let bs := tsiBytes (tsiStamp s p f (Fin.ofNat 4 (wop s p / 4)) tx) fmt
    atCursor p s f bs.length (fun o s => depositAt p f o bs s)

/-- TSRX (R66). -/
def execWTsrx (p : Port) (s : State) : Res := wireCmd p s (· == 0x40) (fun f => stampOp p f false s)

/-- TSTX (R66). -/
def execWTstx (p : Port) (s : State) : Res := wireCmd p s (· == 0x41) (fun f => stampOp p f true s)

/-- TSIN (R66): RXTS into the filling input buffer. -/
def execWTsin (p : Port) (s : State) : Res := wireCmd p s (· == 0x42) (fun f =>
  let r := seqWrite s p f 1 (wop s p % 2 ^ 19) (bytesLE 6 (f.stamps[(0 : Fin 4)]).lo.toNat)
  some (if r.2 then closeFree p r.1 else scratch p r.1))

/-- WAITT (R66): TMR0 or TMR1. -/
def execWWaitt (p : Port) (s : State) : Res := wireCmd p s (· == 0x44) (fun f =>
  if condition s p f (if (wop s p).testBit 0 then 22 else 21) then some (closeFree p s) else none)

/-- WAITG (R66). -/
def execWWaitg (p : Port) (s : State) : Res := wireCmd p s (· == 0x45) (fun f =>
  if condition s p f 23 then some (closeFree p s) else none)

/-- WAITW (R66). -/
def execWWaitw (p : Port) (s : State) : Res := wireCmd p s (· == 0x46) (fun f =>
  if condition s p f 24 then some (closeFree p s) else none)

/-! ### Queues -/

/-- The queue that a wire op names. -/
def opQueue (s : State) (p : Port) : BitVec 2 := BitVec.ofNat 2 (wop s p)

/-- QUEUE (R66). -/
def execWQueue (p : Port) (s : State) : Res := wireCmd p s (· == 0x48) (fun f =>
  some (closeFree p (queFrame p f (opQueue s p) s)))

/-- QEND (R66). -/
def execWQend (p : Port) (s : State) : Res := wireCmd p s (· == 0x49) (fun f =>
  some (endFree p f (queFrame p f (opQueue s p) s)))

/-- SINK (R66). -/
def execWSink (p : Port) (s : State) : Res := wireCmd p s (· == 0x4A) (fun f =>
  some (discardFrame (scratch p (queFrame p f (opQueue s p) s)) p f))

/-! ### Redundancy (R85) -/

/-- A stream nothing has touched since reset (log entry 3): TakeAny, not enabled. -/
def Stream.init : Stream :=
  { recov := 0, hist := 0, takeAny := true, alg := false, en := false, gen := 0, passed := 0, discarded := 0,
    outOfOrder := 0, rogue := 0 }

/-- A stream of a cluster's table. -/
def ClusterSt.stream (c : ClusterSt) (i : Nat) : Stream := (lookup i c.streams).getD Stream.init

def ClusterSt.setStream (c : ClusterSt) (i : Nat) (x : Stream) : ClusterSt :=
  { c with streams := putAt Stream.init i x c.streams }

/-- A saturating 16-bit count. -/
def satInc (x : BitVec 16) : BitVec 16 := if x = 0xFFFF then x else x + 1

/-- A frame is accepted with a new recovery number and history. -/
def Stream.accept (x : Stream) (n : BitVec 16) (hist : BitVec 64) (ordered : Bool) : Stream :=
  { x with recov := n, hist := hist, takeAny := false, passed := satInc x.passed,
           outOfOrder := if ordered then x.outOfOrder else satInc x.outOfOrder }

/-- IEEE 802.1CB sequence recovery: the vector algorithm with a history of 64, or the match algorithm (R85; the steps of
the algorithms are those of the standard the manual names, log entry 10). Answers the stream and whether the frame
passes. -/
def Stream.check (x : Stream) (n : BitVec 16) : Stream × Bool :=
  let delta := toSigned 16 (n - x.recov).toNat
  if !x.en then (x, true)
  else if x.takeAny then (x.accept n 1 true, true)
  else if x.alg then
    if n = x.recov then ({ x with discarded := satInc x.discarded }, false) else (x.accept n x.hist (n = x.recov + 1), true)
  else if 64 ≤ delta ∨ delta ≤ -64 then
    ({ x with rogue := satInc x.rogue, discarded := satInc x.discarded }, false)
  else if 0 < delta then (x.accept n ((x.hist <<< delta.toNat) ||| 1) (delta = 1), true)
  else
    let i := (-delta).toNat
    if x.hist.getLsbD i then ({ x with discarded := satInc x.discarded }, false)
    else ({ x with hist := x.hist ||| (1#64 <<< i), outOfOrder := satInc x.outOfOrder, passed := satInc x.passed }, true)

/-- SEQCHK (R66, R85). -/
def execWSeqchk (p : Port) (s : State) : Res := wireCmd p s (· == 0x50) (fun f =>
  let o := cursor s p
  let i := wop s p % 512
  let r := ((s.clu (cluOf p)).stream i).check (BitVec.ofNat 16 (natBE (f.slice o 2)))
  let t := s.modClu (cluOf p) (fun c => c.setStream i r.1)
  opAccess p s f o 2
    (if r.2 then closeFree p (advance p 2 (readPast p f o 2 t)) else discardFrame (scratch p (readPast p f o 2 t)) p f))

/-- SEQGEN (R66, R85). -/
def execWSeqgen (p : Port) (s : State) : Res := wireCmd p s (· == 0x51) (fun f =>
  let i := wop s p % 512
  let x := (s.clu (cluOf p)).stream i
  atCursor p s f 2 (fun o s =>
    (depositAt p f o (bytesBE 2 x.gen.toNat) s).modClu (cluOf p) (fun c => c.setStream i { x with gen := x.gen + 1 })))

/-- The entry of the duplicate table for a pair. -/
def ClusterSt.dup (c : ClusterSt) (src seqn : Nat) : Option DupEntry := c.dups.find? (fun d => d.src == src && d.seqn == seqn)

/-- A pair enters the duplicate table, or its entry changes; a full table evicts its oldest entry (R85). -/
def recordPair (s : State) (n : Clu) (src seqn : Nat) (g : DupEntry → DupEntry) : State :=
  let c := s.clu n
  match c.dup src seqn with
  | some _ => s.setClu n { c with dups := c.dups.map (fun d => if d.src = src ∧ d.seqn = seqn then g d else d) }
  | none =>
    let full := decide (1024 ≤ c.dups.length)
    let s := if full then s.count (DUP.STAT.EVICT n) else s
    s.setClu n { c with dups := (if full then c.dups.drop 1 else c.dups) ++ [g ⟨src, seqn, [], false⟩] }

/-- HSRCHK (R66, R85): the source address at offsets 6-11, the sequence number in the last two bytes of the 6-byte tag at
the cursor (log entry 10). -/
def hsrRoutine (p : Port) (f : Frame) (s : State) : State :=
  let n := cluOf p
  let src := natBE (f.slice 6 6)
  let seqn := natBE (f.slice (cursor s p + 4) 2)
  let own := entryMatches s p 0 (f.slice 6 6)
  let seen := (s.clu n).dup src seqn
  let fwd := match f.egress, seen with
    | some e, some d => d.fwd.contains e
    | _, _ => false
  let queued := match seen with
    | some d => d.queued
    | none => false
  if own then discardFrame (scratch p s) p f
  else if fwd then discardFrame (scratch p (s.count (DUP.STAT.DUPS n))) p f
  else
    let s := recordPair s n src seqn (fun d => { d with fwd := d.fwd ++ f.egress.toList })
    let s := s.modFrame p f.fctr (fun g => { g with dupKey := some (src, seqn) })
    let s := if queued then s.count (DUP.STAT.DUPS n) else s
    let s := advance p 6 (scratch p s)
    closeOp p (if queued then setFlag p false true s else s)

def execWHsrchk (p : Port) (s : State) : Res := wireCmd p s (· == 0x52) (fun f =>
  match f.touch (s.tunDepth p) 6 6, f.touch (s.tunDepth p) (cursor s p) 6 with
  | .violation, _ => some (windowViolation (scratch p s) p f)
  | _, .violation => some (windowViolation (scratch p s) p f)
  | .ok, .ok => some (withEntries p s f [0] (hsrRoutine p f s))
  | _, _ => none)

/-- The size that the PRP trailer must carry: the bytes after the Ethernet header and a VLAN tag, without the FCS
(IEC 62439-3, log entry 10). -/
def prpSize (f : Frame) : Nat := f.bytes.length - 18 - (if natBE (f.slice 12 2) = 0x8100 then 4 else 0)

/-- PRPCHK (R66, R85): the redundancy control trailer is the 6 bytes before the FCS. -/
def prpRoutine (p : Port) (f : Frame) (s : State) : State :=
  let n := cluOf p
  let l := f.bytes.length
  let trailer := (f.bytes.drop (l - 10)).take 6
  let seqn := natBE (trailer.take 2)
  let size := natBE ((trailer.drop 2).take 2) % 4096
  let src := natBE ((f.bytes.drop 6).take 6)
  let ok := decide (natBE (trailer.drop 4) = 0x88FB) && decide (size = prpSize f) && decide (24 ≤ l)
  let s := scratch p s
  if ok then
    let seen := ((s.clu n).dup src seqn).isSome
    let s := if seen then s.count (DUP.STAT.DUPS n) else s
    let s := recordPair s n src seqn id
    let s := s.modFrame p f.fctr (fun g => { g with dupKey := some (src, seqn) })
    closeOp p (setFlag p false seen s)
  else closeOp p (setFlag p false false s)

/-- PRPCHK waits for the frame's end; reading the source and the trailer is an access to them (R33). -/
def execWPrpchk (p : Port) (s : State) : Res := wireCmd p s (· == 0x53) (fun f =>
  if f.eof then
    match f.touch (s.tunDepth p) (f.bytes.length - 10) 6 with
    | .violation => some (windowViolation (scratch p s) p f)
    | _ => some (prpRoutine p f s)
  else none)

end Sys2Proof.Machine
end

