-- ==== Sys2Proof/Machine/RegAccess.lean ====
section
/-! DEFINITION. Who is admitted to the register region, and what a read of a register returns and does (R5-R8, R339-R345,
R361-R363, R386, R416, R444, R467-R474). -/

namespace Sys2Proof.Machine

open Reg

/-! ### Admission (R416, R444, R468, R474) -/

/-- The domain of a register's unit runs; while the block is held in reset nothing does. -/
def regUp (s : State) (a : Nat) : Bool :=
  !s.boot.inReset && s.up 0 && (!decide (0x40000 ≤ a ∧ a < 0x80000) || s.up ((a - 0x40000) / 0x10000 + 1))

/-- Registers that admit secure accesses only (R339, R363, R381, R386, R416). -/
def secureOnly (a : Nat) (wr : Bool) : Bool :=
  decide (0x10000 ≤ a ∧ a < 0x18000) || decide (0x8B000 ≤ a ∧ a < 0x8B080) || decide (0x8B400 ≤ a ∧ a < 0x8B500) ||
    decide (0x90000 ≤ a ∧ a < 0xA0000) || wr && decide (0x100 ≤ a ∧ a < 0x11C)

/-- Registers that an engine cannot reach (R340, R363, R386, R474). -/
def engineBarred (e a : Nat) : Bool :=
  decide (2 ≤ e) && (decide (0x10000 ≤ a ∧ a < 0x20000) || decide (0x8B000 ≤ a ∧ a < 0x8B100) || decide (0x8B400 ≤ a ∧ a < 0x8B500)) ||
    decide (0x90000 ≤ a ∧ a < 0xA0000) && !decide (0x93000 ≤ a ∧ a < 0x93200)

/-- A debug register that does not respond while the block is locked (R444). -/
def lockedAway (s : State) (a : Nat) : Bool :=
  decide (0x90000 ≤ a ∧ a < 0xA0000) && !s.on DBG.LOCK.OPEN && a != 0x90000 && a != 0x90004 &&
    !(decide (0x93000 ≤ a ∧ a < 0x93200) && !(fieldsAt a).isEmpty)

/-- A field that a write acts on (R468). -/
def Fld.writable (f : Fld) : Bool := f.acc == .rw || f.acc == .wo || f.acc == .w1c || f.acc == .w1s

/-- A mailbox address: the channel's H2B, or its B2H. -/
def inH2b (a : Nat) : Bool := decide (0x10000 ≤ a ∧ a < 0x20000) && decide (a % 0x4000 < 0x400)
def inB2h (a : Nat) : Bool := decide (0x10000 ≤ a ∧ a < 0x20000) && decide (0x400 ≤ a % 0x4000 ∧ a % 0x4000 < 0x800)

/-- Registers whose access differs for the engines: B2H, DB.BMASK and MB.CFG are RW (R367). -/
def engineOnly (a : Nat) : Bool := inB2h a || decide (0x10000 ≤ a ∧ a < 0x20000) && (a % 0x4000 == 0x814 || a % 0x4000 == 0x81C)

/-- A write can change the register (R345, R367, R468). -/
def regWritable (req a : Nat) : Bool :=
  if req < 14 then engineOnly a || !inH2b a && (fieldsAt a).any Fld.writable else (fieldsAt a).any Fld.writable

/-- The mailbox is full for this writer (R345). -/
def mailFull (s : State) (req a : Nat) : Bool :=
  let c := (a - 0x10000) / 0x4000
  if inH2b a then decide (14 ≤ req) && s.bit (DB.BB.BITS c) 0
  else if inB2h a then decide (req < 14) && s.bit (DB.HB.BITS c) 1
  else false

/-- The status of a register access by the precedence of R416. `req` is the requester number: an engine's index, or 14 for
the slave port. -/
def regStatus (s : State) (req : Nat) (sec wr : Bool) (a : Nat) : Nat :=
  if !regUp s a then stPower
  else if !sec && secureOnly a wr then stSecurity
  else if decide (req < 14) && engineBarred req a then stDecode
  else if lockedAway s a then (if wr then stReadonly else stOkay)
  else if (fieldsAt a).isEmpty then stDecode
  else if wr && !regWritable req a then stReadonly
  else if wr && mailFull s req a then stBusy
  else stOkay

/-- What a refused access leaves: the log of non-secure accesses to a secure channel, the count of refused H2B writes
(R339, R345). -/
def regRefused (st : Nat) (wr : Bool) (a : Nat) (s : State) : State :=
  if st = stSecurity ∧ 0x10000 ≤ a ∧ a < 0x18000 then
    ((s.put (MB.SECLOG.OFFS 0) a).put (MB.SECLOG.WE 0) wr.toNat).count (MB.SECCNT.CNT 0)
  else if st = stBusy ∧ inH2b a = true then s.count (MB.BUSYCNT.CNT ((a - 0x10000) / 0x4000))
  else s

/-! ### Reads -/

/-- The fields of a register as they stand; a WO field reads 0 (R5). -/
def fieldsValue (s : State) (fs : List Fld) : Nat := (fs.map (fun f => if f.acc = .wo then 0 else s.get f * 2 ^ f.lo)).sum

/-- A read clears the RC fields, unless it is quiet (R5, R8). -/
def clearRc (quiet : Bool) (fs : List Fld) (s : State) : State :=
  if quiet then s else fs.foldl (fun t f => if f.acc = .rc then t.lower f else t) s

/-- A plain register. -/
def plainRead (quiet : Bool) (a : Nat) (s : State) : Nat × State := (fieldsValue s (fieldsAt a), clearRc quiet (fieldsAt a) s)

/-- Requesters as a bit set. -/
def reqBits (l : List (Nat × Nat)) : Nat := l.foldl (fun m e => m ||| 2 ^ e.1) 0

/-- GLB.WDOG.CNT counts down from PER in milliseconds that the model does not time: a free value between 0 and the value that was read
or loaded last (log entry 7). While the watchdog does not run it holds its count (R393). -/
def wdogCount (s : State) : Nat :=
  let c := s.get GLB.WDOG.CNT.MS
  if s.get GLB.WDOG.PER.MS = 0 ∨ s.on DBG.WDHOLD.HOLD = true then c else (s.freeVal 16).toNat % (c + 1)

/-- Registers of the global region. -/
def readGlobal (quiet : Bool) (a : Nat) (s : State) : Nat × State :=
  match a with
  | 0x20C => (wdogCount s, (if quiet then s else s.put GLB.WDOG.CNT.MS (wdogCount s)).took)
  | 0x304 => (grantedMw s, s)
  | 0x308 => (reqBits s.permit.granted, s)
  | 0x30C => (s.permit.queue.length + 2 ^ 8 * (match s.permit.queue with | e :: _ => e.1 | [] => 0), s)
  | 0x310 => (reqBits s.permit.aside, s)
  | _ => plainRead quiet a s

/-- Registers of a mailbox channel (R342, R343, R345, R367). -/
def readMailbox (quiet : Bool) (c a : Nat) (s : State) : Nat × State :=
  let o := a % 0x4000
  if o < 0x800 then (s.load a 4, s)
  else match o with
    | 0x80C => (s.get (DB.HB.BITS c) &&& s.get (DB.HMASK.MASK c), s)
    | 0x818 =>
      let r := plainRead quiet a s
      (r.1 / 4 * 4 + (s.bit (DB.BB.BITS c) 0).toNat + 2 * (s.bit (DB.HB.BITS c) 1).toNat, r.2)
    | _ => plainRead quiet a s

/-- Registers of the time unit (R97, R116). -/
def readTime (quiet : Bool) (o a : Nat) (s : State) : Nat × State :=
  if o < 0x100 then
    let t := s.dom (Fin.ofNat 4 (o / 0x40))
    match o % 0x40 with
    | 0x00 => (t.hi.toNat % 2 ^ 32, s)
    | 0x04 => (t.hi.toNat / 2 ^ 32, s)
    | 0x08 => (t.lo.toNat % 2 ^ 32, s)
    | 0x0C => (t.lo.toNat / 2 ^ 32, s)
    | _ => plainRead quiet a s
  else if o = 0x304 then (s.get TU.TMO.SET.LVL, s)
  else plainRead quiet a s

/-- Registers of the Tiller and twin controllers (R193). -/
def readTillerTwin (quiet : Bool) (a : Nat) (s : State) : Nat × State :=
  if a = 0x38004 then
    (s.get TWN.STAT.STATE + 2 ^ 3 * (s.bit GLB.MI.LINK.LINK 8).toNat + 2 ^ 4 * (debugHold s).toNat + 2 ^ 5 * s.get TWN.STAT.DBGOPEN, s)
  else if a = 0x34000 ∨ a = 0x347FC then (0, s)
  else plainRead quiet a s

/-- Registers of a wire sequencer (R57, R62). A read of a dispatch entry corrects and counts a single-bit error (R49). -/
def readWsq (quiet : Bool) (p : Port) (o a : Nat) (s : State) : Nat × State :=
  match o with
  | 0x04 =>
    let q := (s.port p).seq
    (s.get (WSQ.STAT.RUNACT p) + 2 * ((s.port p).tun.any (fun f => f.prog == .running)).toNat + 4 * s.get (WSQ.STAT.LOADING p) +
      8 * s.get (WSQ.STAT.WPBANKACT p) + 2 ^ 4 * q.stk.length + 2 ^ 16 * q.upc.toNat, s)
  | 0x38 =>
    let w := (lookup (1024 * s.get (WSQ.WPM.IDX.BANK p) + s.get (WSQ.WPM.IDX.IDX p)) (s.port p).wpm).getD 0
    (w, if quiet then s else wpmNext p s)
  | _ =>
    let (v, t) := plainRead quiet a s
    (v, if 0x400 ≤ o ∧ o < 0x800 ∧ !quiet then noteSoft t p (16384 + (o - 0x400) / 4) else t)

/-- GCL.IDX moves on after an access to GCL.DATA (R89). -/
def gclNext (p : Port) (s : State) : State :=
  if s.on (GCL.IDX.WORD p) then (s.lower (GCL.IDX.WORD p)).put (GCL.IDX.ENTRY p) (s.get (GCL.IDX.ENTRY p) + 1)
  else s.raise (GCL.IDX.WORD p)

/-- Registers of a port's extension (R89). -/
def readPx (quiet : Bool) (p : Port) (o a : Nat) (s : State) : Nat × State :=
  if o = 0x30C then
    (gclWord s p (s.get (GCL.IDX.BANK p)) (s.get (GCL.IDX.ENTRY p)) (s.get (GCL.IDX.WORD p)), if quiet then s else gclNext p s)
  else plainRead quiet a s

/-- A word of a stream as FRER.DATA shows it (R90). -/
def streamWord (x : Stream) (w : Nat) : Nat :=
  match w with
  | 0 => x.recov.toNat + 2 ^ 16 * x.takeAny.toNat + 2 ^ 17 * x.alg.toNat + 2 ^ 18 * x.en.toNat
  | 1 => x.hist.toNat % 2 ^ 32
  | 2 => x.hist.toNat / 2 ^ 32
  | 3 => x.passed.toNat + 2 ^ 16 * x.discarded.toNat
  | 4 => x.outOfOrder.toNat + 2 ^ 16 * x.rogue.toNat
  | _ => 0

/-- Registers of a bit line (R428). -/
def readBitLine (quiet : Bool) (k : Line) (o a : Nat) (s : State) : Nat × State :=
  match o with
  | 0x14 => let r := lineRead k s; (r.1, if quiet then s else r.2)
  | 0x18 =>
    let r := plainRead quiet a s
    let x := s.line k
    (r.1 / 2 ^ 18 * 2 ^ 18 + x.tx.length + 2 ^ 8 * x.rx.length + 2 ^ 16 * s.get (BL.STAT.TXBUSY k) + 2 ^ 17 * x.start.isSome.toNat, r.2)
  | _ => plainRead quiet a s

/-- Registers of a cluster's shared tables, timer unit, window tables, bit lines and translation (R90, R111, R124, R337). -/
def readShared (quiet : Bool) (n : Clu) (o a : Nat) (s : State) : Nat × State :=
  if o = 0x6008 then (streamWord ((s.clu n).stream (s.get (FRER.IDX.STREAM n))) (s.get (FRER.IDX.WORD n)), s)
  else if o = 0x7000 then ((s.clu n).cnt.toNat % 2 ^ 32, s)
  else if o = 0x7004 then ((s.clu n).cnt.toNat / 2 ^ 32, s)
  else if 0x7400 ≤ o ∧ o < 0x7600 ∧ o % 0x80 = 0x10 then
    let l : Fin 4 := Fin.ofNat 4 ((o - 0x7400) / 0x80)
    (s.get (TTW.STAT.CFGERR n l) + 2 * (s.lineOpen n l).toNat, s)
  else if 0x7800 ≤ o ∧ o < 0x7900 then readBitLine quiet (Fin.ofNat 8 (2 * n.val + (o - 0x7800) / 0x80)) (o % 0x80) a s
  else plainRead quiet a s

/-- XL.E.STAT shows a walk under way (R337). -/
def readXlStat (e : Eng) (s : State) : Nat :=
  s.get (XL.E.STAT.SDSEEN e) + 2 * ((s.engine e).xl.walk.any (fun w => w.at'.isSome)).toNat

/-- Registers of a cluster window (R470). -/
def readCluster (quiet : Bool) (n : Clu) (a : Nat) (s : State) : Nat × State :=
  let o := a % 0x10000
  if o < 0x4000 then readWsq quiet (portOf (2 * n.val + (o - 0x2000) / 0x1000)) (o % 0x1000) a s
  else if o < 0x6000 then readPx quiet (portOf (2 * n.val + (o - 0x4000) / 0x1000)) (o % 0x1000) a s
  else if 0x8000 ≤ o ∧ o % 0x20 = 0xC then (readXlStat (engOf (2 + 3 * n.val + (o - 0x8000) / 0x20)) s, s)
  else readShared quiet n o a s

/-- Registers of the management cluster (R316, R337, R471). A read of SEM.TAKE takes the semaphore as requester
14. -/
def readMgmt (quiet : Bool) (o a : Nat) (s : State) : Nat × State :=
  if o = 0xA00C ∨ o = 0xA02C then (readXlStat (engOf ((o - 0xA000) / 0x20)) s, s)
  else if 0xD000 ≤ o ∧ o < 0xD100 then
    let k := (o - 0xD000) / 4
    if quiet then ((!s.on (SEM.HOLD.HELD k)).toNat, s) else semTake 14 k s
  else if o = 0xD104 ∨ o = 0xD10C then (semBits s 0 32, s)
  else if o = 0xD108 ∨ o = 0xD110 then (semBits s 32 32, s)
  else plainRead quiet a s

/-- Debug and trace registers (R454, R461, R464-R466). -/
def readDebug (quiet : Bool) (o a : Nat) (s : State) : Nat × State :=
  if o = 0x3004 then
    let r := plainRead quiet a s
    (r.1 / 2 ^ 16 * 2 ^ 16 + s.trace.fifo.length, r.2)
  else if 0x1000 ≤ o ∧ o < 0x2C00 ∧ o % 0x200 = 0x1C then
    let r := pdataRead (engOf ((o - 0x1000) / 0x200)) quiet s
    (r.1.toNat % 2 ^ 32, r.2)
  else if 0x1000 ≤ o ∧ o < 0x2C00 ∧ o % 0x200 = 0x20 then pdataHigh (engOf ((o - 0x1000) / 0x200)) s
  else plainRead quiet a s

/-- An admitted read of a register. -/
def readReg (quiet : Bool) (a : Nat) (s : State) : Nat × State :=
  if a < 0x10000 then readGlobal quiet a s
  else if a < 0x20000 then readMailbox quiet ((a - 0x10000) / 0x4000) a s
  else if a < 0x30000 then readTime quiet (a - 0x20000) a s
  else if a < 0x40000 then readTillerTwin quiet a s
  else if a < 0x80000 then readCluster quiet (Fin.ofNat 4 ((a - 0x40000) / 0x10000)) a s
  else if a < 0x90000 then readMgmt quiet (a - 0x80000) a s
  else readDebug quiet (a - 0x90000) a s

/-- A read of a register: status, value and what it leaves (R416, R468). -/
def regRead (req : Nat) (sec quiet : Bool) (a : Nat) (s : State) : Nat × Nat × State :=
  let st := regStatus s req sec false a
  if st ≠ stOkay then (st, 0, regRefused st false a s)
  else if lockedAway s a then (stOkay, 0, s)
  else
    let r := readReg quiet a s
    (stOkay, r.1 % 2 ^ 32, r.2)

end Sys2Proof.Machine
end

