-- ==== Sys2Proof/Machine/RegWrite.lean ====
section
/-! DEFINITION. What a write of a register does (R5-R7, R381, R467-R474), and the commands that are register accesses. -/

namespace Sys2Proof.Machine

open Reg

/-! ### Plain writes (R5) -/

/-- The bits of a written word that fall on a field. -/
def Fld.part (f : Fld) (v : Nat) : Nat := v / 2 ^ f.lo % 2 ^ f.w

/-- A write of a field by its access type (R5). A WO field triggers an action of its own, or nothing. -/
def writeField (v : Nat) (s : State) (f : Fld) : State :=
  match f.acc with
  | .rw => s.put f (Fld.part f v)
  | .w1c => s.put f (clearBits (s.get f) (Fld.part f v))
  | .w1s => s.put f (s.get f ||| Fld.part f v)
  | _ => s

/-- A write of the fields of a register, but for those in `skip`. -/
def plainWrite (skip : List Fld) (a v : Nat) (s : State) : State :=
  ((fieldsAt a).filter (fun f => !skip.contains f)).foldl (writeField v) s

/-! ### Start-up (R380, R381) -/

/-- The address of a host image; bits [3:0] are ignored (R387). -/
def hostImage (s : State) : Nat := (s.get GLB.BOOT.HADDR_L.ADDR + 2 ^ 32 * s.get GLB.BOOT.HADDR_H.ADDR) / 16 * 16

/-- A host image's address may name any memory but the staging area: external memory, a cluster memory, a scratchpad, a control
store, or the granary below it (R381). -/
def hostSource (a : Nat) : Bool :=
  isExternal a || inClu (a - blockSpace) || inSp (a - blockSpace) || inCs (a - blockSpace) || inGran (a - blockSpace) && decide (a - blockSpace < 0x1400000)

/-- No firmware and no loader runs in reset, nor from a debug unlock to the next block reset (R446). -/
def State.bootRuns (s : State) : Bool := !s.boot.inReset && !s.on DBG.LOCK.ERASING && !s.on DBG.LOCK.OPEN && !s.tap.scanDue

/-- A write of 1 to GLB.BOOT.CTRL.GO: the copy of a host image begins, or ends at once with RESULT SOURCE (R381). -/
def bootGo (s : State) : State :=
  let g := s.get GLB.BOOT.STAT.STAGE
  if s.bootRuns && (g == 1 || g == 7) then
    if hostSource (hostImage s) then
      { (s.raise GLB.BOOT.STAT.SRC).put GLB.BOOT.STAT.STAGE 2 with boot := { s.boot with staging := true } }
    else (s.put GLB.BOOT.STAT.RESULT 12).put GLB.BOOT.STAT.STAGE 7
  else s

/-- FAILA and FAILB clear (R387). -/
def clearFail (s : State) : State := (s.lower GLB.BOOT.STAT.FAILA).lower GLB.BOOT.STAT.FAILB

/-! ### The regions -/

/-- A write of GLB.WDOG.PER (R393): a watchdog that starts counts down from it; one that runs takes it at its next reload (log entry
77). -/
def writeWdogPer (a v : Nat) (s : State) : State :=
  let was := s.get GLB.WDOG.PER.MS
  let s := plainWrite [] a v s
  if was = 0 then kickBlock s else s

/-- Registers of the global region (R381, R387, R393, R395, R396, R423). -/
def writeGlobal (req a v : Nat) (s : State) : State :=
  match a with
  | 0x204 => writeWdogPer a v s
  | 0x104 =>
    let s := plainWrite [] a v s
    let s := if v.testBit 2 then clearFail s else s
    if v.testBit 0 then bootGo s else s
  | 0x208 => if v.testBit 0 then kickBlock s else s
  | 0x240 =>
    let s := plainWrite [] a v s
    if v.testBit 31 then powerRequest (decide (req < 2)) (s.get PWR.REQ.DOM) (s.get PWR.REQ.MODE) s else s
  | 0x248 => (engMask v).foldl parkEngine s
  | 0x500 => plainWrite (((List.range 4).map GLB.MI.REFSEL.REF).filter (fun f => Fld.part f v == 3)) a v s
  | _ => plainWrite [] a v s

/-- Registers of a mailbox channel (R342-R345, R367). The engines write B2H, DB.BMASK and MB.CFG. -/
def writeMailbox (c a v : Nat) (s : State) : State :=
  let o := a % 0x4000
  if o < 0x800 then { s with mem := memSetAll s.mem a (bytesLE 4 v) }
  else match o with
    | 0x800 => clearHost c v s
    | 0x810 => ringBlock c v s
    | 0x814 => s.put (DB.BMASK.MASK c) v
    | 0x81C => (s.put (MB.CFG.ENG c) v).put (MB.CFG.XUS c) (v / 2 ^ 16)
    | _ => plainWrite [] a v s

/-- Registers of the time unit (R93-R95, R110, R116). -/
def writeTime (o a v : Nat) (s : State) : State :=
  let d : Fin 4 := Fin.ofNat 4 (o / 0x40)
  if o < 0x100 then
    match o % 0x40 with
    | 0x10 => holdAdj d (BitVec.ofNat 32 v) s
    | 0x14 => setAdj d (BitVec.ofNat 16 v ++ (s.dom d).held) s
    | 0x30 => timeCmd d (v.testBit 0) (v.testBit 1) s
    | _ => plainWrite [] a v s
  else if 0x280 ≤ o ∧ o < 0x2C0 ∧ o % 0x10 = 0 then cutPulses (plainWrite [] a v s)
  else match o with
    | 0x300 => setPins v s
    | 0x304 => clearPins v s
    | 0x308 => togglePins v s
    | _ => checkCalibration (plainWrite [] a v s)

/-- A write of TIL.RINGr.CTRL (R139, R145). -/
def writeRing (r : Clu) (a v : Nat) (s : State) : State :=
  let en := v.testBit 0
  let s := plainWrite [TIL.RING.CTRL.EN r] a v s
  let s := if en = s.on (TIL.RING.CTRL.EN r) then s else ringEnable r en s
  let s := if v.testBit 2 then sendScout r true s else s
  let s := if v.testBit 3 then sendScout r false s else s
  if v.testBit 4 then ringRelisten r s else s

/-- A write of TWN.CTRL (R166, R186, R187). -/
def writeTwin (a v : Nat) (s : State) : State :=
  let old := s.get TWN.CTRL.RINGS
  let s := plainWrite [TWN.CTRL.LEVEL] a v s
  let s := if s.get TWN.CTRL.RINGS = old || twinState s == 0 then s else refreshRoles s
  let s := if v % 4 = s.get TWN.CTRL.LEVEL then s else writeLevel (v % 4) s
  let s := if v.testBit 7 then orderHandover s else s
  if v.testBit 8 then forceResync s else s

/-- Registers of the Tiller and twin controllers. Only ME0 kicks TWN.ALIVE (R178), and entries 0 and 511 of the routing table ignore
writes (R162). -/
def writeTillerTwin (req o a v : Nat) (s : State) : State :=
  if o = 0x8000 then writeTwin a v s
  else if o = 0x8018 then (if v.testBit 0 && req == 0 then { s with alive := true } else s)
  else if o = 0x4000 ∨ o = 0x47FC then s
  else if 0x100 ≤ o ∧ o < 0x500 ∧ o % 0x100 = 0 then writeRing (Fin.ofNat 4 (o / 0x100 - 1)) a v s
  else plainWrite [] a v s

/-- A write of LP.CFG: an invalid DEPTH leaves the field and sets CFGERR (R26). -/
def writeDepth (p : Port) (v : Nat) (s : State) : State :=
  if 4 ≤ v % 256 ∧ v % 256 ≤ 128 then s.put (LP.CFG.DEPTH p) v else s.raise (LP.STAT.CFGERR p)

/-- A write of WSQ.CSLD.CTRL (R48). With both bits set ABORT acts alone while a load is in progress, since GO has no effect
then, and otherwise GO alone, since there is no load to abort (DESIGN CHOICE, log entry 68). -/
def writeLoader (p : Port) (go abort : Bool) (s : State) : State :=
  if (s.port p).csld.isSome then (if abort then abortLoad p s else s)
  else if go then startLoad p s else s

/-- Registers of a wire sequencer (R26-R28, R44, R48, R55-R62). WSQ.ERR.RATE stays set while the rates differ. -/
def writeWsq (p : Port) (o a v : Nat) (s : State) : State :=
  match o with
  | 0x08 => noteRate (plainWrite [] a v s) p
  | 0x00 => plainWrite (if v / 4 % 4 = 3 then [WSQ.CTRL.EGR p] else []) a v s
  | 0x20 => writeDepth p v s
  | 0x38 => wpmWrite p (BitVec.ofNat 32 v) s
  | 0x48 => writeLoader p (v.testBit 0) (v.testBit 1) s
  | _ => plainWrite [] a v s

/-- A write of PX.CTRL (R86, R87, R89). -/
def writePxCtrl (p : Port) (a v : Nat) (s : State) : State :=
  let keep := s.on (PX.STAT.ENACT p) || v / 2 % 4 == 3
  let s := plainWrite (PX.CTRL.EN p :: (if keep then [PX.CTRL.OWNER p] else [])) a v s
  if v.testBit 0 = s.on (PX.CTRL.EN p) then s else if v.testBit 0 then enablePort p s else disablePort p s

/-- A write of GCL.DATA; the operational list of a port cannot be written (R83). -/
def gclWrite (p : Port) (v : Nat) (s : State) : State :=
  let b := s.get (GCL.IDX.BANK p)
  let k := 2048 * b + 2 * s.get (GCL.IDX.ENTRY p) + s.get (GCL.IDX.WORD p)
  let s := if b = s.get (GCL.STAT.OPERBANK p) then s else s.modPort p (fun x => { x with gcl := putAt 0 k v x.gcl })
  gclNext p s

/-- Registers of a port's extension (R73, R83, R89). -/
def writePx (p : Port) (o a v : Nat) (s : State) : State :=
  match o with
  | 0x000 => writePxCtrl p a v s
  | 0x008 => moveRole p (roleByte s p) (plainWrite [] a v s)
  | 0x028 => if v.testBit 0 then takeImage s p else s
  | 0x030 => if v.testBit 0 then publishOwn p s else s
  | 0x300 => let s := plainWrite [] a v s; if v.testBit 0 then gclChange p s else s
  | 0x30C => gclWrite p v s
  | _ => plainWrite [] a v s

/-- A write of FRER.DATA: ALG and EN of a stream; setting EN returns it to TakeAny (R90). -/
def writeStream (n : Clu) (v : Nat) (s : State) : State :=
  if s.get (FRER.IDX.WORD n) = 0 then
    let i := s.get (FRER.IDX.STREAM n)
    s.modClu n (fun c =>
      let x := c.stream i
      c.setStream i { x with alg := v.testBit 17, en := v.testBit 18, takeAny := x.takeAny || v.testBit 18 })
  else s

/-- A bit line leaves service when EN falls (R428). -/
def writeLineCtrl (k : Line) (a v : Nat) (s : State) : State :=
  let s := if s.on (BL.CTRL.EN k) && !v.testBit 0 then stopLine k s else s
  plainWrite (if v / 2 % 4 = 3 then [BL.CTRL.MODE k] else []) a v s

/-- Registers of a bit line (R425-R428). -/
def writeBitLine (k : Line) (o a v : Nat) (s : State) : State :=
  match o with
  | 0x00 => writeLineCtrl k a v s
  | 0x10 => lineWrite k (BitVec.ofNat 32 v) s
  | 0x20 => armLine k v s
  | 0x24 => if v.testBit 0 then disarmLine k s else s
  | _ => plainWrite [] a v s

/-- A write of TTW.CTRL: when EN rises every window of the line closes (R106). -/
def writeWindow (n : Clu) (l : Fin 4) (a v : Nat) (s : State) : State :=
  let was := s.on (TTW.CTRL.EN n l)
  let s := plainWrite [] a v s
  if !was && s.on (TTW.CTRL.EN n l) then closeWindows n l s else s

/-- Registers of a cluster's shared tables, timer unit, window tables, bit lines and translation. -/
def writeShared (n : Clu) (o a v : Nat) (s : State) : State :=
  if o = 0x6008 then writeStream n v s
  else if 0x7040 ≤ o ∧ o < 0x70C0 then
    let c : Fin 8 := Fin.ofNat 8 ((o - 0x7040) / 0x10)
    match o % 0x10 with
    | 0x0 => holdCompare n c (BitVec.ofNat 32 v) s
    | 0x4 => armCompare n c (BitVec.ofNat 16 v ++ (s.clu n).held[c]) s
    | 0xC => let s := plainWrite [] a v s; if v.testBit 8 then s.lower (TMR.CH.CTRL.ARMED n c) else s
    | _ => plainWrite [] a v s
  else if 0x70C0 ≤ o ∧ o < 0x7100 ∧ o % 0x10 = 0 then
    -- a reserved SRC leaves the field unchanged (R116)
    plainWrite (if 7 ≤ v / 4 % 16 then [TMR.CAP.CTRL.SRC n ((o - 0x70C0) / 0x10)] else []) a v s
  else if 0x7400 ≤ o ∧ o < 0x7600 ∧ o % 0x80 = 0 then writeWindow n (Fin.ofNat 4 ((o - 0x7400) / 0x80)) a v s
  else if 0x7800 ≤ o ∧ o < 0x7900 then writeBitLine (Fin.ofNat 8 (2 * n.val + (o - 0x7800) / 0x80)) (o % 0x80) a v s
  else plainWrite [] a v s

/-- Registers of a cluster window (R470). -/
def writeCluster (n : Clu) (a v : Nat) (s : State) : State :=
  let o := a % 0x10000
  if o < 0x4000 then writeWsq (portOf (2 * n.val + (o - 0x2000) / 0x1000)) (o % 0x1000) a v s
  else if o < 0x6000 then writePx (portOf (2 * n.val + (o - 0x4000) / 0x1000)) (o % 0x1000) a v s
  else writeShared n o a v s

/-- A write of DMA.CHc.CTRL (R364, R365): while the channel runs GO has no effect, and while it does not ABORT has none. -/
def writeDmaCtrl (c : Ch) (sec : Bool) (a v : Nat) (s : State) : State :=
  let s := plainWrite [] a v s
  if s.on (DMA.CH.STAT.BUSY c) then (if v.testBit 1 then dmaAbort c s else s) else if v.testBit 0 then dmaStart c sec s else s

/-- A write of CRY.CTRL (R385): while a job runs GO has no effect, and without one ABORT has none. -/
def writeCryCtrl (a v : Nat) (s : State) : State :=
  let s := plainWrite [] a v s
  if s.on CRY.STAT.BUSY then (if v.testBit 1 then cryAbort s else s) else if v.testBit 0 then cryStart s else s

/-- A write of MEMT.CMD (R310). -/
def writeMemtCmd (v : Nat) (s : State) : State :=
  let s := if v.testBit 0 then memtGran s else s
  if v.testBit 1 then memtSp (bits v 8 4) s else s

/-- Registers of the management cluster (R292, R295-R297, R308-R310, R333, R364, R385, R471). -/
def writeMgmt (sec : Bool) (o a v : Nat) (s : State) : State :=
  if 0xB000 ≤ o ∧ o < 0xB100 ∧ o % 0x40 = 0x1C then writeDmaCtrl (Fin.ofNat 4 ((o - 0xB000) / 0x40)) sec a v s
  else if 0xB480 ≤ o ∧ o < 0xB500 then s.put (CRY.KEY.KEY ((o - 0xB480) / 0x20) (o % 0x20 / 4)) v
  else if 0xC000 ≤ o ∧ o < 0xC040 then ownerWrite (engOf ((o - 0xC000) / 4)) (v % 4) s
  else match o with
    | 0xA208 => let s := plainWrite [] a v s; if v.testBit 31 then shootdown s else s
    | 0xB400 => writeCryCtrl a v s
    | 0xC100 => policyWrite (v % 4) (plainWrite [MEMT.CTRL.POLICY] a v s)
    | 0xC104 => writeMemtCmd v s
    | 0xD100 => semGive 14 (v % 64) s
    | 0xD10C => semForceAll v s
    | 0xD110 => semForceAll (v * 2 ^ 32) s
    | _ => plainWrite [] a v s

/-- Registers of a debug unit of an engine (R453, R454, R457). -/
def writeDebugEng (e : Eng) (o a v : Nat) (s : State) : State :=
  if 0x40 ≤ o ∧ o < 0x140 then plainWrite [] a v (keepPatch e s)
  else match o with
    | 0x0C => writeDebugPc e v s
    | 0x1C => pdataLow e v s
    | 0x20 => pdataWrite e v s
    | _ => plainWrite [] a v s

/-- A write of HGg.CTRL (R455): GO makes the group act in the next cycle, RESUME acts in this one. -/
def writeGroup (g : Fin 4) (a v : Nat) (s : State) : State :=
  let s := plainWrite [] a v s
  let s := if v.testBit 1 then setOff s g else s
  if v.testBit 2 then (engMask (s.get (HG.STOP.ENG g))).foldl (resumeEngine false) s else s

/-- Debug and trace registers (R445, R450, R453-R455, R462-R466). -/
def writeDebug (o a v : Nat) (s : State) : State :=
  if 0x1000 ≤ o ∧ o < 0x2C00 then writeDebugEng (engOf ((o - 0x1000) / 0x200)) (o % 0x200) a v s
  else if 0x40 ≤ o ∧ o < 0x80 ∧ o % 0x10 = 0 then writeGroup (Fin.ofNat 4 ((o - 0x40) / 0x10)) a v s
  else match o with
    | 0x0004 => unlockRequest v s
    | 0x0008 => holdEnded s (plainWrite [] a v s)
    | 0x0010 => (engMask v).foldl (requestHalt 0 []) s
    | 0x0014 => (engMask v).foldl (resumeEngine false) s
    | 0x0018 => (engMask v).foldl (resumeEngine true) s
    | 0x3000 => traceEnable (v.testBit 0) (plainWrite [TRC.CTRL.EN] a v s)
    | _ => plainWrite [] a v s

/-- An admitted write of a register by a requester. -/
def writeReg32 (req : Nat) (sec : Bool) (a v : Nat) (s : State) : State :=
  if a < 0x10000 then writeGlobal req a v s
  else if a < 0x20000 then writeMailbox ((a - 0x10000) / 0x4000) a v s
  else if a < 0x30000 then writeTime (a - 0x20000) a v s
  else if a < 0x40000 then writeTillerTwin req (a - 0x30000) a v s
  else if a < 0x80000 then writeCluster (Fin.ofNat 4 ((a - 0x40000) / 0x10000)) a v s
  else if a < 0x90000 then writeMgmt sec (a - 0x80000) a v s
  else writeDebug (a - 0x90000) a v s

/-- A write of a register: status and what it leaves (R416, R468). -/
def regWrite (req : Nat) (sec : Bool) (a v : Nat) (s : State) : Nat × State :=
  let st := regStatus s req sec true a
  if st ≠ stOkay then (st, regRefused st true a s) else (stOkay, writeReg32 req sec a v s)

/-! ### Commands -/

/-- A host access of a register: a single 4-byte beat on the slave port, whose answer the state keeps (R415, R416). -/
def hostWrite (sec : Bool) (a v : Nat) (s : State) : State :=
  let r := regWrite 14 sec a v s
  { r.2 with ans := ⟨r.1, 0⟩ }

def hostRead (sec quiet : Bool) (a : Nat) (s : State) : State :=
  let r := regRead 14 sec quiet a s
  { r.2.2 with ans := ⟨r.1, r.2.1⟩ }

/-- REGISTER_WRITE (R5, R468, R473): a host write of a register. -/
def execRegisterWrite (sec : Bool) (a : BitVec 22) (v : BitVec 32) (s : State) : Res := .next (hostWrite sec a.toNat v.toNat s)

/-- RC_READ (R5, R7): a host read of a register; its RC fields clear. -/
def execRcRead (sec : Bool) (a : BitVec 22) (s : State) : Res := .next (hostRead sec false a.toNat s)

/-- H2B_WRITE (R345): a host write of word `w` of channel `c`'s H2B. -/
def execH2bWrite (sec : Bool) (c : Fin 4) (w : BitVec 8) (v : BitVec 32) (s : State) : Res :=
  .next (hostWrite sec (0x10000 + 0x4000 * c.val + 4 * w.toNat) v.toNat s)

/-- BB_RING (R342, R344): a host write of DB.BB. -/
def execBbRing (sec : Bool) (c : Fin 4) (v : BitVec 32) (s : State) : Res :=
  .next (hostWrite sec (0x10810 + 0x4000 * c.val) v.toNat s)

/-- HB_CLEAR (R342, R344): a host write of DB.HB. -/
def execHbClear (sec : Bool) (c : Fin 4) (v : BitVec 32) (s : State) : Res :=
  .next (hostWrite sec (0x10800 + 0x4000 * c.val) v.toNat s)

/-- CLRFAIL (R380, R387): a secure write of 1 to GLB.BOOT.CTRL.CLRFAIL, with PREF as it stands. -/
def execClrfail (s : State) : Res := .next (hostWrite true 0x104 (2 * s.get GLB.BOOT.CTRL.PREF + 4) s)

/-- BOOT_GO (R381): a secure write of 1 to GLB.BOOT.CTRL.GO, with PREF as it stands. -/
def execBootGo (s : State) : Res := .next (hostWrite true 0x104 (2 * s.get GLB.BOOT.CTRL.PREF + 1) s)

end Sys2Proof.Machine
end

