-- ==== Sys2Proof/Machine/Bus.lean ====
section
/-! DEFINITION. The slave port, the master port's answers, the debug TAP's accesses, and the completion of the engines' own
accesses (R225-R229, R277, R293, R413-R419, R449, R473, R474). -/

namespace Sys2Proof.Machine

open Reg

/-! ### Accesses of the address generators (R225-R229, R277, R474) -/

/-- Two accesses touch a common byte; an access through an alias touches the bytes behind it. -/
def Access.overlaps (a b : Access) : Bool :=
  match a.block, b.block with
  | some x, some y => decide (x < y + b.len) && decide (y < x + a.len)
  | none, none => decide (a.pa < b.pa + b.len) && decide (b.pa < a.pa + a.len)
  | _, _ => false

/-- A store or SC that the engine made before the access, to some of its bytes, has not completed (R225). -/
def behindStore (s : State) (e : Eng) (a : Access) : Bool :=
  let before (p : Access) : Bool := decide (p.seqn < a.seqn) && p.overlaps a
  (s.engine e).posted.any before ||
    (s.engine e).ag.toList.any (fun g => match g.flight with | some f => f.kind == 2 && before f | none => false)

/-- The unit that a posted store goes to: stores to one unit complete in order. -/
def Access.target (a : Access) : Nat :=
  match a.block with
  | none => 0
  | some b =>
    match placeOf b with
    | .regs => 1
    | .granary => 2
    | .cluster => 3 + (b - 0x400000) / 0x80000
    | .spad i => 7 + i
    | _ => 21

/-- A read of an on-block address by an engine: status and bytes. A register is read with 4 bytes at a 4-aligned address only
(R474). -/
def accessRead (e : Eng) (a : Access) (s : State) : Nat × List Byte × State :=
  let o := a.pa - blockSpace
  if a.own || decide (0x400000 ≤ o) then engBlockRead e a.own o a.len s
  else if a.len = 4 ∧ o % 4 = 0 then
    let r := regRead e true false o s
    (r.1, bytesLE 4 r.2.1, r.2.2)
  else (stDecode, [], s)

/-- A write of an on-block address by an engine. -/
def accessWrite (e : Eng) (a : Access) (s : State) : Nat × State :=
  let o := a.pa - blockSpace
  if a.own || decide (0x400000 ≤ o) then engBlockWrite e a.own o a.bytes s
  else if a.len = 4 ∧ o % 4 = 0 then regWrite e true o (a.data.toNat % 2 ^ 32) s
  else (stDecode, s)

/-- The bytes of a load reach LDD through the width modifier (R200, R223). -/
def loadArrives (e : Eng) (n : Fin 4) (a : Access) (bs : List Byte) (s : State) : State :=
  s.modAg e n (fun g => { g with ldd := widen a.width (BitVec.ofNat 48 (natLE (bs.take a.len))), flight := none })

/-- A load, LR or SC has received an error response (R277). -/
def loadFails (e : Eng) (n : Fin 4) (a : Access) (s : State) : State :=
  let s := s.modAg e n (fun g => if a.kind = 2 then { g with scr := true, flight := none } else { g with ldd := 0, flight := none })
  reportBus e a (a.kind == 2) s

/-- SC (R228): it stores only under the reservation that it issued with. -/
def scArrives (e : Eng) (n : Fin 4) (a : Access) (s : State) : State :=
  if a.held then
    let (st, s) := accessWrite e a s
    if st = stOkay then s.modAg e n (fun g => { g with scr := false, flight := none }) else loadFails e n a s
  else s.modAg e n (fun g => { g with scr := true, flight := none })

/-- LOAD_COMPLETE (R225, R228): the access of generator `n` in flight to an on-block target, or its SC. -/
def execLoadComplete (e : Eng) (n : Fin 4) (s : State) : Res :=
  match (s.engine e).ag[n].flight with
  | some a =>
    if behindStore s e a then .next s
    else if a.kind = 2 then .next (scArrives e n a s)
    else if isExternal a.pa then .next s
    else
      let (st, bs, s) := accessRead e a s
      .next (if st = stOkay then loadArrives e n a bs s else loadFails e n a s)
  | none => .next s

/-- The posted store leaves the list. -/
def dropPosted (e : Eng) (i : Nat) (s : State) : State := s.modEng e (fun x => { x with posted := x.posted.eraseIdx i })

/-- STORE_COMPLETE (R225): posted store `i`, to an on-block target. -/
def execStoreComplete (e : Eng) (i : Nat) (s : State) : Res :=
  let l := (s.engine e).posted
  match l[i]? with
  | some a =>
    if isExternal a.pa || (l.take i).any (fun p => p.target == a.target) then .next s
    else
      let (st, s) := accessWrite e a s
      let s := dropPosted e i s
      .next (if st = stOkay then s else reportBus e a true s)
  | none => .next s

/-- The first posted store to external memory. -/
def extStore (l : List Access) : Option Nat := l.findIdx? (fun a => isExternal a.pa)

/-- The place of a generator's load from external memory in the engine's order of accesses. -/
def extPlace (x : EngSt) (n : Fin 4) : Option Nat :=
  match x.ag[n].flight with
  | some a => if isExternal a.pa && a.kind != 2 then some a.seqn else none
  | none => none

/-- The generator whose load from external memory is the oldest in flight. -/
def extLoad (x : EngSt) : Option (Fin 4) :=
  let l : List (Fin 4) := (List.finRange 4).filter (fun n => (extPlace x n).isSome)
  let before (n m : Fin 4) : Bool := decide ((extPlace x n).getD 0 ≤ (extPlace x m).getD 0)
  l.find? (fun n => l.all (before n))

/-- The external reads, or writes, of an engine that have no answer yet, but for those of its walker. -/
def openExternal (x : EngSt) (wr : Bool) : Nat :=
  if wr then x.writesOpen
  else (List.finRange 4).countP (fun n => (extPlace x n).isSome) + x.ext.countP (fun r => r.answer.isNone)

/-- No answer can come on the master port to the engine's reads, or writes: every one that is open still waits for its credits
(R413). -/
def State.waitsCredit (s : State) (e : Eng) (wr : Bool) : Bool :=
  let unsent := s.mlQueue.countP (fun o => match o with
    | .master t _ w _ _ _ _ => t == e.val && w == wr
    | _ => false)
  decide (0 < unsent ∧ openExternal (s.engine e) wr ≤ unsent) || wr && s.mlQueue.any (fun o => match o with
    | .mlBeat _ => true
    | _ => false)

/-- A store to external memory has received its completion. -/
def extStoreDone (e : Eng) (i : Nat) (err : Bool) (s : State) : State :=
  match (s.engine e).posted[i]? with
  | some a =>
    let s := dropPosted e i s
    if err then reportBus e a true s else s
  | none => s

/-- A push write of an entry has received its completion (R271, R272). -/
def pushDone (e : Eng) (err : Bool) (s : State) : State :=
  match (s.engine e).undo with
  | some u =>
    if err then pushFailed e u s
    else s.modEng e (fun x => { x with undo := if u.left ≤ 1 then none else some { u with left := u.left - 1 } })
  | none => s

/-- A read of exception hardware has been answered; an entry that waits for it is tried again. -/
def extReadDone (e : Eng) (data : List Byte) (err : Bool) (s : State) : State :=
  let x := s.engine e
  match x.ext.findIdx? (fun r => r.answer.isNone) with
  | some i =>
    let s := s.modEng e (fun x => { x with ext := x.ext.modify i (fun r =>
      { r with answer := some (if err then none else some ((data ++ List.replicate (r.len - data.length) 0).take r.len)) }) })
    if x.retry.isSome then retryEntry e s else s
  | none => s

/-- BUS_ERROR_RESPONSE (R277): an error response on the master port to the oldest store, or to the load of generator `n`, that
the engine has outstanding to external memory. A load behind an own store to its bytes has no response before the store's (R225). The
answer makes room for what waits on the port (R417). -/
def execBusErrorResponse (e : Eng) (n : Fin 4) (store : Bool) (s : State) : Res :=
  if s.waitsCredit e store then .next s
  else if store then
    match extStore (s.engine e).posted with
    | some i => .next (extStoreDone e i true s).sendPorts
    | none => .next s
  else
    match (s.engine e).ag[n].flight with
    | some a => .next (if isExternal a.pa && a.kind != 2 && !behindStore s e a then (loadFails e n a s).sendPorts else s)
    | none => .next s

/-- A read's data, or a write's completion, returns on the master port to an engine, in the order issued. A load behind an own store to
its bytes has no response before the store's (R225). -/
def masterAnswer (e : Eng) (wr : Bool) (data : List Byte) (err : Bool) (s : State) : State :=
  if wr then
    match extStore (s.engine e).posted with
    | some i => extStoreDone e i err s
    | none => pushDone e err s
  else
    match extLoad (s.engine e) with
    | some n =>
      match (s.engine e).ag[n].flight with
      | some a => if behindStore s e a then s else if err then loadFails e n a s else loadArrives e n a data s
      | none => s
    | none => extReadDone e data err s

/-- MASTER_RESPONSE (R413, R417, R419): an answer to an engine; answers to the other requesters are operands of the rows that use
them. Each beat of it spends a credit that the block granted, which returns at once, since the entry that it used is freed in the same
step. `credit`: the sender spends them; beats without one are dropped and counted. The answer makes room for what waits on the port. -/
def execMasterResponse (e : Eng) (wr : Bool) (data : List Byte) (err credit : Bool) (s : State) : Res :=
  if s.boot.inReset then .next s
  else if !credit || (if wr then s.credits.mlWc else s.credits.mlRd) == 0 then
    .next (s.count GLB.SYS.CRDERR.MASTER (if wr then 1 else max 1 ((data.length + 15) / 16)))
  else if s.waitsCredit e wr then .next s
  else .next (masterAnswer e wr data err s).sendPorts

/-! ### Alias writes (R293, R294) -/

/-- A write through an alias of `a` by a requester: no reservation on the row survives it (R228). -/
def aliasWrite (off : Nat) (req a : Nat) (bs : List Byte) (s : State) : State :=
  if 0x400000 ≤ a ∧ a < 0x1800000 ∧ 1 ≤ bs.length ∧ a / 16 = (a + bs.length - 1) / 16 then
    let r := windowWriteBy none req (a + off) bs s
    if req = 14 then { r.2 with ans := ⟨r.1, 0⟩ } else r.2
  else s

/-- SET_ALIAS_WRITE (R293). -/
def execSetAliasWrite (req : Fin 21) (a : BitVec 27) (bs : List Byte) (s : State) : Res :=
  .next (aliasWrite 0x2000000 req a.toNat bs s)

/-- CLEAR_ALIAS_WRITE (R293). -/
def execClearAliasWrite (req : Fin 21) (a : BitVec 27) (bs : List Byte) (s : State) : Res :=
  .next (aliasWrite 0x4000000 req a.toNat bs s)

/-! ### The slave port (R414-R416) -/

/-- Bytes per beat; a reserved SZ gives beats of 16 bytes, which carry no data (R414, R416). -/
def SlCmd.size (c : SlCmd) : Nat := if c.sz.val ≤ 4 then 2 ^ c.sz.val else 16

/-- The addresses of the beats, in order (R414). -/
def SlCmd.addrs (c : SlCmd) : List Nat :=
  let z := c.size
  let n := c.cnt.val + 1
  let a := c.addr.toNat / z * z
  if c.wrap then
    let base := a / (n * z) * (n * z)
    (List.range n).map (fun i => base + (a - base + i * z) % (n * z))
  else (List.range n).map (fun i => a + i * z)

/-- The command breaks a rule of form: reserved SZ, a wrapping command with a bad count or alignment, beats across a page, an
access of a register that is no single 4-byte beat (R414-R416). -/
def SlCmd.malformed (c : SlCmd) : Bool :=
  let n := c.cnt.val + 1
  let a := c.addr.toNat
  decide (5 ≤ c.sz.val) || c.wrap && (!(n == 2 || n == 4 || n == 8 || n == 16) || decide (a % c.size ≠ 0)) ||
    c.addrs.any (fun b => decide (b / 4096 ≠ a / 4096)) ||
    decide (a < 0x400000) && !(n == 1 && c.sz.val == 2 && a % 4 == 0 &&
      (!c.write || (c.beats.getD 0 (0, 0)).2.toNat == 15 * 2 ^ (a % 16)))

/-- The status that the checks of the whole command give, by the precedence of R416. -/
def SlCmd.status (c : SlCmd) (s : State) : Nat :=
  let a := c.addr.toNat
  let base := if a < 0x400000 then regStatus s 14 c.sec c.write (a / 4 * 4) else windowStatus s 14 c.write a
  if !s.up 0 then stPower
  else if base = stPower ∨ base = stSecurity then base
  else if c.malformed then stDecode
  else if base ≠ stOkay then base
  else if c.write && decide (0x400000 ≤ a) && stagingClosed s 14 (realAddr a) then stBusy
  else stOkay

/-- What a refused command leaves (R291, R339, R345). -/
def SlCmd.refused (c : SlCmd) (st : Nat) (s : State) : State :=
  let a := c.addr.toNat
  if c.malformed && st == stDecode then s
  else if a < 0x400000 then regRefused st c.write a s
  else if st = stOwner then
    match placeOf (realAddr a) with
    | .spad i => ownerRefusal i 14 s
    | _ => s
  else s

/-- The enabled bytes of a write beat as runs of neighbours (R414). -/
def beatRuns (a z : Nat) (d : BitVec 128) (be : BitVec 16) : List (Nat × List Byte) :=
  ((List.range z).filter (fun i => be.getLsbD (a % 16 + i))).foldl (fun l i =>
    let b : Byte := d.extractLsb' (8 * (a % 16 + i)) 8
    match l.getLast? with
    | some r => if r.1 + r.2.length = a + i then l.dropLast ++ [(r.1, r.2 ++ [b])] else l ++ [(a + i, [b])]
    | none => [(a + i, [b])]) []

/-- A write beat to a memory window: it writes nothing where a codeword that it merges into is bad (R416). -/
def writeBeat (a z : Nat) (b : BitVec 128 × BitVec 16) (s : State) : Nat × State :=
  let rs := beatRuns a z b.1 b.2
  if rs.any (fun r => s.unmapped (realAddr r.1)) then (stData, s)
  else if rs.any (fun r => mergesBad s r.1 r.2.length) then (stData, noteBad (realAddr a - realAddr a % 16) 16 s)
  else (stOkay, rs.foldl (fun t r => (windowWrite 14 r.1 r.2 t).2) s)

/-- The write beats of an admitted command. -/
def writeBeatsOf (z : Nat) : List (Nat × (BitVec 128 × BitVec 16)) → State → Nat × State
  | [], s => (stOkay, s)
  | (a, b) :: t, s =>
    let r := writeBeat a z b s
    let q := writeBeatsOf z t r.2
    (if r.1 = stData then stData else q.1, q.2)

/-- The read beats of an admitted command: status and bytes of each. -/
def readBeatsOf (z : Nat) : List Nat → State → List (Nat × List Byte) × State
  | [], s => ([], s)
  | a :: t, s =>
    let (st, bs, s) := windowRead 14 a z s
    let q := readBeatsOf z t s
    ((st, bs) :: q.1, q.2)

/-- A read on the slave port: its beats. `quiet`: a debug read without side effects (R8). -/
def slaveRead (quiet : Bool) (c : SlCmd) (s : State) : List (Nat × List Byte) × State :=
  let st := c.status s
  if st ≠ stOkay then (c.addrs.map (fun _ => (st, List.replicate c.size 0)), c.refused st s)
  else if c.addr.toNat < 0x400000 then
    let r := regRead 14 c.sec quiet c.addr.toNat s
    ([(r.1, bytesLE 4 r.2.1)], r.2.2)
  else readBeatsOf c.size c.addrs s

/-- A write on the slave port: its status. -/
def slaveWrite (c : SlCmd) (s : State) : Nat × State :=
  let st := c.status s
  let a := c.addr.toNat
  if st ≠ stOkay then (st, c.refused st s)
  else if a < 0x400000 then
    regWrite 14 c.sec a ((c.beats.getD 0 (0, 0)).1.toNat / 2 ^ (8 * (a % 16)) % 2 ^ 32) s
  else writeBeatsOf c.size (c.addrs.zip c.beats) s

/-- The answer of a read leaves beat by beat. -/
def answerRead (tag : Nat) : List (Nat × List Byte) → State → State
  | [], s => s
  | (st, bs) :: t, s => answerRead tag t ({ s with ans := ⟨st, natLE bs⟩ }.emit (.slRead tag st bs t.isEmpty))

/-- A command is served, and its answer goes to the lane. -/
def serveCmd (c : SlCmd) (s : State) : State :=
  if c.write then
    let r := slaveWrite c s
    { r.2 with ans := ⟨r.1, 0⟩ }.emit (.slWrite c.tag.toNat r.1)
  else
    let r := slaveRead false c s
    answerRead c.tag.toNat r.1 r.2

/-- The reads, and the writes, that are not yet answered (R415). -/
def unanswered (s : State) (wr : Bool) : Nat :=
  (s.slQueue.filter (fun o => match o with
    | .slRead _ _ _ last => !wr && last
    | .slWrite .. => wr
    | _ => false)).length

/-- A command leaves the buffer: its credit and those of its write beats return (R413, R415). -/
def returnCredits (c : SlCmd) (s : State) : State :=
  { s with credits := { s.credits with slCmd := s.credits.slCmd + 1, slWd := s.credits.slWd + c.beats.length } }

/-- Commands leave the buffer in order, while their kind has not reached its limit (R415). -/
def serveAll : Nat → State → State
  | 0, s => s
  | k + 1, s =>
    match s.slCmds with
    | [] => s
    | c :: t => if 16 ≤ unanswered s c.write then s else serveAll k (serveCmd c (returnCredits c { s with slCmds := t }))

/-! ### The debug TAP's accesses (R444, R449) -/

/-- An access of the TAP (R449): a single 4-byte beat, secure, from requester 14. -/
def TapReq.cmd (r : TapReq) : SlCmd :=
  let a := r.addr.toNat / 4 * 4
  let lane := a % 16
  ⟨r.write, 0, 2, false, 0, true, BitVec.ofNat 27 a,
    if r.write then [(BitVec.ofNat 128 (r.value.toNat * 2 ^ (8 * lane)), BitVec.ofNat 16 (15 * 2 ^ lane))] else []⟩

/-- An access of the TAP has completed: the response code and the data that the next Capture-DR loads (R449). -/
def tapDone (code : Nat) (data : Word32) (s : State) : State := { s with tap := { s.tap with code := code, data := data, busy := none } }

/-- The access is performed; while the block is locked it completes with SECURITY and no access (R444). A read is quiet unless ACTIVE is
set (R449). -/
def tapPerform (r : TapReq) (s : State) : State :=
  if !s.on DBG.LOCK.OPEN then tapDone stSecurity 0 s
  else if r.write then
    let w := slaveWrite r.cmd s
    tapDone w.1 0 w.2
  else
    let q := slaveRead (!r.active) r.cmd s
    let b := q.1.getD 0 (0, [])
    tapDone b.1 (BitVec.ofNat 32 (natLE b.2)) q.2

/-- An access of the TAP that waits goes once the command buffer of the slave port is empty (log entry 78). -/
def tapGoes (s : State) : State :=
  match s.tap.busy with
  | some r => if s.slCmds.isEmpty then tapPerform r s else s
  | none => s

/-- An Update-DR under ACCESS: ignored while BUSY is set (R449). -/
def tapAsk (r : TapReq) (s : State) : State :=
  if s.tap.busy.isSome then s else tapGoes { s with tap := { s.tap with busy := some r } }

/-- The command buffer is served, and an access of the TAP behind it. -/
def serveBuffer (s : State) : State := tapGoes (serveAll 17 s)

/-! ### Commands of the slave port -/

/-- SLAVE_ACCESS (R413-R416): a command and its write beats arrive, each of them with a credit that the host holds. `credit`: the host
spends them; the transfers of an access without credits are dropped and counted. Up to the end of step 3 of the start-up the always-on
island answers an access to the mailbox region with POWER, and nothing else answers (R361, R382; log entry 51). -/
def execSlaveAccess (write : Bool) (cnt : Fin 16) (sz : Fin 8) (wrap : Bool) (tag : BitVec 8) (sec : Bool) (addr : BitVec 27)
    (beats : List (BitVec 128 × BitVec 16)) (credit : Bool) (s : State) : Res :=
  let n := if write then cnt.val + 1 else 0
  let c : SlCmd := ⟨write, cnt, sz, wrap, tag, sec, addr, beats.take n ++ List.replicate (n - beats.length) (0, 0)⟩
  if s.boot.inReset then .next (if credit && decide (addr.toNat / 0x10000 = 1) then serveCmd c s else s)
  else
    let k := s.credits
    if !credit || decide (k.slCmd = 0) || decide (k.slWd < n) then .next (s.count GLB.SYS.CRDERR.SLAVE (1 + n))
    else .next (serveBuffer { s with
      slCmds := s.slCmds ++ [c], credits := { k with slCmd := k.slCmd - 1, slWd := k.slWd - n } })

/-- CREDIT_GRANT (R413): a pulse on a CRD input: lane 0 read return and 1 write completion of the slave port, 2 command and 3
write data of the master port. -/
def execCreditGrant (lane : Fin 4) (s : State) : Res :=
  if s.boot.inReset then .next s
  else
    let k := s.credits
    let s := { s with credits := match lane with
      | 0 => { k with rd := k.rd + 1 }
      | 1 => { k with wc := k.wc + 1 }
      | 2 => { k with cmd := k.cmd + 1 }
      | 3 => { k with wd := k.wd + 1 } }
    .next (serveBuffer s.sendPorts)

end Sys2Proof.Machine
end

