-- ==== Sys2Proof/Machine/Tap.lean ====
section
/-! DEFINITION. The debug TAP: its controller, its registers and its instructions (R410, R441, R444, R445, R448, R449). -/

namespace Sys2Proof.Machine

open Reg

/-! ### The controller (R441, IEEE 1149.1) -/

/-- The state that a TCK cycle with this TMS leads to. -/
def TapCtl.next (tms : Bool) : TapCtl → TapCtl
  | .testLogicReset => if tms then .testLogicReset else .runTestIdle
  | .runTestIdle => if tms then .selectDr else .runTestIdle
  | .selectDr => if tms then .selectIr else .captureDr
  | .captureDr => if tms then .exit1Dr else .shiftDr
  | .shiftDr => if tms then .exit1Dr else .shiftDr
  | .exit1Dr => if tms then .updateDr else .pauseDr
  | .pauseDr => if tms then .exit2Dr else .pauseDr
  | .exit2Dr => if tms then .updateDr else .shiftDr
  | .updateDr => if tms then .selectDr else .runTestIdle
  | .selectIr => if tms then .testLogicReset else .captureIr
  | .captureIr => if tms then .exit1Ir else .shiftIr
  | .shiftIr => if tms then .exit1Ir else .shiftIr
  | .exit1Ir => if tms then .updateIr else .pauseIr
  | .pauseIr => if tms then .exit2Ir else .pauseIr
  | .exit2Ir => if tms then .updateIr else .shiftIr
  | .updateIr => if tms then .selectDr else .runTestIdle

/-- TDO drives (R441): in Shift-DR and Shift-IR, and not while the block is in reset (R410). -/
def State.tdoOe (s : State) : Bool := (s.tap.ctl == .shiftDr || s.tap.ctl == .shiftIr) && !s.boot.inReset

/-! ### The registers (R448, R449) -/

/-- The low `n` bits of a number, lowest first. -/
def bitList (n v : Nat) : List Bool := (List.range n).map (fun i => v.testBit i)

/-- The number whose bits are given lowest first. -/
def bitsNat : List Bool → Nat
  | [] => 0
  | b :: t => b.toNat + 2 * bitsNat t

/-- The identification word (R448). -/
def identWord (s : State) : Nat :=
  3 * 2 ^ 24 + 0x4896 * 2 ^ 8 + 2 * s.get DBG.LOCK.ERASING + s.get DBG.LOCK.OPEN

/-- What ACCESS captures (R449). -/
def accessWord (t : TapSt) : Nat := t.data.toNat * 2 ^ 32 + 8 * t.busy.isSome.toNat + t.code % 8

/-- Capture-DR: what the data register of the instruction loads. The manual gives UNLOCK's none, which is free; BYPASS loads 0 (R448,
log entry 78). -/
def captureData (s : State) : List Bool × State :=
  if s.tap.ir = 1 then (bitList 32 (identWord s), s)
  else if s.tap.ir = 2 then (bitList 32 (s.freeVal 32).toNat, s.took)
  else if s.tap.ir = 4 then (bitList 64 (accessWord s.tap), s)
  else ([false], s)

/-- The access that the 64 bits of the data register ask for (R449). -/
def tapReq (v : Nat) : TapReq :=
  ⟨BitVec.ofNat 27 v, v.testBit 27, v.testBit 28, BitVec.ofNat 32 (v / 2 ^ 32)⟩

/-- Update-DR: what the instruction does with the shifted value (R445, R448, R449). -/
def updateData (s : State) : State :=
  let v := bitsNat s.tap.path
  if s.tap.ir = 2 then unlockRequest v s else if s.tap.ir = 4 then tapAsk (tapReq v) s else s

/-! ### One TCK cycle -/

/-- The rising edge of TCK: the state that the controller is in captures, or shifts TDI in. -/
def tapRise (tdi : Bool) (s : State) : State :=
  match s.tap.ctl with
  | .captureDr => (fun r => { r.2 with tap := { r.2.tap with path := r.1 } }) (captureData s)
  | .captureIr => { s with tap := { s.tap with path := bitList 5 1 } }
  | .shiftDr => { s with tap := { s.tap with path := s.tap.path.tail ++ [tdi] } }
  | .shiftIr => { s with tap := { s.tap with path := s.tap.path.tail ++ [tdi] } }
  | _ => s

/-- The falling edge of TCK in the state that the controller has entered: TDO changes, Test-Logic-Reset selects IDENT, and the Update
states take effect. -/
def tapFall (s : State) : State :=
  match s.tap.ctl with
  | .testLogicReset => { s with tap := { s.tap with ir := 1 } }
  | .shiftDr => { s with tap := { s.tap with tdo := s.tap.path.headD false } }
  | .shiftIr => { s with tap := { s.tap with tdo := s.tap.path.headD false } }
  | .updateIr => { s with tap := { s.tap with ir := BitVec.ofNat 5 (bitsNat s.tap.path) } }
  | .updateDr => updateData s
  | _ => s

/-- One TCK cycle with these TMS and TDI (R441). -/
def tapClock (tms tdi : Bool) (s : State) : State :=
  let s := tapRise tdi s
  tapFall { s with tap := { s.tap with ctl := s.tap.ctl.next tms } }

/-- The next TCK cycle that the tester has applied, if one waits (log entry 78). -/
def tickTap (s : State) : State :=
  match s.tap.edges with
  | x :: t => tapClock x.1 x.2 { s with tap := { s.tap with edges := t } }
  | [] => s

/-! ### Commands -/

/-- The controller stands in a state under an instruction, with a data register. -/
def tapAt (c : TapCtl) (ir : BitVec 5) (path : List Bool) (s : State) : State :=
  { s with tap := { s.tap with ctl := c, ir := ir, path := path } }

/-- TAP_IDENT (R448): a Capture-DR under IDENT. -/
def execTapIdent (s : State) : Res := .next (tapAt .captureDr 1 (bitList 32 (identWord s)) s)

/-- TAP_ACCESS (R449): an Update-DR under ACCESS. -/
def execTapAccess (a : BitVec 27) (write active : Bool) (v : BitVec 32) (s : State) : Res :=
  .next (tapAsk ⟨a, write, active, v⟩ (tapAt .updateDr 4
    (bitList 64 (a.toNat + 2 ^ 27 * write.toNat + 2 ^ 28 * active.toNat + 2 ^ 32 * v.toNat)) s))

/-- DEBUG_UNLOCK (R445, R446): an Update-DR under UNLOCK. A write of DBG.UNLOCK makes the same request through REGISTER_WRITE. -/
def execDebugUnlock (v : BitVec 32) (s : State) : Res := .next (unlockRequest v.toNat (tapAt .updateDr 2 (bitList 32 v.toNat) s))

/-- TAP_RESET (R441, R448): TRST_N, or Test-Logic-Reset. -/
def execTapReset (s : State) : Res := .next { s with tap := { s.tap with ctl := .testLogicReset, ir := 1 } }

end Sys2Proof.Machine
end

