-- ==== Sys2Proof/Machine/Clock.lean ====
section
/-! DEFINITION. What one ENG_CLK cycle does by itself: TIME, the counters, the engines' cycle counts, missed heartbeats, the bit
lines, the trace output, the halt groups, a debugger's waiting moves and the debug TAP (R92, R111, R119, R179, R282, R425, R441,
R454, R455, R461). -/

namespace Sys2Proof.Machine

open Reg

/-- Calibration counts advance while calibration is on, and overdue ports are marked (R102). -/
def tickCalib (s : State) : State :=
  let s := if calibrates s then { s with calib := { s.calib with counts := s.calib.counts.map (· + 1) } } else s
  (List.finRange 9).foldl (fun t p => if overdue t p then t.raiseBit TU.STAT.CALSTALE p else t) s

/-- The four domains advance by one cycle (R92), and with them the pulses in progress and the calibration counts, unless the
time unit has stopped (R119). -/
def tickTime (s : State) : State :=
  if s.up 0 && !s.stopped.contains 0 then
    tickCalib { s with time := s.time.map (fun (t : TimeDom) => t.cycles 1), pps := s.pps.map (fun x => { x with age := x.age + 1 }) }
  else s

/-- The counter of a cluster counts, unless it has stopped (R111, R119). -/
def tickCounter (s : State) (n : Clu) : State := if s.cluUp n && !s.stopped.contains (n.val + 1) then countTick n s else s

/-- EXC.CYC of an engine whose clock runs (R282, R390). -/
def tickEngine (s : State) (e : Eng) : State :=
  if s.clocked e then s.modExc e (fun x => { x with cyc := x.cyc + 1 }) else s

/-- The packets of the cycle enter the trace FIFO, the trace unit counts the cycle, and every fourth cycle sends a word (R461, R462). -/
def tickTrace (s : State) : State :=
  if !s.up 0 then s
  else
    let s := enterPackets s
    let t := s.trace
    let t := { t with cyc := t.cyc + 1, quiet := t.quiet + 1 }
    match t.fifo with
    | w :: ws => if t.cyc.toNat % 4 = 0 then { s with trace := { t with fifo := ws, sent := t.sent + 1 } }.emit (.trace w) else { s with trace := t }
    | [] => { s with trace := t }

/-- A unit with a partner times its heartbeats: each period that passes without one, with its tolerance of 0.5 µs, counts as
missed (R179, R193). -/
def tickTwin (s : State) : State :=
  let st := twinState s
  if s.up 0 && (st == 2 || st == 3 || st == 4 || st == 6) then
    let t := { s.twin with quiet := s.twin.quiet + 1 }
    if t.missed < 3 && t.quiet == 8000 * (t.missed + 1) + 400 then
      { s with twin := { t with missed := t.missed + 1 } }.count TWN.HBMISS.CNT
    else { s with twin := t }
  else s

/-- The frames of a port's pipeline grow older by a cycle (R25, R35). -/
def ageFrames (x : PortSt) : PortSt :=
  { x with tun := x.tun.map (fun f => { f with age := f.age + 16 }), launchAge := x.launchAge + 16 }

/-- A halted engine's debugger move that waits is tried again, and a halt request that a halted engine met in this cycle is over (R453,
R454). -/
def tickDebug (s : State) (e : Eng) : State :=
  tryMove e (if s.halted e then s.modEng e (fun x => { x with haltReq := none, haltBy := [] }) else s)

/-- In the new cycle the halt groups that are due act (R455). -/
def tickGroups (s : State) : State := if s.up 0 then groupsAct ((List.finRange 14).foldl tickDebug s) else s

/-- One ENG_CLK cycle in which no command acts. -/
def tick (s : State) : State :=
  if s.boot.inReset then tickTap s
  else
    let s := tickTime { s with pinActs := [], pinSets := [], ports := s.ports.map ageFrames }
    let s := (List.finRange 8).foldl tickLine ((List.finRange 4).foldl tickCounter s)
    tickTap (tickGroups (tickTrace (tickTwin ((List.finRange 14).foldl tickEngine s))))

end Sys2Proof.Machine
end

