-- ==== Sys2Proof/Machine/Flash.lean ====
section
/-! DEFINITION. The boot port and the serial NOR flash behind it: discovery, the read mode, the read of a slot, and the levels of
the pins (R369, R370, R433). The layout of the SFDP table, its dummy clocks and the status-register instructions are those of
JEDEC JESD216, which R369 names and the manual does not print (PRESUMED, log entry 73). -/

namespace Sys2Proof.Machine

/-! ### Commands (R369) -/

/-- 25 MHz: 8 cycles of PER_CLK. -/
def slowSck : Nat := 8

/-- BOOT_SCK for image reads: 2 × (1 + BOOT_DIV) cycles of PER_CLK (R368). -/
def fastSck (div : BitVec 2) : Nat := 2 * (1 + div.toNat)

/-- A command at single I/O and 25 MHz that shifts bytes out, and then samples some. -/
def singleCmd (bytes : List Byte) (n : Nat) : Out := .boot slowSck (.out 1 bytes :: (if n = 0 then [] else [.read 1 n]))

/-- An SFDP read: three address bytes, highest first, and 8 dummy clocks. -/
def sfdpRead (a n : Nat) : Out := .boot slowSck [.out 1 (0x5A :: bytesBE 3 a), .dummy 8, .read 1 n]

/-! ### The table (R369) -/

/-- Bytes of the SFDP space; the flash answers 0xFF past its end. -/
def sfdpBytes (sfdp : List Byte) (a n : Nat) : List Byte := (List.range n).map (fun i => sfdp.getD (a + i) 0xFF)

/-- The device returns a valid SFDP signature: "SFDP". -/
def sfdpValid (sfdp : List Byte) : Bool := sfdpBytes sfdp 0 4 == [0x53, 0x46, 0x44, 0x50]

/-- The basic flash parameter table by the first parameter header: its address and its length in double words. -/
def tableAt (sfdp : List Byte) : Nat × Nat := (natLE (sfdpBytes sfdp 12 3), natLE (sfdpBytes sfdp 11 1))

/-- Double word `n` of the table, counted from 1; 0 where the table ends before it. -/
def tableWord (sfdp : List Byte) (n : Nat) : Nat :=
  let t := tableAt sfdp
  if n ≤ t.2 then natLE (sfdpBytes sfdp (t.1 + 4 * (n - 1)) 4) else 0

/-- A fast read as the table describes it: dummy clocks, mode clocks and instruction from a bit of a double word on. -/
def fastRead (w lo al dl sck : Nat) : FlashRead := ⟨w / 2 ^ (lo + 8) % 256, al, dl, w / 2 ^ (lo + 5) % 8, w / 2 ^ lo % 32, sck⟩

/-- The fastest fast read that the table supports, in the order 1-4-4, 1-1-4, 1-2-2, 1-1-2, 1-1-1 (R369). -/
def chooseRead (sfdp : List Byte) (sck : Nat) : FlashRead :=
  let w := tableWord sfdp
  if (w 1).testBit 21 then fastRead (w 3) 0 4 4 sck
  else if (w 1).testBit 22 then fastRead (w 3) 16 1 4 sck
  else if (w 1).testBit 20 then fastRead (w 4) 16 2 2 sck
  else if (w 1).testBit 16 then fastRead (w 4) 0 1 2 sck
  else ⟨0x0B, 1, 1, 0, 8, sck⟩

/-- How the loader reads the flash: by its table, or with instruction 0x03 where there is none (R369). -/
def flashRead (div : BitVec 2) (sfdp : List Byte) : FlashRead :=
  if sfdpValid sfdp then chooseRead sfdp (fastSck div) else FlashRead.plain

/-- The commands that set the quad-enable bit by the method that the table names: the status registers are read, writing is
enabled, and the bit is written. -/
def quadEnable (method : Nat) (regs : List Byte) : List Out :=
  let r1 : Byte := regs.getD 0 0
  let r2 : Byte := regs.getD 1 0
  let read (i : Byte) : Out := singleCmd [i] 1
  let write (b : List Byte) : List Out := [singleCmd [0x06] 0, singleCmd b 0]
  match method with
  | 1 => read 0x05 :: write [0x01, r1, 0x02]
  | 2 => read 0x05 :: write [0x01, r1 ||| 0x40]
  | 3 => read 0x3F :: write [0x3E, r2 ||| 0x80]
  | 4 => read 0x05 :: write [0x01, r1, 0x02]
  | 5 => read 0x05 :: read 0x35 :: write [0x01, r1, r2 ||| 0x02]
  | 6 => read 0x35 :: write [0x31, r2 ||| 0x02]
  | _ => []

/-- The commands of flash discovery (R369): the software reset, the SFDP header and the table, and the quad-enable bit where the
read chosen needs it. -/
def discoverCmds (div : BitVec 2) (sfdp regs : List Byte) : List Out :=
  let head := [singleCmd [0x66] 0, singleCmd [0x99] 0, sfdpRead 0 16]
  if sfdpValid sfdp then
    let t := tableAt sfdp
    head ++ [sfdpRead t.1 (4 * t.2)] ++
      (if (flashRead div sfdp).dataLanes = 4 then quadEnable (tableWord sfdp 15 / 2 ^ 20 % 8) regs else [])
  else head

/-- The one continuous read of a slot from its first byte (R370). -/
def readSlot (m : FlashRead) (slot n : Nat) : Out :=
  .boot m.sck ([.out 1 [BitVec.ofNat 8 m.instr], .out m.addrLanes (bytesBE 3 (0x400000 * slot))] ++
    (if m.mode = 0 then [] else [.mode m.addrLanes m.mode]) ++ (if m.dummy = 0 then [] else [.dummy m.dummy]) ++ [.read m.dataLanes n])

/-! ### Pins (R433, R410, R439) -/

/-- The levels of BOOT_CS_N, BOOT_IO_O and BOOT_IO_OE. -/
structure BootPins where
  csN : Bool
  o : BitVec 4
  oe : BitVec 4
  deriving DecidableEq, Repr, Inhabited

/-- The levels outside a command: BOOT_SCK is 0; in reset, and while MGMT is not in RUN or IDLE, nothing is driven. -/
def idlePins (s : State) : BootPins := if s.boot.inReset || !s.up 0 then ⟨true, 0, 0⟩ else ⟨true, 0xC, 0xC⟩

/-- One BOOT_SCK cycle in which `v` is shifted out on some lanes: the write-protect and hold lines stay inactive outside quad
data phases. -/
def driveCycle (lanes v : Nat) : BootPins :=
  match lanes with
  | 4 => ⟨false, BitVec.ofNat 4 v, 0xF⟩
  | 2 => ⟨false, BitVec.ofNat 4 (12 + v % 4), 0xF⟩
  | _ => ⟨false, BitVec.ofNat 4 (12 + v % 2), 0xD⟩

/-- One BOOT_SCK cycle in which the block samples: at single I/O it goes on driving lane 0, at a level that the manual does not
give. -/
def sampleCycle (lanes : Nat) : BootPins :=
  match lanes with
  | 4 => ⟨false, 0, 0⟩
  | 2 => ⟨false, 0xC, 0xC⟩
  | _ => driveCycle 1 (Config.freeValue 1 0).toNat

/-- The BOOT_SCK cycles of a byte on some lanes, the highest bits first. -/
def byteCycles (lanes : Nat) (b : Byte) : List BootPins :=
  (List.range (8 / lanes)).map (fun i => driveCycle lanes (b.toNat / 2 ^ (8 - lanes * (i + 1))))

/-- The pins in the BOOT_SCK cycles of a part of a command; the mode bits are not given. -/
def BootPhase.pins : BootPhase → List BootPins
  | .out lanes bs => bs.flatMap (byteCycles lanes)
  | .mode lanes n => (List.range n).map (fun i => driveCycle lanes (Config.freeValue 4 i).toNat)
  | .dummy n => List.replicate n (sampleCycle 1)
  | .read lanes n => List.replicate (8 / lanes * n) (sampleCycle lanes)

/-- The lane on which bits are sampled at single I/O (R433). -/
def singleIn (i : BitVec 4) : Bool := i.getLsbD 1

end Sys2Proof.Machine
end

