-- ==== Sys2Proof/Machine/Image.lean ====
section
/-! DEFINITION. The configuration image: its layout, the acceptance checks, and how its records are applied (R371-R377). -/

namespace Sys2Proof.Machine

open Reg

/-! ### Records (R372-R375) -/

/-- The bits of a register that the image may set (R375). -/
def imageMask (a : Nat) : Nat :=
  (((fieldsAt a).filter (fun f => f.img)).map (fun f => (2 ^ f.w - 1) * 2 ^ f.lo)).foldl (· ||| ·) 0

/-- The entries of a REGSET value. -/
def regEntries (v : List Byte) : List (Nat × Nat × Nat) :=
  (List.range (v.length / 12)).map (fun i => (fieldLE v (12 * i) 4, fieldLE v (12 * i + 4) 4, fieldLE v (12 * i + 8) 4))

/-- An entry names a register and touches only fields that the image may set (R375). -/
def regEntryGood (x : Nat × Nat × Nat) : Bool :=
  decide (x.1 % 4 = 0) && !(fieldsAt x.1).isEmpty && decide (x.2.1 &&& imageMask x.1 = x.2.1)

/-- A LOAD lies wholly within one scratchpad, one cluster memory or the granary below the staging area, and outside the ROM
loader's part of ME0's scratchpad (R373). -/
def loadGood (dest n : Nat) : Bool :=
  let last := dest + (n - 1)
  (inSp dest && inSp last && decide ((dest - 0x600000) / 0x20000 = (last - 0x600000) / 0x20000) && decide (0x610000 ≤ dest)) ||
    (inClu dest && inClu last && decide ((dest - 0x400000) / 0x80000 = (last - 0x400000) / 0x80000)) ||
    (inGran dest && decide (last < 0x1400000))

/-- The entries of a START value. -/
def startEntries (v : List Byte) : List (Nat × Nat) :=
  (List.range (v.length / 8)).map (fun i => (fieldLE v (8 * i) 1, fieldLE v (8 * i + 2) 6))

/-- The bytes of a value at these offsets are 0. -/
def zeroAt (v : List Byte) (l : List Nat) : Bool := l.all (fun i => v.getD i 0 == 0)

/-- A record by its type and value, at an offset of the image; none: the image is rejected with RESULT RECORD; an ignored
record gives nothing (R373, R374). -/
def readRecord (ty : Nat) (opt : Bool) (off : Nat) (v : List Byte) : Option (List ImgRec) :=
  match ty with
  | 1 => if v.length % 12 = 0 ∧ (regEntries v).all regEntryGood = true then some [.regset (regEntries v)] else none
  | 2 =>
    if 8 ≤ v.length ∧ fieldLE v 0 1 ≠ 0 ∧ zeroAt v [1, 2, 3, 4, 5, 6, 7] = true then some [.cspkg (fieldLE v 0 1) (off + 8)] else none
  | 3 =>
    if 8 ≤ v.length ∧ zeroAt v [4, 5, 6, 7] = true ∧ loadGood (fieldLE v 0 4) (v.length - 8) = true then
      some [.load (fieldLE v 0 4) (v.drop 8)]
    else none
  | 4 =>
    let es := startEntries v
    if v.length % 8 = 0 ∧ es.all (fun x => decide (x.1 ≤ 13)) = true ∧ zeroAt v ((List.range es.length).map (fun i => 8 * i + 1)) = true then
      some [.start es]
    else none
  | _ => if opt then some [] else none

/-- The records from an offset up to the signature: the records, or the RESULT of the first that fails (R372, R377). -/
def readRecords : Nat → Nat → List Byte → Except Nat (List ImgRec)
  | 0, _, _ => .ok []
  | k + 1, off, b =>
    if b.isEmpty then .ok []
    else
      let n := fieldLE b 4 4
      let m := (n + 7) / 8 * 8
      let ty := fieldLE b 0 2
      let v := (b.drop 8).take n
      if b.length < 8 + m then .error 2
      else if fieldLE b 2 2 ≠ 0 ∨ ((b.drop (8 + n)).take (m - n)).any (· != 0) = true then .error 4
      else
        match readRecord (ty % 2 ^ 15) (decide (2 ^ 15 ≤ ty)) (off + 8) v with
        | none => .error 4
        | some r =>
          match readRecords k (off + 8 + m) (b.drop (8 + m)) with
          | .ok t => .ok (r ++ t)
          | .error e => .error e

/-- The START entries of some records. -/
def startsOf (rs : List ImgRec) : List (Nat × Nat) := rs.flatMap (fun r => match r with | .start es => es | _ => [])

/-- No engine is started twice, and ME0 is started (R373). -/
def startsGood (rs : List ImgRec) : Bool :=
  let es := (startsOf rs).map (·.1)
  es.contains 0 && decide (es.eraseDups.length = es.length)

/-! ### Acceptance (R371, R377) -/

/-- The total length, the image version and the rollback value. -/
def imageLength (b : List Byte) : Nat := fieldLE b 0x10 4
def imageVersion (b : List Byte) : Nat := fieldLE b 8 4
def imageRollback (b : List Byte) : Nat := fieldLE b 0xC 4

/-- Check 1: magic, format version, flags and must-be-0 bytes. -/
def imageFormat (b : List Byte) : Bool :=
  fieldLE b 0 4 == 0x4B524947 && fieldLE b 4 2 == 1 && fieldLE b 6 2 == 0 && fieldLE b 0x14 12 == 0

/-- Check 2: the limits of the length (R371). -/
def lengthGood (n : Nat) : Bool := decide (n % 8 = 0) && decide (168 ≤ n) && decide (n ≤ 4194304)

/-- Checks 1 to 7 of R377 on the bytes of an image: its records, or RESULT. -/
def checkImage (all : List Byte) (keyHash : BitVec 256) (mono : Nat) : Except Nat (List ImgRec) :=
  let n := imageLength all
  let b := all.take n ++ List.replicate (n - all.length) 0
  if !imageFormat all then .error 2
  else if !lengthGood n then .error 3
  else if keyHash = 0 then .error 5
  else if sha256 ((b.drop 0x20).take 64) ≠ keyBytes keyHash then .error 6
  else if !signatureGood b 0x20 (n - 64) (sha256 (b.take (n - 64))) then .error 7
  else if imageRollback b < mono then .error 8
  else
    match readRecords (n / 8) 0x60 ((b.take (n - 64)).drop 0x60) with
    | .error e => .error e
    | .ok rs => if startsGood rs then .ok rs else .error 4

/-- The same checks without the rollback value: what the firmware repeats before a cluster is brought up again (R392). -/
def recheckImage (b : List Byte) (keyHash : BitVec 256) : Except Nat (List ImgRec) := checkImage b keyHash 0

/-! ### Applying records (R375, R378, R380) -/

/-- The requester of the loader's and firmware's accesses: ME0. -/
def loaderReq : Nat := 0

/-- The fields that are held back to step 9, at a register (R375). -/
def heldMask (a : Nat) : Nat :=
  let o := a % 0x10000
  if 0x40000 ≤ a ∧ a < 0x80000 then
    if o = 0x4000 ∨ o = 0x5000 ∨ o = 0x2000 ∨ o = 0x3000 then 1
    else if 0x7400 ≤ o ∧ o < 0x7600 ∧ o % 0x80 = 0 then 1
    else 0
  else if 0x30100 ≤ a ∧ a < 0x30500 ∧ a % 0x100 = 0 then 1
  else if 0x20280 ≤ a ∧ a < 0x202C0 ∧ a % 0x10 = 0 then 1
  else if a = 0x38000 then 3
  else 0

/-- One entry, or its part under a mask, goes through the register's write path (R375). The loader reads the old value
without a side effect. An entry whose MASK is 0 writes the old value, in step 7; of one that touches only held-back fields there is no
rest to be written there (log entry 55). -/
def applyEntry (held : Bool) (sel : Nat → Nat) (s : State) (x : Nat × Nat × Nat) : State :=
  let m := x.2.1 &&& sel x.1
  if m = 0 ∧ (held = true ∨ x.2.1 ≠ 0) then s
  else
    let old := (readReg true x.1 s).1
    (regWrite loaderReq true x.1 (clearBits old m ||| (x.2.2 &&& m)) s).2

/-- The entries of the REGSET records in record order. -/
def regsetsOf (rs : List ImgRec) : List (Nat × Nat × Nat) := rs.flatMap (fun r => match r with | .regset es => es | _ => [])

/-- Step 7: the parts that are not held back. -/
def applyRegsets (es : List (Nat × Nat × Nat)) (s : State) : State :=
  es.foldl (applyEntry false (fun a => clearBits (2 ^ 32 - 1) (heldMask a))) s

/-- Step 9: the parts that were held back. -/
def applyHeld (es : List (Nat × Nat × Nat)) (s : State) : State := es.foldl (applyEntry true heldMask) s

/-- A LOAD record is copied to its destination. -/
def applyLoads (sel : Nat → Bool) (rs : List ImgRec) (s : State) : State :=
  rs.foldl (fun t r => match r with
    | .load d b => if sel d then t.store d b else t
    | _ => t) s

/-- The control-store loads that the CSPKG records order for some ports, in record order: port and offset (R373). -/
def packagesOf (sel : Port → Bool) (rs : List ImgRec) : List (Nat × Nat) :=
  rs.flatMap (fun r => match r with
    | .cspkg ports off => ((List.finRange 8).filter (fun p : Port => ports.testBit p.val && sel p)).map (fun p => (p.val, off))
    | _ => [])

/-- The next loads begin, in record order: at most four are in flight at once, and a port has one at a time (R378). -/
def beginLoads : Nat → LoadJob → State → LoadJob × State
  | 0, j, s => (j, s)
  | k + 1, j, s =>
    match j.todo with
    | [] => (j, s)
    | (p, off) :: t =>
      if decide (j.flight.length < 4) && !j.flight.contains p && (s.port (portOf p)).csld.isNone then
        beginLoads k { j with todo := t, flight := j.flight ++ [p] } (startLoadAt (portOf p) (blockSpace + 0x1400000 + off) s)
      else (j, s)

/-- A load of those in flight has ended. -/
def loadEnded (s : State) (p : Nat) : Bool := (s.port (portOf p)).csld.isNone

/-- A load of those in flight has ended with a nonzero RESULT. -/
def loadsFailed (s : State) (j : LoadJob) : Bool :=
  j.flight.any (fun p => loadEnded s p && s.get (WSQ.CSLD.STAT.RESULT p) != 0)

/-- The loads go on: those that have ended leave, and the next begin. -/
def loadsGoOn (j : LoadJob) (s : State) : LoadJob × State :=
  beginLoads 4 { j with flight := j.flight.filter (fun p => !loadEnded s p) } s

/-! ### The staged image (R379) -/

/-- The staging area. -/
def stagingBase : Nat := 0x1400000

/-- The bytes of an image that are staged: its length where that lies within the limits, else its header. -/
def stagedLength (b : List Byte) : Nat := if lengthGood (imageLength b) then imageLength b else 0x60

/-- The length of the staged image. -/
def stagedSize (s : State) : Nat := stagedLength (s.bytes stagingBase 0x60)

/-- The staged image reads without an uncorrectable error. -/
def stagedGood (s : State) : Bool := s.readable stagingBase 0x60 && decide (readableRun s stagingBase (stagedSize s) = stagedSize s)

/-- The bytes of the staged image. -/
def stagedImage (s : State) : List Byte := s.bytes stagingBase (stagedSize s)

/-- What a read of the staged image leaves: its errors recorded, up to the first that ends it (R298). -/
def readStaged (s : State) : State :=
  let n := if s.readable stagingBase 0x60 then stagedSize s else 0x60
  let k := readableRun s stagingBase n
  noteRun stagingBase n (s.bytes stagingBase k, decide (k < n)) s

end Sys2Proof.Machine
end

