-- ==== Sys2Proof/Machine/Boot.lean ====
section
/-! DEFINITION. Start-up from a block reset to START, the cluster reset by command, and the acknowledge of the power
controller (R368-R383, R391, R392, R397, R398, R435). -/

namespace Sys2Proof.Machine

open Reg

/-! ### START_UP: steps 1 to 4 of R378 -/

/-- The bits of GLB.RST.CAUSE that a release sets. -/
def setCauses (m : Nat) (s : State) : State :=
  ([GLB.RST.CAUSE.POR, GLB.RST.CAUSE.PIN, GLB.RST.CAUSE.SOFT, GLB.RST.CAUSE.BWDOG, GLB.RST.CAUSE.WAKE].zipIdx).foldl
    (fun t x => if m.testBit x.2 then t.raise x.1 else t) s

/-- The repair record passes its CRC-16 (R435). -/
def repairGood (r : List Bool) : Bool :=
  let crc := (r.take 2048).foldl crc16Step 0xFFFF#16
  decide ((r.drop 2048).take 16 = (List.range 16).map (fun i => crc.getLsbD (15 - i)))

/-- The spare columns that a repair record uses (R435). -/
def repairUsed (r : List Bool) : Nat := ((List.range 210).filter (fun i => r.getD (9 * i + 8) false)).length

/-- The repair record: its check and the columns in use; a record that fails leaves every array unrepaired (R301). -/
def repair (r : List Bool) (s : State) : State :=
  if repairGood r then s.put MEM.RSTAT.USED (repairUsed r) else s.raise MEM.RSTAT.RFAIL

/-- The ROM loader is copied into ME0's scratchpad; its bytes are not given: free values (R378, log entry 2). -/
def copyRom (s : State) : State :=
  let rom := (List.range 0x10000).map (fun i => Config.freeValue 8 (s.free + i))
  { s with mem := memSetAll s.mem 0x600000 rom, free := s.free + 0x10000 }

/-- The slots in the order in which they are tried: PREF first; one whose FAIL bit is set is skipped (R380). -/
def slotOrder (s : State) : List Nat :=
  let p := s.get GLB.BOOT.CTRL.PREF
  [p, 1 - p].filter (fun k => !s.on (if k = 0 then GLB.BOOT.STAT.FAILA else GLB.BOOT.STAT.FAILB))

/-- The next slot is read, or the loader waits for a host image (R380). -/
def nextSlot (s : State) : State :=
  match s.boot.tries with
  | k :: t => { ((s.put GLB.BOOT.STAT.SLOT k).lower GLB.BOOT.STAT.SRC).put GLB.BOOT.STAT.STAGE 2 with boot := { s.boot with tries := t, staging := true } }
  | [] => s.put GLB.BOOT.STAT.STAGE 7

/-- Flash discovery (R369, R370): the flash gives no answer where every byte of the SFDP header reads 0xFF or 0x00 and no other
byte says otherwise (log entry 73). -/
def discover (answers : Bool) (sfdp regs : List Byte) (s : State) : State :=
  let s := (discoverCmds s.boot.div sfdp regs).foldl State.emit s
  if !answers && (sfdpBytes sfdp 0 16).all (fun b => b == 0xFF || b == 0) then
    (s.put GLB.BOOT.STAT.RESULT 1).put GLB.BOOT.STAT.STAGE 7
  else
    let s := if sfdpValid sfdp then s else s.raise GLB.BOOT.STAT.NOSFDP
    nextSlot { s with boot := { s.boot with tries := slotOrder s, read := flashRead s.boot.div sfdp } }

/-- ME0 runs from virtual address 0; every other engine stays parked (R378). -/
def startLoader (s : State) : State :=
  s.modEng 0 (fun x => { x with boot := false, flow := { x.flow with pc := 0, xfer := none } })

/-- The release of a reset by power-on or RST_N samples BOOT_SEL and BOOT_DIV; every other release keeps what was sampled
(R368). -/
def sampleBoot (sel : Bool) (div : BitVec 2) (b : BootSt) : BootSt :=
  let pin := decide (b.causes % 4 ≠ 0)
  ⟨false, 0, none, [], false, if pin then sel else b.sel, if pin then div else b.div, FlashRead.plain, false, none⟩

/-- START_UP (R368-R370, R378, R435): the block reset is released. `host`: BOOT_SEL and BOOT_DIV; `answers`: another byte
of the flash than those of `sfdp` shows that it is there; `sfdp`: its SFDP space and status registers; `record`: the repair record as
shifted in; `fid`: the fused factory ID. The receivers of both system ports grant their initial credits (R413). -/
def execStartUp (host : Straps) (answers : Bool) (sfdp : FlashSpace) (record : List Bool) (fid : BitVec 64) (s : State) : Res :=
  if s.boot.inReset then
    let s := { s.emit (.repair 2064) with credits := { s.credits with slCmd := 16, slWd := 16, mlRd := 64, mlWc := 16 } }
    let s := setCauses s.boot.causes { s with boot := sampleBoot host.sel host.div s.boot }
    let s := (repair record s).put TIL.FID_L.FID (fid.toNat % 2 ^ 32)
    let s := startLoader (copyRom (s.put TIL.FID_H.FID (fid.toNat / 2 ^ 32)))
    .next (if s.boot.sel then s.put GLB.BOOT.STAT.STAGE 1 else discover answers sfdp.sfdp sfdp.regs s)
  else .next s

/-! ### IMAGE_STAGED: steps 5 to 9 of R378 -/

/-- An image is rejected, with its RESULT (R380, R381). -/
def imageFails (r : Nat) (s : State) : State :=
  let s := s.put GLB.BOOT.STAT.RESULT r
  if s.on GLB.BOOT.STAT.SRC then s.put GLB.BOOT.STAT.STAGE 7
  else nextSlot (s.raise (if s.get GLB.BOOT.STAT.SLOT = 0 then GLB.BOOT.STAT.FAILA else GLB.BOOT.STAT.FAILB))

/-- Bytes of an on-block memory up to the first error. -/
def onBlockRun (s : State) (a n : Nat) : List Byte × Bool :=
  if inGran a && inGran (a + n - 1) then
    let k := readableRun s a n
    (s.bytes a k, decide (k < n))
  else if s.readable a n then (s.bytes a n, false)
  else ([], true)

/-- Bytes of a scratchpad as the loader reads them, where its owner admits the loader and it holds them all (R292). -/
def spadRun (s : State) (a n : Nat) : List Byte × Bool :=
  if inSp (a + n - 1) && decide (a / 0x20000 = (a + n - 1) / 0x20000) && windowStatus s loaderReq false a == stOkay &&
    !s.memBad a n then (s.bytes a n, false)
  else ([], true)

/-- Bytes of the control stores as the loader reads them through their window (R46). -/
def ctrlRun (s : State) (a n : Nat) : List Byte × Bool :=
  if inCs (a + n - 1) && s.up (memDom a) && s.up (memDom (a + n - 1)) then (windowBytes s a n, false) else ([], true)

/-- A host image as the loader reads it from an address: `ext` is what external memory answers, up to an error where `err` is
set (R381). -/
def hostBytes (s : State) (a : Nat) (ext : List Byte) (err : Bool) : List Byte × Bool :=
  let r := a - blockSpace
  let run := if inSp r then spadRun s r else if inCs r then ctrlRun s r else onBlockRun s r
  if isExternal a then (ext, err)
  else
    let h := run 0x60
    if h.2 then h else run (stagedLength h.1)

/-- The staging area lies in a bank that is mapped (R303). -/
def stagingMapped (s : State) (n : Nat) : Bool := (List.range 8).all (fun i => decide (n ≤ 0x80000 * i) || !s.unmapped (stagingBase + 0x80000 * i))

/-- What the loader still has to do. -/
def setJob (j : Option LoadJob) (s : State) : State := { s with boot := { s.boot with job := j } }

/-- A control-store load has failed (R380): in flash mode the next slot starts from a clean block. -/
def imageLoadFails (s : State) : State :=
  let s := setJob none s
  if s.on GLB.BOOT.STAT.SRC then (s.put GLB.BOOT.STAT.RESULT 11).put GLB.BOOT.STAT.STAGE 7
  else blockReset 2 (s.raise (if s.get GLB.BOOT.STAT.SLOT = 0 then GLB.BOOT.STAT.FAILA else GLB.BOOT.STAT.FAILB))

/-- Steps 8 and 9: the control-store loads go on; behind the last the held-back parts are written, and the image is accepted (R378). -/
def packagesGo (j : LoadJob) (s : State) : State :=
  if loadsFailed s j then imageLoadFails s
  else
    let (j, s) := loadsGoOn j s
    if j.todo.isEmpty && j.flight.isEmpty then
      let s := applyHeld (regsetsOf j.recs) s
      { s with boot := { s.boot with accepted := true, job := none } }
    else setJob (some j) s

/-- Steps 7 and 8: the image of `b` has passed its checks; REGSET and LOAD records are applied, and the control-store loads begin. -/
def applyImage (rs : List ImgRec) (b : List Byte) (s : State) : State :=
  let s := ((s.put GLB.BOOT.STAT.RESULT 0).put GLB.BOOT.IMGVER.VER (imageVersion b)).put GLB.BOOT.ROLLBK.VAL (imageRollback b)
  let s := applyLoads (fun _ => true) rs (applyRegsets (regsetsOf rs) (s.put GLB.BOOT.STAT.STAGE 4))
  packagesGo ⟨false, true, false, rs, packagesOf (fun _ => true) rs, []⟩ (s.put GLB.BOOT.STAT.STAGE 5)

/-- Step 6: the checks of the staged image, with the permit that one over 64 KiB needs (R377, R384). -/
def checkStaged (j : LoadJob) (keyHash : BitVec 256) (mono : Nat) (s : State) : State :=
  if j.asked && !s.holds cryPermitReq then setJob (some j) s
  else
    let r := if stagedGood s then checkImage (stagedImage s) keyHash mono else .error 10
    let b := stagedImage s
    let s := setJob none (readStaged s)
    let s := if j.asked then releaseCheck s else s
    match r with
    | .error r => imageFails r s
    | .ok rs => applyImage rs b s

/-- The whole image is in the staging area (steps 5 and 6 of R378). -/
def stageImage (b : List Byte) (keyHash : BitVec 256) (mono : Nat) (s : State) : State :=
  let n := stagedLength b
  let b := b.take n ++ List.replicate (n - b.length) 0
  if !stagingMapped s n then imageFails 10 s
  else
    let s := (s.store stagingBase b).put GLB.BOOT.STAT.STAGE 3
    let big := decide (65536 < n)
    checkStaged ⟨big, false, false, [], [], []⟩ keyHash mono (if big then askPermit cryPermitReq 0 s else s)

/-- IMAGE_STAGED (R370-R381): the loader has read the image: `bytes` are those of the flash slot, or the answers of external
memory, up to an error response where `err` is set; KEY_HASH and MONO_CTR are boundary inputs. The loader goes as far as it can; one
that waits for a permit, for a read to leave or for control-store loads goes on with the next such row. -/
def execImageStaged (bytes : List Byte) (err : Bool) (keyHash : BitVec 256) (mono : BitVec 32) (s : State) : Res :=
  if !s.bootRuns then .next s
  else match s.boot.job with
  | some j => .next (if j.checked then packagesGo j s else checkStaged j keyHash mono.toNat s)
  | none =>
    if s.get GLB.BOOT.STAT.STAGE ≠ 2 then .next s
    else if s.on GLB.BOOT.STAT.SRC then
      let a := hostImage s
      let b := hostBytes s a bytes err
      match sourceRead 11 loaderReq a (max 0x60 b.1.length) b s with
      | (false, s) => .next s
      | (true, s) => .next (if b.2 then imageFails 9 s else stageImage b.1 keyHash mono.toNat s)
    else .next (stageImage bytes keyHash mono.toNat (s.emit (readSlot s.boot.read (s.get GLB.BOOT.STAT.SLOT) (stagedLength bytes))))

/-! ### IMAGE_START: step 10 of R378 -/

/-- The records of the staged image, which has been accepted. -/
def stagedRecords (s : State) : List ImgRec :=
  let b := stagedImage s
  match readRecords (imageLength b / 8) 0x60 ((b.take (imageLength b - 64)).drop 0x60) with
  | .ok rs => rs
  | .error _ => []

/-- The entry address of an engine, if a START names it. -/
def entryOf (rs : List ImgRec) (e : Eng) : Option Nat := ((startsOf rs).find? (fun x => x.1 == e.val)).map (·.2)

/-- The ENTRY of an engine goes to its inbound message queue. -/
def sendEntry (rs : List ImgRec) (s : State) (e : Eng) : State :=
  match entryOf rs e with
  | some a => receive e (BitVec.ofNat 48 a) s
  | none => s

/-- The firmware rings READY on every channel (R342). -/
def ringReady (s : State) : State := (List.range 4).foldl (fun t c => ringHost c 1 t) s

/-- IMAGE_START (R378): the other engines start, then ME0 jumps to its ENTRY; READY rings. The duration of the start-up is a
free value (log entry 7). -/
def execImageStart (s : State) : Res :=
  if s.boot.accepted && s.get GLB.BOOT.STAT.STAGE == 5 && s.bootRuns then
    let rs := stagedRecords s
    let s := ((List.finRange 14).filter (fun e : Eng => e ≠ 0)).foldl (sendEntry rs) s
    let s := s.modEng 0 (fun x => { x with flow := { x.flow with pc := BitVec.ofNat 48 ((entryOf rs 0).getD 0), xfer := none } })
    let s := ((s.put GLB.BOOT.TIME.US (s.freeVal 32).toNat).took).put GLB.BOOT.STAT.STAGE 6
    .next (ringReady { s with boot := { s.boot with accepted := false } })
  else .next s

/-! ### CLUSTER_RESET (R392) -/

/-- The address lies in the memories of a cluster. -/
def inCluster (n : Clu) (a : Nat) : Bool := (inClu a || inSp a) && decide (memDom a = n.val + 1)

/-- What the firmware still has to do to bring the cluster up. -/
def setRestore (n : Clu) (j : Option LoadJob) (s : State) : State := s.modClu n (fun c => { c with restore := j })

/-- The REGSET entries that lie in the cluster's register window. -/
def cluEntries (n : Clu) (rs : List ImgRec) : List (Nat × Nat × Nat) :=
  (regsetsOf rs).filter (fun x => decide (cluBase n ≤ x.1 ∧ x.1 < cluBase n + 0x10000))

/-- Steps 5 to 8 of R392: behind the last control-store load come LOAD records, the held-back parts and the engines' ENTRY. The twin
controller writes the role bytes of the cluster's ports again (R168). A load that fails leaves its RESULT only (log entry 55). -/
def restoreLoads (n : Clu) (j : LoadJob) (s : State) : State :=
  let (j, s) := loadsGoOn j s
  if j.todo.isEmpty && j.flight.isEmpty then
    let s := setRestore n none s
    let s := if j.wake then applyLoads (inCluster n) j.recs s else s
    (domEngines (n.val + 1)).foldl (sendEntry j.recs) (refreshRoles (applyHeld (cluEntries n j.recs) s))
  else setRestore n (some j) s

/-- Steps 3 and 4: the staged image is checked again, with the permit that one over 64 KiB needs, and the REGSET entries of the cluster
are applied (R384, R392). -/
def restoreCheck (n : Clu) (j : LoadJob) (keyHash : BitVec 256) (s : State) : State :=
  let r := if stagedGood s then recheckImage (stagedImage s) keyHash else .error 10
  let s := setRestore n none (readStaged s)
  let s := if j.asked then releaseCheck s else s
  match r with
  | .error _ => powerEvent (n.val + 1) (s.mode (n.val + 1)) true false s
  | .ok rs =>
    restoreLoads n { j with asked := false, checked := true, recs := rs, todo := packagesOf (fun p => decide (cluOf p = n)) rs }
      (applyRegsets (cluEntries n rs) s)

/-- The firmware goes on bringing the cluster up. -/
def restoreGoOn (n : Clu) (keyHash : BitVec 256) (s : State) : State :=
  match (s.clu n).restore with
  | none => s
  | some j =>
    if !s.cluUp n || !s.bootRuns then s
    else if j.checked then restoreLoads n j s
    else if stagedGood s && decide (65536 < stagedSize s) && !j.asked then
      if s.hasRequest cryPermitReq then s else askPermit cryPermitReq 0 (setRestore n (some { j with asked := true }) s)
    else if j.asked && !s.holds cryPermitReq then s
    else restoreCheck n j keyHash s

/-- Steps 3 to 8: the firmware brings the cluster up again; `wake`: after DEEP or OFF. -/
def restoreCluster (n : Clu) (keyHash : BitVec 256) (wake : Bool) (s : State) : State :=
  if s.bootRuns then restoreGoOn n keyHash (setRestore n (some ⟨false, false, wake, [], [], []⟩) s) else s

/-- CLUSTER_RESET (R392): the ports are disabled and drain, then the cluster is reset and brought up again. A bring-up that waits for a
permit or for control-store loads goes on with the next such row. -/
def execClusterReset (n : Clu) (keyHash : BitVec 256) (s : State) : Res :=
  if s.boot.inReset || !s.cluUp n then .next s
  else if (s.clu n).restore.isSome then .next (restoreGoOn n keyHash s)
  else
    let ps := domPorts (n.val + 1)
    if ps.any (fun p => s.on (PX.STAT.ENACT p)) then .next (ps.foldl (fun t (p : Port) => disablePort p t) s)
    else .next (restoreCluster n keyHash false (clusterReset n true s))

/-! ### PCH_ACK (R119, R302, R391, R397, R398) -/

/-- A cluster wakes from DEEP or OFF: the cluster reset, with its counter kept from DEEP (R119, R391). -/
def wakeCluster (n : Clu) (keyHash : BitVec 256) (s : State) : State :=
  let deep := s.sleepDepth (n.val + 1) == 3
  let cnt := (s.clu n).cnt
  let s := clusterReset n false (setMode (n.val + 1) 0 s)
  let s := s.modPower (fun x => { x with depth := eraseAt (n.val + 1) x.depth })
  restoreCluster n keyHash true (if deep then s.modClu n (fun c => { c with cnt := cnt }) else s)

/-- A domain that wakes is in RUN; one that a request wakes goes to the mode that it names, and the request is done (R396). -/
def wakeDone (d : Nat) (s : State) : State :=
  let s := s.raise PWR.EVT.WAKE
  match s.power.asked with
  | some (k, m) =>
    if k = d then
      let s := if m = 1 then changeRunIdle d 1 s else s
      requestDone d m (s.modPower (fun x => { x with asked := none }))
    else s
  | none => s

/-- A domain wakes. -/
def wakeDomain (d : Nat) (keyHash : BitVec 256) (s : State) : State :=
  if s.sleepDepth d = 2 then wakeDone d (wakeRetained d 0 s)
  else if d = 0 then
    if s.on DBG.LOCK.ERASING then blockReset 4 s else (blockReset 4 s).raise PWR.EVT.WAKE
  else wakeDone d (wakeCluster (Fin.ofNat 4 (d - 1)) keyHash s)

/-- PCH_ACK (R397): the domain is in its new mode. -/
def execPchAck (keyHash : BitVec 256) (s : State) : Res :=
  let s := powerProceed s
  match s.power.pch with
  | some h =>
    if h.req && !s.power.ack then
      let s := s.modPower (fun x => { x with pch := some { h with req := false }, ack := true })
      .next (if h.wake then wakeDomain h.dom keyHash s
        else enterSleep h.dom h.mode (if h.dom = 0 then stopDma s
          else if h.mode = 2 then s else dropRestore (Fin.ofNat 4 (h.dom - 1)) s))
    else .next s
  | none => .next s

end Sys2Proof.Machine
end

