-- ==== Sys2Proof/Machine/HostCmd.lean ====
section
/-! DEFINITION. The command service of the management firmware: packets, checks, order, aborts, replies, events and
counters (R347-R360). -/

namespace Sys2Proof.Machine

open Reg

/-! ### Packets (R349) -/

/-- The first byte of a channel's H2B; its B2H begins 0x400 bytes later (R345, R367). -/
def mailBase (c : Fin 4) : Nat := 0x10000 + 0x4000 * c.val

/-- A reply or event packet. -/
def packet (op tag flags status detail : Nat) (data : List Byte) : List Byte :=
  bytesLE 2 op ++ bytesLE 2 tag ++ bytesLE 2 data.length ++ bytesLE 2 flags ++ bytesLE 2 status ++ [0, 0] ++ bytesLE 4 detail ++ data

/-- A reply waits for B2H (R349, R352). -/
def replyOf (op tag : BitVec 16) (status detail : Nat) (data : List Byte) : Reply :=
  ⟨packet op.toNat tag.toNat 0x8000 status detail data, tag⟩

def addReplies (c : Fin 4) (l : List Reply) (s : State) : State := s.modChan c (fun x => { x with due := x.due ++ l.map .reply })

/-! ### Opcodes and parameters (R353, R354) -/

/-- The opcodes with a parameter length of their own. -/
def opLengths : List (Nat × Nat) :=
  [(0x0101, 0), (0x0102, 2), (0x0103, 0), (0x0104, 2), (0x0105, 8), (0x0106, 1), (0x0107, 2), (0x0201, 1), (0x0202, 20),
   (0x0203, 1), (0x0204, 1), (0x0301, 2), (0x0302, 8), (0x0303, 1), (0x0401, 12), (0x0403, 2), (0x0404, 6), (0x0501, 1),
   (0x0502, 14), (0x0503, 14), (0x0504, 4), (0x0601, 2), (0x0602, 1), (0x0604, 4), (0x0701, 0), (0x0702, 0), (0x0703, 0),
   (0x0704, 2), (0x0801, 2), (0x0802, 0), (0x0803, 2), (0x0804, 8), (0x0901, 2), (0x0902, 8), (0x0903, 1), (0x0904, 0),
   (0x0A01, 3), (0x0A02, 0)]

/-- The opcode is defined. -/
def opDefined (op : Nat) : Bool := op == 0x0402 || op == 0x0603 || op == 0x0A03 || opLengths.any (fun x => x.1 == op)

/-- LEN fits the opcode and, for a repeated parameter, its count. -/
def lenGood (op : Nat) (p : List Byte) : Bool :=
  match op with
  | 0x0402 => decide (8 ≤ p.length) && decide (p.length = 8 + 4 * fieldLE p 4 2)
  | 0x0603 => decide (4 ≤ p.length) && decide (p.length = 4 + 4 * fieldLE p 2 2)
  | 0x0A03 => true
  | _ => opLengths.contains (op, p.length)

/-- The commands allowed on a non-secure channel. -/
def nsAllowed (op : Nat) : Bool :=
  [0x0101, 0x0102, 0x0103, 0x0107, 0x0303, 0x0404, 0x0501, 0x0602, 0x0903, 0x0904, 0x0A01, 0x0A02, 0x0A03].contains op

/-- The commands that ABORT can withdraw before their commit point. -/
def abortable (op : Nat) : Bool := op == 0x0202 || op == 0x0203 || op == 0x0401

/-- The range of a grist setting's VALUE (R405). -/
def gristRange (k v : Nat) : Bool :=
  match k with
  | 0 => decide (v ≤ 1)
  | 1 => decide (v < 2 ^ 8)
  | 2 => decide (v ≤ 2)
  | 3 => decide (v < 2 ^ 14)
  | 4 => decide (v < 2 ^ 16) && decide (v % 256 ≤ 2)
  | 5 => decide (1000 ≤ v ∧ v ≤ 1500)
  | _ => false

/-- The counters that COUNTERS selects (R356). -/
def counters (unit i : Nat) : Option (List Fld) :=
  match unit with
  | 0 => if i < 8 then some [WSQ.CHAFF.CNT i, WSQ.RXBAD.CNT i, WSQ.SAFDROP.CNT i, PI.MISSCNT.CNT i, PI.REPCNT.CNT i, PQ.DROPCNT.CNT i, WSQ.CSCE.CNT i] else none
  | 1 => if i < 4 then some [DUP.STAT.DUPS i, DUP.STAT.EVICT i] else none
  | 2 => if i < 16 then some [TTW.LATE.CNT (i / 4) (i % 4)] else none
  | 3 => if i < 4 then some [TIL.RING.STALECNT.CNT i] else none
  | 4 => if i = 0 then some ((List.range 19).map MEM.CE.CNT ++ [MEM.PARCNT.CNT]) else none
  | 5 => if i = 0 then some [HSK.STAT.TOCNT, HSK.STAT.STRAY] else none
  | 6 => if i = 0 then some [TWN.HBMISS.CNT] else none
  | 7 => if i < 4 then some (MB.BUSYCNT.CNT i :: (if i = 0 then [MB.SECCNT.CNT 0] else [])) else none
  | 8 => if i = 0 then some [TRC.STAT.LOST] else none
  | 9 => if i < 64 then some [SEM.HOLD.BADGIVE i] else none
  | _ => none

/-- The parameters of a command in order, each by its offset and whether it lies in its range (R354). -/
def paramChecks (op : Nat) (p : List Byte) : List (Nat × Bool) :=
  let u (i n : Nat) := fieldLE p i n
  let le (i m : Nat) : Nat × Bool := (i, decide (u i 1 ≤ m))
  match op with
  | 0x0104 => [le 0 2, le 1 (match u 0 1 with | 0 => 0 | 1 => 3 | _ => 13)]
  | 0x0105 => [le 0 13, le 1 0]
  | 0x0106 => [le 0 13]
  | 0x0201 => [le 0 1]
  | 0x0202 => [le 0 1, le 1 0, le 2 0, le 3 0, (4, decide (u 4 4 < 0x400000)), (8, decide (u 4 4 + u 8 4 ≤ 0x400000)), (12, decide (u 12 8 < 2 ^ 40))]
  | 0x0203 => [le 0 1]
  | 0x0204 => [le 0 1]
  | 0x0301 => [le 0 7, le 1 1]
  | 0x0302 => [le 0 7, (1, decide (4 ≤ u 1 1 ∧ u 1 1 ≤ 128)), le 2 2, le 3 1, le 4 2, le 5 0, le 6 0, le 7 0]
  | 0x0303 => [le 0 7]
  | 0x0401 => [le 0 7, le 1 0, le 2 0, le 3 0, (4, decide (u 4 8 < 2 ^ 40))]
  | 0x0402 => [le 0 7, le 1 1, (2, decide (u 2 2 < 1024)), (4, decide (u 4 2 ≤ 248)), le 6 0, le 7 0]
  | 0x0403 => [le 0 7, le 1 1]
  | 0x0404 => [le 0 7, le 1 1, (2, decide (u 2 2 < 1024)), (4, decide (u 4 2 ≤ 252))]
  | 0x0501 => [le 0 3]
  | 0x0502 => [le 0 3, le 1 0]
  | 0x0503 => [le 0 3, le 1 0]
  | 0x0504 => [le 0 3, le 1 3, (2, decide (u 3 1 = 0))]
  | 0x0601 => [le 0 3, le 1 4]
  | 0x0602 => [le 0 3]
  | 0x0603 => [(0, decide (u 0 2 < 512)), (2, decide (u 2 2 ≤ 250 ∧ u 0 2 + u 2 2 ≤ 512))]
  | 0x0604 => [le 0 3, le 1 0]
  | 0x0704 => [le 0 2, le 1 15]
  | 0x0801 => [le 0 2]
  | 0x0803 => [le 0 13, le 1 2]
  | 0x0901 => [le 0 31, le 1 4]
  | 0x0902 => [le 0 5, le 1 0, le 2 0, le 3 0, (4, gristRange (u 0 1) (u 4 4))]
  | 0x0903 => [le 0 5]
  | 0x0A01 => [le 0 9, (1, (counters (u 0 1) (u 1 1)).isSome), le 2 1]
  | _ => []

/-- The packet offset of the first parameter out of range (R351). -/
def badParam (op : Nat) (p : List Byte) : Option Nat := ((paramChecks op p).find? (fun x => !x.2)).map (fun x => 16 + x.1)

/-- The offset of the first must-be-0 byte of a command's header that is not 0; FLAGS bit 0 is NOREPLY (R349). -/
def badHeader (b : List Byte) : Option Nat :=
  if 2 ≤ fieldLE b 6 1 then some 6 else ((List.range 9).map (· + 7)).find? (fun i => b.getD i 0 != 0)

/-! ### Outstanding commands (R350, R352) -/

/-- The tags of the outstanding commands of a channel. -/
def outstanding (x : ChanSt) : List (BitVec 16) :=
  x.cmds.flatMap (fun m => m.tag :: m.aborters.map (·.tag)) ++ x.replies.map (·.tag)

/-- The checks of R350: the status and DETAIL of the first that fails. -/
def checkCommand (s : State) (c : Fin 4) (b : List Byte) : Option (Nat × Nat) :=
  let op := fieldLE b 0 2
  let tag : BitVec 16 := BitVec.ofNat 16 (fieldLE b 2 2)
  let len := fieldLE b 4 2
  let p := (b.drop 16).take len
  let out := outstanding (s.chan c)
  let ns := decide (2 ≤ c.val)
  if 1008 < len then some (0x0101, 0)
  else match badHeader b with
  | some i => some (0x0102, i)
  | none =>
    if !opDefined op then some (0x0100, 0)
    else if ns && (!nsAllowed op || op == 0x0A01 && len == 3 && fieldLE p 2 1 == 1) then some (0x0103, 0)
    else if !lenGood op p then some (0x0101, 0)
    else if op ≠ 0x0102 ∧ out.contains tag = true then some (0x0108, 0)
    else if op ≠ 0x0102 ∧ 8 ≤ out.length then some (0x0104, 0)
    else (badParam op p).map (fun i => (0x0102, i))

/-- The target that serializes a command with others: groups 0x02 and 0x09 as a whole, else the port, ring, engine, time
domain or power domain that it names (R352). -/
def cmdTarget (m : HostCmd) : Option (Nat × Nat) :=
  let op := m.op.toNat
  let k := fieldLE m.params 0 1
  if op / 256 = 2 ∨ op / 256 = 9 then some (0, 0)
  else if op / 256 = 3 ∨ op / 256 = 4 then some (1, k)
  else if op / 256 = 5 then some (2, k)
  else if op = 0x0601 ∨ op = 0x0602 ∨ op = 0x0604 then some (3, k)
  else if op = 0x0105 ∨ op = 0x0106 ∨ op = 0x0803 then some (4, k)
  else if op = 0x0104 ∧ k = 1 then some (5, fieldLE m.params 1 1)
  else if op = 0x0104 ∧ k = 2 then some (4, fieldLE m.params 1 1)
  else if op = 0x0A01 ∧ k = 0 then some (1, fieldLE m.params 1 1)
  else if op = 0x0A01 ∧ k = 3 then some (3, fieldLE m.params 1 1)
  else none

/-- The firmware serves a channel: start-up is over, MGMT runs, and a management engine is out of reset (R341, R352). -/
def serviceRuns (s : State) (c : Fin 4) : Bool :=
  !s.boot.inReset && s.on (MB.STAT.READY c) && s.up 0 && s.bit FLT.RUN.ENG (servingEngine s c)

/-- A command that has not started may start: the commands before it on its channel have started, and no command under way
has its target (R352). -/
def mayStart (s : State) (c : Fin 4) (m : HostCmd) : Bool :=
  (s.chan c).cmds.find? (fun x => !x.started) == some m &&
    (match cmdTarget m with
     | some t => (List.finRange 4).all (fun k => (s.chan k).cmds.all (fun x => !x.started || cmdTarget x != some t))
     | none => true)

/-! ### Ends of commands (R349, R358) -/

/-- The replies of a command that ends: its own, which NOREPLY suppresses for OK unless an ABORT waits for it, and those of
the ABORTs, which follow at once. -/
def endReplies (m : HostCmd) (status detail : Nat) (data : List Byte) : List Reply :=
  let own :=
    if m.aborters.isEmpty then (if m.noReply && status == 0 then [] else [replyOf m.op m.tag status detail data])
    else [replyOf m.op m.tag (if status = 0 then 1 else status) detail data]
  own ++ (m.aborters.filter (fun a => a.late || !a.noReply)).map (fun a => replyOf 0x0102 a.tag a.late.toNat 1 [])

/-- A command leaves its channel. -/
def dropCmd (c : Fin 4) (tag : BitVec 16) (s : State) : State :=
  s.modChan c (fun x => { x with cmds := x.cmds.filter (fun m => m.tag != tag) })

/-- A command ends. -/
def endCmd (c : Fin 4) (m : HostCmd) (status detail : Nat) (data : List Byte) (s : State) : State :=
  addReplies c (endReplies m status detail data) (dropCmd c m.tag (if m.op = 0x0202 then forgetBulk 10 s else s))

/-- A command under way changes. -/
def setCmd (c : Fin 4) (tag : BitVec 16) (g : HostCmd → HostCmd) (s : State) : State :=
  s.modChan c (fun x => { x with cmds := x.cmds.map (fun m => if m.tag = tag then g m else m) })

/-- The command can no longer be withdrawn (R354, R358). -/
def isCommitted (m : HostCmd) : Bool := m.started && (!abortable m.op.toNat || m.committed)

/-- IMGVERIFY gives up the permit that it asked for; a firmware job that needs it asks next (R384, R402). -/
def releaseVerify (m : HostCmd) (s : State) : State :=
  if m.op == 0x0203 && decide (1 < m.params.length) then
    releaseCheck s
  else s

/-- A command is withdrawn (R358): a control-store load that it began is aborted. -/
def withdraw (c : Fin 4) (m : HostCmd) (s : State) : State :=
  let s := if m.started && m.op == 0x0401 then abortLoad (portOf (fieldLE m.params 0 1)) s else s
  let s := if m.op = 0x0202 then forgetBulk 10 s else s
  addReplies c [replyOf m.op m.tag 2 0 []] (dropCmd c m.tag (releaseVerify m s))

/-- A reply that has not been posted becomes LATE, if it was OK (R358). -/
def lateReply (r : Reply) : Reply :=
  if fieldLE r.bytes 8 2 = 0 then { r with bytes := r.bytes.take 8 ++ [1, 0] ++ r.bytes.drop 10 } else r

/-- Replies are inserted behind the one with a tag, which becomes LATE. -/
def insertBehind (tag : BitVec 16) (l : List Reply) : List Post → List Post
  | [] => []
  | .reply r :: t => if r.tag = tag then .reply (lateReply r) :: (l.map .reply ++ t) else .reply r :: insertBehind tag l t
  | d :: t => d :: insertBehind tag l t

/-- An ABORT joins those that wait: behind the one that it names, which becomes LATE (R358). -/
def joinBehind (target : BitVec 16) (a : Aborter) : List Aborter → List Aborter
  | [] => []
  | b :: t => if b.tag = target then { b with late := true } :: a :: t else b :: joinBehind target a t

/-- The command whose end an outstanding ABORT waits for. -/
def abortedBy (x : ChanSt) (tag : BitVec 16) : Option HostCmd := x.cmds.find? (fun m => m.aborters.any (fun a => a.tag == tag))

/-- ABORT acts as it is consumed (R358). An ABORT that waits is itself a command without A whose reply has not been posted. -/
def abortCommand (c : Fin 4) (tag target : BitVec 16) (noReply : Bool) (s : State) : State :=
  let own (detail : Nat) := if noReply then [] else [replyOf 0x0102 tag 0 detail []]
  match (s.chan c).cmds.find? (fun m => m.tag == target) with
  | some m =>
    if isCommitted m then setCmd c target (fun x => { x with aborters := x.aborters ++ [⟨tag, noReply, false⟩] }) s
    else addReplies c (own 2) (withdraw c m s)
  | none =>
    match abortedBy (s.chan c) target with
    | some m => setCmd c m.tag (fun x => { x with aborters := joinBehind target ⟨tag, noReply, false⟩ x.aborters }) s
    | none =>
    if (s.chan c).replies.any (fun r => r.tag == target) then
      s.modChan c (fun x => { x with due := insertBehind target (own 1) x.due })
    else addReplies c [replyOf 0x0102 tag 0x0106 0 []] s

/-! ### Consumption (R348, R350) -/

/-- The firmware consumes the command in H2B: the checks, the clear of CMD, and the command joins those outstanding. -/
def consume (c : Fin 4) (s : State) : State :=
  let b := s.bytes (mailBase c) 1024
  let op : BitVec 16 := BitVec.ofNat 16 (fieldLE b 0 2)
  let tag : BitVec 16 := BitVec.ofNat 16 (fieldLE b 2 2)
  let p := (b.drop 16).take (fieldLE b 4 2)
  let noReply := (b.getD 6 0).getLsbD 0
  let verdict := checkCommand s c b
  let s := clearBlock c 1 s
  match verdict with
  | some (status, detail) => addReplies c [replyOf op tag status detail []] s
  | none =>
    if op = 0x0102 then abortCommand c tag (BitVec.ofNat 16 (fieldLE p 0 2)) noReply s
    else s.modChan c (fun x => { x with cmds := x.cmds ++ [{ tag := tag, op := op, params := p, noReply := noReply, started := false, committed := false, aborters := [] }] })

/-- COMMAND_CONSUME (R350): whether or not B2H is full (R348). -/
def execCommandConsume (c : Fin 4) (s : State) : Res :=
  .next (if serviceRuns s c && s.bit (DB.BB.BITS c) 0 then consume c s else s)

/-- ABORT (R358): the command in H2B is an ABORT. -/
def execAbort (c : Fin 4) (s : State) : Res :=
  .next (if serviceRuns s c && s.bit (DB.BB.BITS c) 0 && s.load (mailBase c) 2 == 0x0102 then consume c s else s)

/-! ### Crossing (R347) -/

/-- CROSSING (R347): both flags have stayed set for XUS microseconds, as XUS stood when the timer started from 0. -/
def execCrossing (c : Fin 4) (s : State) : Res :=
  let full := s.bit (DB.BB.BITS c) 0 && s.bit (DB.HB.BITS c) 1
  .next (if full && (s.chan c).crossUs.getD 0 != 0 && !(s.chan c).crossed then
      (ringBlock c (2 ^ 31) (ringHost c (2 ^ 31) (s.raise (MB.STAT.CROSS c)))).modChan c (fun x => { x with crossed := true })
    else s)

/-! ### Replies and events (R352, R353, R360) -/

/-- Bits of several one-bit fields, lowest first. -/
def flagBits (s : State) (l : List Fld) : Nat := (l.zipIdx.map (fun x => s.get x.1 * 2 ^ x.2)).sum

/-- An event group is enabled on some channel. -/
def groupOn (s : State) (g : Nat) : Bool := !(eventChans s g).isEmpty

/-- Event bits that stand are reported and cleared. -/
def reportBits (code detail : Nat) (fs : List Fld) (s : State) : State :=
  if flagBits s fs = 0 then s else fs.foldl (fun t f => t.lower f) (notifyHost code detail s)

/-- The event bits of a time domain, of the twin controller and of the memories. -/
def timeFlags (d : Nat) : List Fld := [TU.D.STAT.UNSYNC d, TU.D.STAT.STEPPED d, TU.D.STAT.RATECLAMP d, TU.D.STAT.SETERR d]
def twinFlags : List Fld :=
  [TWN.EVT.PAIRED, TWN.EVT.TAKEOVER, TWN.EVT.SBYLOST, TWN.EVT.FENCED, TWN.EVT.HANDOVER, TWN.EVT.HOFAIL, TWN.EVT.RESYNCFAIL,
   TWN.EVT.DELTAOVF, TWN.EVT.SEEKTO, TWN.EVT.PAIRREF, TWN.EVT.PEERHOLD, TWN.EVT.PUBIGN]
def memFlags : List Fld := [MEM.EVT.UE, MEM.EVT.OWNERR, MEM.EVT.OWNBUSY]
def testFlags : List Fld := [MEMT.EVT.DONE, MEMT.EVT.BANKFAIL, MEMT.EVT.SPFAIL, MEMT.EVT.CMDIGN]

/-- FLT.LAST as a word (R285). -/
def faultLast (s : State) : Nat := s.get FLT.LAST.ENG + 2 ^ 4 * s.get FLT.LAST.WDOG + 2 ^ 8 * s.get FLT.LAST.VEC

/-- The firmware reports the events of every group that some channel has enabled (R360). -/
def gatherEvents (s : State) : State :=
  let s := if groupOn s 1 then reportBits 0x0181 (faultLast s) [FLT.STAT.ENG] s else s
  let s := if groupOn s 5 then
    (List.range 4).foldl (fun t d => reportBits 0x0581 (d + 2 ^ 8 * flagBits t (timeFlags d)) (timeFlags d) t) s else s
  let s := if groupOn s 6 then
    (List.range 4).foldl (fun t r => reportBits 0x0681 (r + 2 ^ 16 * t.get (TIL.RING.EVT.EVT r)) [TIL.RING.EVT.EVT r] t) s else s
  let s := if groupOn s 7 then reportBits 0x0781 (flagBits s twinFlags) twinFlags s else s
  if groupOn s 8 then
    reportBits 0x0881 (flagBits s memFlags + 2 ^ 8 * flagBits s testFlags) (memFlags ++ testFlags) s
  else s

/-- A packet is written to B2H, and MSG rings (R342, R346). -/
def postPacket (c : Fin 4) (b : List Byte) (s : State) : State :=
  ringHost c 2 { s with mem := memSetAll s.mem (mailBase c + 0x400) b }

/-- The reply of RESET, or of a MODE that takes MGMT down, has been posted (R354). -/
def noteReset (c : Fin 4) (r : Reply) (s : State) : State :=
  match s.resetDue with
  | some (k, kind, target, _, tag) =>
    let op := fieldLE r.bytes 0 2
    if k = c.val ∧ r.tag = tag ∧ fieldLE r.bytes 8 2 ≤ 1 ∧ (op = 0x0104 ∨ op = 0x0901) then
      { s with resetDue := some (k, kind, target, true, tag) }
    else s
  | none => s

/-- Unsent events at the head of a queue whose group bit is clear are not sent (R353). -/
def skipMuted (mask : BitVec 16) : List Post → List Post
  | .event code detail :: t => if mask.getLsbD (code / 256) then .event code detail :: t else skipMuted mask t
  | l => l

/-- REPLY_POST (R352, R353, R360): the oldest reply or event; an event is preceded by LOST where events were dropped and the
group bit of LOST is set. -/
def execReplyPost (c : Fin 4) (s : State) : Res :=
  if !serviceRuns s c then .next s
  else
    let s := gatherEvents s
    if s.bit (DB.HB.BITS c) 1 then .next s
    else
      let x := s.chan c
      match skipMuted x.mask x.due with
      | .reply r :: t => .next (postPacket c r.bytes (noteReset c r (s.modChan c (fun y => { y with due := t }))))
      | .event code detail :: t =>
        if x.lost = 0 ∨ x.mask.getLsbD 1 = false then
          .next (postPacket c (packet code 0 0xC000 0 detail []) (s.modChan c (fun y => { y with due := t })))
        else .next (postPacket c (packet 0x0182 0 0xC000 0 x.lost []) (s.modChan c (fun y => { y with due := .event code detail :: t, lost := 0 })))
      | [] => .next (s.modChan c (fun y => { y with due := [] }))

/-! ### Counters (R355, R356) -/

/-- The accumulator of a counter. -/
def accKey (unit i k : Nat) : Nat := unit * 65536 + i * 256 + k

def accum (s : State) (key : Nat) : Nat := (lookup key s.accum).getD 0

/-- The firmware reads a counter, which clears it, and adds the value to its accumulator. -/
def pollCounter (key : Nat) (f : Fld) (s : State) : State :=
  if regUp s f.addr then
    { s with accum := putAt 0 key ((accum s key + s.get f) % 2 ^ 64) s.accum }.lower f
  else s

/-- The counters of one selection are read. -/
def pollUnit (unit i : Nat) (s : State) : State :=
  (((counters unit i).getD []).zipIdx).foldl (fun t x => pollCounter (accKey unit i x.2) x.1 t) s

/-- The selections that R356 lists. -/
def counterUnits : List (Nat × Nat) :=
  ([(0, 8), (1, 4), (2, 16), (3, 4), (4, 1), (5, 1), (6, 1), (7, 4), (8, 1), (9, 64)] : List (Nat × Nat)).flatMap (fun x =>
    (List.range x.2).map (fun i => (x.1, i)))

/-- COUNTER_POLL (R355). -/
def execCounterPoll (s : State) : Res :=
  .next (if (List.finRange 4).any (serviceRuns s) then counterUnits.foldl (fun t x => pollUnit x.1 x.2 t) s else s)

/-- The values that PORTSTAT and COUNTERS report: the first `k` accumulators of a selection, saturated. -/
def accBytes (s : State) (unit i k : Nat) : List Byte :=
  ((List.range k).map (fun j => bytesLE 4 (min (accum s (accKey unit i j)) (2 ^ 32 - 1)))).flatten

end Sys2Proof.Machine
end

