-- ==== Sys2Proof/Machine/HostRows.lean ====
section
/-! DEFINITION. The commands that the firmware executes for the host, groups 0x01 to 0x04 (R352-R359). Each row names the
channel and the tag of an outstanding command, and takes it as far as it can go at that moment. -/

namespace Sys2Proof.Machine

open Reg

/-- How far a command came: it ends with STATUS, DETAIL and data, or it waits for the hardware. -/
inductive CmdOut where
  | done (status detail : Nat) (data : List Byte) (s : State)
  | wait (s : State)

/-- A parameter. -/
def HostCmd.par (m : HostCmd) (o n : Nat) : Nat := fieldLE m.params o n

/-- Execution of an outstanding command with an opcode (R352): `go` learns whether the command only starts now. -/
def hostRow (op : BitVec 16) (c : Fin 4) (tag : BitVec 16) (go : Bool → HostCmd → State → CmdOut) (s : State) : State :=
  if !serviceRuns s c then s
  else
    match (s.chan c).cmds.find? (fun m => m.tag == tag && m.op == op) with
    | none => s
    | some m =>
      if !m.started && !mayStart s c m then s
      else
        match go (!m.started) m (setCmd c tag (fun x => { x with started := true }) s) with
        | .done st d data t => endCmd c m st d data t
        | .wait t => t

/-- A command that ends as it starts. -/
def hostOnce (op : BitVec 16) (c : Fin 4) (tag : BitVec 16) (go : HostCmd → State → CmdOut) (s : State) : Res :=
  .next (hostRow op c tag (fun _ => go) s)

def okay (s : State) : CmdOut := .done 0 0 [] s
def okData (d : List Byte) (s : State) : CmdOut := .done 0 0 d s
def stateIs (v : Nat) (s : State) : CmdOut := .done 0x0105 v [] s
def busyOut (s : State) : CmdOut := .done 0x0104 0 [] s
def powerOut (s : State) : CmdOut := .done 0x0107 0 [] s

/-- HWFAIL where the manual names no result code: DETAIL is a free value (R351, log entry 2). -/
def hwFail (s : State) : CmdOut := .done 0x0200 (s.freeVal 32).toNat [] s.took

/-- The command waits, unless its limit has passed (R351). -/
def waitOr (late : Bool) (s : State) : CmdOut := if late then .done 0x0201 0 [] s else .wait s

/-- The command needs a domain (R351). -/
def needs (d : Nat) (s : State) (k : State → CmdOut) : CmdOut := if s.up d then k s else powerOut s

/-- A register written, or read without a side effect, by the firmware. -/
def fwWrite (a v : Nat) (s : State) : State := (regWrite 0 false a v s).2
def fwRead (s : State) (a : Nat) : Nat := (readReg true a s).1 % 2 ^ 32

/-- A field of a register replaced in a value. -/
def withField (f : Fld) (v w : Nat) : Nat := w - (w / 2 ^ f.lo % 2 ^ f.w) * 2 ^ f.lo + v % 2 ^ f.w * 2 ^ f.lo

/-- The RW fields of a register, as a read and write back keeps them. -/
def rwValue (s : State) (a : Nat) : Nat := fieldsValue s ((fieldsAt a).filter (fun f => f.acc == .rw))

/-! ### Group 0x01 (R353, R354, R359) -/

/-- HOST_NOP. -/
def execHostNop (c : Fin 4) (tag : BitVec 16) (s : State) : Res := hostOnce 0x0101 c tag (fun _ => okay) s

/-- INFO. -/
def execInfo (c : Fin 4) (tag : BitVec 16) (s : State) : Res :=
  hostOnce 0x0103 c tag (fun _ s =>
    okData (bytesLE 2 (s.get GLB.ID.PART) ++ bytesLE 1 (s.get GLB.ID.REL) ++ bytesLE 1 (s.get GLB.BOOT.STAT.SLOT) ++
      bytesLE 4 (s.get GLB.BOOT.IMGVER.VER) ++ bytesLE 4 (s.get TIL.FID_L.FID) ++ bytesLE 4 (s.get TIL.FID_H.FID)) s) s

/-- The domain of RESET's target. -/
def resetDom (kind target : Nat) : Nat := match kind with | 0 => 0 | 1 => target + 1 | _ => engDom target

/-- RESET: the reply comes first. -/
def execReset (c : Fin 4) (tag : BitVec 16) (s : State) : Res :=
  hostOnce 0x0104 c tag (fun m s =>
    needs (resetDom (m.par 0 1) (m.par 1 1)) s (fun s =>
      if s.resetDue.isSome then busyOut s
      else okay { s with resetDue := some (c.val, m.par 0 1, m.par 1 1, m.noReply, m.tag) })) s

/-- A power request by the firmware (R396). -/
def fwPower (d m : Nat) (s : State) : State := powerRequest true d m ((s.put PWR.REQ.DOM d).put PWR.REQ.MODE m)

/-- RESET_TAKE_EFFECT: MSG has been cleared, or 1 ms has passed since the reply was posted. A cluster's ports are disabled
first; CLUSTER_RESET completes its reset (R392). -/
def execResetTakeEffect (s : State) : Res :=
  match s.resetDue with
  | some (_, kind, target, true, _) =>
    let s := { s with resetDue := none }
    .next (match kind with
      | 0 => blockReset 2 s
      | 1 => (domPorts (target + 1)).foldl (fun t (p : Port) => disablePort p t) s
      | 2 => resetEngine (engOf target) s
      | _ => fwPower 0 target s)
  | _ => .next s

/-- The semaphores that an engine holds. -/
def heldBy (s : State) (e : Nat) : Nat :=
  ((List.range 64).map (fun k => if s.on (SEM.HOLD.HELD k) && s.get (SEM.HOLD.REQ k) == e then 2 ^ k else 0)).sum

/-- ENGSTART (R359); an engine on loan to the memory tester starts when the loan ends (R312). -/
def execEngstart (c : Fin 4) (tag : BitVec 16) (s : State) : Res :=
  hostOnce 0x0105 c tag (fun m s =>
    let e := m.par 0 1
    needs (engDom e) s (fun s =>
      if s.bit FLT.RUN.ENG e then stateIs 1 s
      else
        let freed := heldBy s e
        let s := (semForceAll freed s).lowerBit FLT.STAT.ENG e
        let entry : Word := BitVec.ofNat 48 (m.par 2 6)
        okData (bytesLE 8 freed)
          (if onLoan s (engOf e) then s.modTester (fun t => { t with restart := some entry }) else startEngine (engOf e) entry s))) s

/-- ENGSTOP. -/
def execEngstop (c : Fin 4) (tag : BitVec 16) (s : State) : Res :=
  hostOnce 0x0106 c tag (fun m s =>
    let e := m.par 0 1
    needs (engDom e) s (fun s => if e = servingEngine s c then stateIs 1 s else okay (resetEngine (engOf e) s))) s

/-- EVENTS (R353). -/
def execEvents (c : Fin 4) (tag : BitVec 16) (s : State) : Res :=
  hostOnce 0x0107 c tag (fun m s => okay (s.modChan c (fun x => { x with mask := BitVec.ofNat 16 (m.par 0 2) }))) s

/-! ### Group 0x02: images (R354, R377, R380) -/

/-- IMGINFO: `flash` is what the slot holds. What makes VALID is not given: a free value (log entry 2). -/
def execImginfo (c : Fin 4) (tag : BitVec 16) (flash : List Byte) (s : State) : Res :=
  hostOnce 0x0201 c tag (fun _ s =>
    okData (bytesLE 4 ((s.freeVal 1).toNat) ++ bytesLE 4 (imageVersion flash) ++ bytesLE 4 (imageRollback flash)) s.took) s

/-- The bytes that the firmware reads from memory. -/
def fwSource (s : State) (a n : Nat) (ext : List Byte) (err : Bool) : List Byte × Bool :=
  if n = 0 then ([], false)
  else if isExternal a then ((ext ++ List.replicate (n - ext.length) 0).take n, err)
  else onBlockRun s (a - blockSpace) n

/-- IMGWRITE: it starts, it is past its commit point with the first erase, it ends. `ext` is what external memory answers, up
to an error response where `err` is set; `fail`: the flash reports failure. -/
def execImgwrite (c : Fin 4) (tag : BitVec 16) (ext : List Byte) (err fail late : Bool) (s : State) : Res :=
  .next (hostRow 0x0202 c tag (fun first m s =>
    let src := m.par 12 8
    let n := m.par 8 4
    let d := fwSource s src n ext err
    if first then .wait s
    else if late then waitOr true s
    else if !m.committed then
      if d.2 then hwFail (sourceRead 10 (servingEngine s c) src n d s).2 else .wait (setCmd c tag (fun x => { x with committed := true }) s)
    else
      match sourceRead 10 (servingEngine s c) src n d s with
      | (false, s) => .wait s
      | (true, s) => if d.2 || fail then hwFail s else okay (s.emit (.flash (0x400000 * m.par 0 1 + m.par 4 4) d.1))) s)

/-- IMGVERIFY (R377, R384): an image of more than 64 KiB waits for the permit of the cryptography unit. -/
def execImgverify (c : Fin 4) (tag : BitVec 16) (flash : List Byte) (keyHash : BitVec 256) (mono : BitVec 32) (late : Bool)
    (s : State) : Res :=
  .next (hostRow 0x0203 c tag (fun _ m s =>
    let n := imageLength flash
    let asked := decide (1 < m.params.length)
    if late then .done 0x0201 0 [] (releaseVerify m s)
    else if lengthGood n && decide (65536 < n) && !asked then
      if s.hasRequest cryPermitReq then .wait s
      else .wait (askPermit cryPermitReq 0 (setCmd c tag (fun x => { x with params := x.params ++ [1] }) s))
    else if asked && !s.holds cryPermitReq then .wait s
    else
      let r := match checkImage flash keyHash mono.toNat with
        | .ok _ => 0
        | .error r => r
      okData (bytesLE 4 r) (releaseVerify m s)) s)

/-- IMGSELECT writes PREF and CLRFAIL (R380). -/
def execImgselect (c : Fin 4) (tag : BitVec 16) (s : State) : Res :=
  hostOnce 0x0204 c tag (fun m s => okay (clearFail (s.put GLB.BOOT.CTRL.PREF (m.par 0 1)))) s

/-! ### Group 0x03: ports (R354, R355) -/

def HostCmd.port (m : HostCmd) : Port := portOf (m.par 0 1)

/-- A command that names a port needs its cluster. -/
def onPort (m : HostCmd) (s : State) (k : Port → State → CmdOut) : CmdOut :=
  needs (m.par 0 1 / 2 + 1) s (k m.port)

/-- PORTEN (R86, R87). -/
def execPorten (c : Fin 4) (tag : BitVec 16) (late : Bool) (s : State) : Res :=
  .next (hostRow 0x0301 c tag (fun first m s =>
    onPort m s (fun p s =>
      let s := if first then fwWrite (pxBase p) (withField (PX.CTRL.EN p) (m.par 1 1) (rwValue s (pxBase p))) s else s
      if s.get (PX.STAT.ENACT p) = m.par 1 1 then okay s else waitOr late s)) s)

/-- PORTCFG. -/
def execPortcfg (c : Fin 4) (tag : BitVec 16) (s : State) : Res :=
  hostOnce 0x0302 c tag (fun m s =>
    onPort m s (fun p s =>
      if s.on (PX.STAT.ENACT p) then stateIs 1 s
      else
        let s := fwWrite (wsqBase p + 0x20) (m.par 1 1) s
        let w := rwValue s (wsqBase p)
        let s := fwWrite (wsqBase p) (withField (WSQ.CTRL.EGR p) (m.par 2 1) (withField (WSQ.CTRL.SAF p) (m.par 3 1) w)) s
        okay (fwWrite (pxBase p) (withField (PX.CTRL.OWNER p) (m.par 4 1) (rwValue s (pxBase p))) s))) s

/-- PORTSTAT (R355). -/
def execPortstat (c : Fin 4) (tag : BitVec 16) (s : State) : Res :=
  hostOnce 0x0303 c tag (fun m s =>
    onPort m s (fun _ s =>
      let s := pollUnit 0 (m.par 0 1) s
      okData (accBytes s 0 (m.par 0 1) 6) s)) s

/-! ### Group 0x04: control stores and wire programs (R44, R48, R354) -/

/-- The end of a control-store load. -/
def csloadEnd (p : Port) (late : Bool) (s : State) : CmdOut :=
  if s.on (WSQ.CSLD.STAT.BUSY p) then waitOr late s
  else
    let r := s.get (WSQ.CSLD.STAT.RESULT p)
    if r = 0 then okay s else .done 0x0200 r [] s

/-- CSLOAD (R48). -/
def execCsload (c : Fin 4) (tag : BitVec 16) (late : Bool) (s : State) : Res :=
  .next (hostRow 0x0401 c tag (fun first m s =>
    onPort m s (fun p s =>
      if first then
        if s.on (WSQ.CSLD.STAT.BUSY p) then busyOut s
        else csloadEnd p false (startLoad p ((s.put (WSQ.CSLD.ADDR_LO.ADDR p) (m.par 4 4)).put (WSQ.CSLD.ADDR_HI.ADDR p) (m.par 8 1)))
      else csloadEnd p late s)) s)

/-- WPWRITE (R44): the wire ops go through WPM.IDX and WPM.DATA. -/
def execWpwrite (c : Fin 4) (tag : BitVec 16) (s : State) : Res :=
  hostOnce 0x0402 c tag (fun m s =>
    onPort m s (fun p s =>
      if s.get (WSQ.STAT.WPBANKACT p) = m.par 1 1 then stateIs (m.par 1 1) s
      else
        let s := fwWrite (wsqBase p + 0x34) (m.par 2 2 + 1024 * m.par 1 1) s
        okay ((List.range (m.par 4 2)).foldl (fun t i => fwWrite (wsqBase p + 0x38) (m.par (8 + 4 * i) 4) t) s))) s

/-- WPSWITCH (R44). -/
def execWpswitch (c : Fin 4) (tag : BitVec 16) (late : Bool) (s : State) : Res :=
  .next (hostRow 0x0403 c tag (fun first m s =>
    onPort m s (fun p s =>
      let s := if first then fwWrite (wsqBase p) (withField (WSQ.CTRL.WPBANK p) (m.par 1 1) (rwValue s (wsqBase p))) s else s
      if s.get (WSQ.STAT.WPBANKACT p) = m.par 1 1 then okay s else waitOr late s)) s)

/-- WPREAD (R44). -/
def execWpread (c : Fin 4) (tag : BitVec 16) (s : State) : Res :=
  hostOnce 0x0404 c tag (fun m s =>
    onPort m s (fun p s =>
      let s := fwWrite (wsqBase p + 0x34) (m.par 2 2 + 1024 * m.par 1 1) s
      let r := (List.range (m.par 4 2)).foldl (fun (x : List Byte × State) _ =>
        let v := readReg false (wsqBase p + 0x38) x.2
        (x.1 ++ bytesLE 4 v.1, v.2)) ([], s)
      okData r.1 r.2)) s

end Sys2Proof.Machine
end

