-- ==== Sys2Proof/Machine/HostRows2.lean ====
section
/-! DEFINITION. The commands that the firmware executes for the host, groups 0x05 to 0x0A (R352-R357, R396, R405). -/

namespace Sys2Proof.Machine

open Reg

/-! ### Group 0x05: time (R93, R94, R354, R357) -/

/-- The domain that a command names. -/
def HostCmd.dom (m : HostCmd) : Fin 4 := Fin.ofNat 4 (m.par 0 1)

/-- TIMEGET: one consistent reading (R97). -/
def execTimeget (c : Fin 4) (tag : BitVec 16) (s : State) : Res :=
  hostOnce 0x0501 c tag (fun m s =>
    let t := s.dom m.dom
    okData (bytesLE 6 t.hi.toNat ++ bytesLE 6 t.lo.toNat ++ bytesLE 1 (flagBits s (timeFlags m.dom))) s) s

/-- TIMESET (R94). -/
def execTimeset (c : Fin 4) (tag : BitVec 16) (s : State) : Res :=
  hostOnce 0x0502 c tag (fun m s =>
    let d := m.dom
    let s := s.put48 (TU.D.SETS_L.SEC d) (TU.D.SETS_H.SEC d) (BitVec.ofNat 48 (m.par 2 6))
    let s := s.put48 (TU.D.SETL_L.LO d) (TU.D.SETL_H.LO d) (BitVec.ofNat 48 (m.par 8 6))
    let bad := (stagedTime s d).isNone
    let s := timeCmd d true false s
    if bad then hwFail s else okay s) s

/-- TIMEADJ (R93, R94). -/
def execTimeadj (c : Fin 4) (tag : BitVec 16) (s : State) : Res :=
  hostOnce 0x0503 c tag (fun m s =>
    let d := m.dom
    let s := setAdj d (BitVec.ofNat 48 (m.par 2 6)) s
    if m.par 8 6 = 0 then okay s
    else okay (timeCmd d false true (s.put48 (TU.D.STEP_L.STEP d) (TU.D.STEP_H.STEP d) (BitVec.ofNat 48 (m.par 8 6))))) s

/-- PTPCFG (R357): the firmware that runs on each port of the mask. -/
def execPtpcfg (c : Fin 4) (tag : BitVec 16) (s : State) : Res :=
  hostOnce 0x0504 c tag (fun m s =>
    let ports := (List.range 8).filter (fun p => (m.par 2 1).testBit p)
    okay { s with ptp := ports.foldl (fun l p => putAt 0 (m.par 0 1 * 8 + p) (m.par 1 1) l) s.ptp }) s

/-! ### Group 0x06: rings (R139, R144-R147, R354) -/

/-- RINGCTL: OP 0 off, 1 on, 2 RELISTEN, 3 RENUM, 4 CHECK. -/
def execRingctl (c : Fin 4) (tag : BitVec 16) (s : State) : Res :=
  hostOnce 0x0601 c tag (fun m s =>
    let r := m.par 0 1
    needs (r + 1) s (fun s =>
      let a := tilBase + 0x100 + 0x100 * r
      let w := rwValue s a
      okay (fwWrite a (match m.par 1 1 with
        | 0 => withField (TIL.RING.CTRL.EN r) 0 w
        | 1 => withField (TIL.RING.CTRL.EN r) 1 w
        | 2 => w + 16
        | 3 => w + 4
        | _ => w + 8) s))) s

/-- RINGSTAT. -/
def execRingstat (c : Fin 4) (tag : BitVec 16) (s : State) : Res :=
  hostOnce 0x0602 c tag (fun m s =>
    let r := m.par 0 1
    okData (bytesLE 4 (fwRead s (tilBase + 0x110 + 0x100 * r)) ++ bytesLE 2 (s.get (TIL.RING.NODES.N r)) ++
      bytesLE 2 (s.get (TIL.RING.EPOCH.EPOCH r)) ++ bytesLE 4 (s.get (TIL.RING.OFFSET.PS r)) ++
      bytesLE 4 (s.get (TIL.RING.LOOPNS.NS r))) s) s

/-- ROUTESET. -/
def execRouteset (c : Fin 4) (tag : BitVec 16) (s : State) : Res :=
  hostOnce 0x0603 c tag (fun m s =>
    okay ((List.range (m.par 2 2)).foldl (fun t i => fwWrite (tilBase + 0x4000 + 4 * (m.par 0 2 + i)) (m.par (4 + 4 * i) 4) t) s)) s

/-- SLOTREQ: the requested slot length, in the private areas of the ring's ports (R146). -/
def execSlotreq (c : Fin 4) (tag : BitVec 16) (s : State) : Res :=
  hostOnce 0x0604 c tag (fun m s =>
    needs (m.par 0 1 + 1) s (fun s => okay (putPriv (Fin.ofNat 4 (m.par 0 1)) 0x418 2 (m.par 2 2) s))) s

/-! ### Group 0x07: the twin (R166, R167, R186, R187, R354) -/

/-- TWINSTAT. -/
def execTwinstat (c : Fin 4) (tag : BitVec 16) (s : State) : Res :=
  hostOnce 0x0701 c tag (fun _ s =>
    okData (bytesLE 4 (fwRead s (tilBase + 0x8004)) ++ bytesLE 4 (s.get TWN.EPOCH.EPOCH) ++ bytesLE 4 (s.get TWN.PEERFID_L.FID) ++
      bytesLE 4 (s.get TWN.PEERFID_H.FID) ++ bytesLE 4 (s.get TWN.RSYNCUS.US)) s) s

/-- HANDOVER (R186): it ends at the cut, or with HWFAIL. -/
def execHandover (c : Fin 4) (tag : BitVec 16) (late : Bool) (s : State) : Res :=
  .next (hostRow 0x0702 c tag (fun first _ s =>
    if first then
      let s := orderHandover s
      if s.twin.ordered then .wait s else hwFail s
    else if s.twin.ordered || s.twin.handover.isSome then waitOr late s
    else if twinState s = 6 then okay s
    else hwFail s) s)

/-- RESYNC (R187): it ends at PAIRED. -/
def execResync (c : Fin 4) (tag : BitVec 16) (late : Bool) (s : State) : Res :=
  .next (hostRow 0x0703 c tag (fun first _ s =>
    if first then if twinState s = 4 then .wait (forceResync s) else stateIs (twinState s) s
    else if twinState s = 2 then waitOr late s
    else if twinState s = 4 then okay s
    else hwFail s) s)

/-- TWINLEVEL (R166, R167). -/
def execTwinlevel (c : Fin 4) (tag : BitVec 16) (s : State) : Res :=
  hostOnce 0x0704 c tag (fun m s =>
    let w := rwValue s (tilBase + 0x8000)
    okay (fwWrite (tilBase + 0x8000) (withField TWN.CTRL.LEVEL (m.par 0 1) (withField TWN.CTRL.RINGS (m.par 1 1) w)) s)) s

/-! ### Group 0x08: memories (R292, R297, R309, R354) -/

/-- MTPOLICY. -/
def execMtpolicy (c : Fin 4) (tag : BitVec 16) (s : State) : Res :=
  hostOnce 0x0801 c tag (fun m s => okay (fwWrite (mgtBase + 0xC100) (m.par 0 1 + 2 ^ 8 * m.par 1 1) s)) s

/-- MTSTATUS. -/
def execMtstatus (c : Fin 4) (tag : BitVec 16) (s : State) : Res :=
  hostOnce 0x0802 c tag (fun _ s =>
    okData (([0xC108, 0xC10C, 0xC120, 0xC128] : List Nat).flatMap (fun o => bytesLE 4 (fwRead s (mgtBase + o)))) s) s

/-- SPOWNER (R292): a write that the hardware refuses with OWNBUSY ends with BUSY. -/
def execSpowner (c : Fin 4) (tag : BitVec 16) (s : State) : Res :=
  hostOnce 0x0803 c tag (fun m s =>
    let i := engOf (m.par 0 1)
    let busy := s.get (SP.OWNER.OWNER i) == 3 || s.on (SP.OWNER.PEND i)
    let s := ownerWrite i (m.par 1 1) s
    if busy then busyOut s else okay s) s

/-- SEMFREE (R297). -/
def execSemfree (c : Fin 4) (tag : BitVec 16) (s : State) : Res :=
  hostOnce 0x0804 c tag (fun m s => okay (semForceAll (m.par 0 8) s)) s

/-! ### Group 0x09: power (R396, R402-R405) -/

/-- The domains of a MODE in the order of R396: MGMT rises first and falls last. -/
def modeOrder (doms mode : Nat) : List Nat :=
  let l := if mode ≤ 1 then [0, 1, 2, 3, 4] else [1, 2, 3, 4, 0]
  l.filter (fun d => doms.testBit d)

/-- MODE goes on: the parameters hold behind DOMAINS and MODE the domains still to change, 16 added to one whose request is
in progress. MGMT powers down once the reply has been posted (R354). -/
def modeRun (c : Fin 4) (m : HostCmd) (late : Bool) : Nat → List Nat → State → CmdOut
  | 0, _, s => okay s
  | _ + 1, [], s => okay s
  | k + 1, d :: t, s =>
    let mode := m.par 1 1
    let keep (l : List Nat) (s : State) : State :=
      setCmd c m.tag (fun x => { x with params := x.params.take 2 ++ l.map (fun d => BitVec.ofNat 8 d) }) s
    if 16 ≤ d then
      let s := powerProceed s
      if s.on PWR.STAT.BUSY then waitOr late s
      else if s.mode (d - 16) = mode then modeRun c m late k t s
      else .done 0x0201 0 [] s
    else if refusesMode s d mode then powerOut (fwPower d mode s)
    else if d = 0 ∧ 2 ≤ mode then
      if s.resetDue.isSome then busyOut s else okay { s with resetDue := some (c.val, 3, mode, m.noReply, m.tag) }
    else
      let s := fwPower d mode s
      if s.on PWR.STAT.BUSY then .wait (keep ((d + 16) :: t) s) else modeRun c m late k t s

/-- MODE (R396). -/
def execMode (c : Fin 4) (tag : BitVec 16) (late : Bool) (s : State) : Res :=
  .next (hostRow 0x0901 c tag (fun first m s =>
    if first then modeRun c m late 16 (modeOrder (m.par 0 1) (m.par 1 1)) s
    else modeRun c m late 16 ((m.params.drop 2).map (·.toNat)) s) s)

/-- A grist setting is written (R405). -/
def gristWrite (k v : Nat) (s : State) : State :=
  match k with
  | 0 => checkCalibration (s.put TU.CTRL.FINE v)
  | 1 => (List.range 8).foldl (fun t p => t.put (WSQ.CTRL.SAF p) (v / 2 ^ p % 2)) s
  | 2 => fwWrite (tilBase + 0x8000) (withField TWN.CTRL.LEVEL v (rwValue s (tilBase + 0x8000))) s
  | 3 => s.put GRIST.PREC.PREC v
  | 4 => fwWrite (mgtBase + 0xC100) v s
  | _ => s.put PWR.CAP.RED (1500 - v)

/-- A grist setting as it reads (R405). -/
def gristRead (k : Nat) (s : State) : Nat :=
  match k with
  | 0 => s.get TU.CTRL.FINE
  | 1 => flagBits s ((List.range 8).map (fun p => WSQ.CTRL.SAF p))
  | 2 => s.get TWN.CTRL.LEVEL
  | 3 => s.get GRIST.PREC.PREC
  | 4 => s.get MEMT.CTRL.POLICY + 2 ^ 8 * s.get MEMT.CTRL.GAPMS
  | _ => 1500 - min (s.get PWR.CAP.RED) 500

/-- FORWARD reaches a register of every cluster. -/
def gristUp (k : Nat) (s : State) : Bool := k != 1 || [1, 2, 3, 4].all s.up

/-- GRIST. -/
def execGrist (c : Fin 4) (tag : BitVec 16) (s : State) : Res :=
  hostOnce 0x0902 c tag (fun m s =>
    if gristUp (m.par 0 1) s then okay (gristWrite (m.par 0 1) (m.par 4 4) s) else powerOut s) s

/-- GRISTGET. -/
def execGristget (c : Fin 4) (tag : BitVec 16) (s : State) : Res :=
  hostOnce 0x0903 c tag (fun m s =>
    if gristUp (m.par 0 1) s then okData (bytesLE 4 (gristRead (m.par 0 1) s)) s else powerOut s) s

/-- PERMITSTAT. -/
def execPermitstat (c : Fin 4) (tag : BitVec 16) (s : State) : Res :=
  hostOnce 0x0904 c tag (fun _ s =>
    okData (bytesLE 4 (s.get PERMIT.BUDGET.MW) ++ bytesLE 4 (grantedMw s) ++ bytesLE 4 s.permit.queue.length) s) s

/-! ### Group 0x0A (R355, R356) -/

/-- The domain of the counters that COUNTERS selects. -/
def counterDom (unit i : Nat) : Nat :=
  match unit with
  | 0 => i / 2 + 1
  | 1 => i + 1
  | 2 => i / 4 + 1
  | _ => 0

/-- The accumulators of a selection are set to 0. -/
def clearAcc (unit i k : Nat) (s : State) : State :=
  { s with accum := (List.range k).foldl (fun l j => eraseAt (accKey unit i j) l) s.accum }

/-- COUNTERS (R356). -/
def execCounters (c : Fin 4) (tag : BitVec 16) (s : State) : Res :=
  hostOnce 0x0A01 c tag (fun m s =>
    let u := m.par 0 1
    let i := m.par 1 1
    needs (counterDom u i) s (fun s =>
      let k := ((counters u i).getD []).length
      let s := pollUnit u i s
      okData (accBytes s u i k) (if m.par 2 1 = 1 then clearAcc u i k s else s))) s

/-- FAULTLOG. -/
def execFaultlog (c : Fin 4) (tag : BitVec 16) (s : State) : Res :=
  hostOnce 0x0A02 c tag (fun _ s =>
    okData (bytesLE 4 (s.get FLT.STAT.ENG) ++ bytesLE 4 (faultLast s) ++ bytesLE 4 (s.get FLT.EPC_L.ADDR) ++
      bytesLE 4 (s.get FLT.EPC_H.ADDR)) s) s

/-- ECHO. -/
def execEcho (c : Fin 4) (tag : BitVec 16) (s : State) : Res := hostOnce 0x0A03 c tag (fun m => okData m.params) s

end Sys2Proof.Machine
end

