-- ==== Sys2Proof/Machine/TillerOps.lean ====
section
/-! DEFINITION. The Tiller wire ops and TWCHK (R131, R133, R136-R138, R142, R145, R147-R149, R152, R153, R157, R169-R174). An
op that works through more of a frame than its window holds goes as far as the bytes that have arrived allow, and its command
is given again: Seq.part says which part of the op is under way, Seq.step how far it has come. -/

namespace Sys2Proof.Machine

open Reg

/-! ### Shared by the ops -/

/-- The part of the op that is under way. -/
def opPart (s : State) (p : Port) : Nat := (s.port p).seq.part

/-- The next part of the op starts, at a frame offset. -/
def toPart (p : Port) (k o : Nat) (s : State) : State := s.modSeq p (fun q => { q with part := k, step := o })

/-- What an op does once `n` bytes of the frame stand at an offset (R33). -/
def withBytes (p : Port) (s : State) (f : Frame) (o n : Nat) (g : Option State) : Option State :=
  match f.touch (s.tunDepth p) o n with
  | .ok => g
  | .stall => none
  | .violation => some (windowViolation s p f)

/-- The op moves the current grain on to an offset (R34). -/
def moveTo (p : Port) (f : Frame) (o : Nat) (s : State) : State := s.modFrame p f.fctr (fun g => { g with cur := skipTo g o })

/-- Work through frame bytes from Seq.step to `stop`, eight at a time: `act` gets the offset, the number of bytes and the
frame. Answers whether all is done. -/
def eachPiece (p : Port) (stop : Nat) (act : Nat → Nat → Frame → State → State) : Nat → State → Bool × State
  | 0, s => (true, s)
  | k + 1, s =>
    let o := (s.port p).seq.step
    if stop ≤ o then (true, s)
    else
      match s.running p with
      | none => (false, s)
      | some f =>
        let n := min 8 (stop - o)
        let g := { f with cur := skipTo f o }
        match g.touch (s.tunDepth p) o n with
        | .stall => (false, s)
        | .violation => (false, windowViolation s p f)
        | .ok =>
          let s := act o n g (moveTo p f o s)
          eachPiece p stop act k (s.modSeq p (fun q => { q with step := o + n }))

/-- The op lets the frame pass up to its end and waits for its FCS verdict: the frame once both are known, and what has
moved. -/
def passFrame (p : Port) (f : Frame) (s : State) : Option Frame × State :=
  if f.eof && f.fate.verdict.isSome then (some f, s) else (none, moveTo p f (f.bytes.length - 1) s)

/-- An event of a ring raised by its wire program, with its event code (R165). -/
def opEvent (p : Port) (f : Frame) (b : Nat) (s : State) : State :=
  postEvent (s.raiseBit (TIL.RING.EVT.EVT (cluOf p)) b) p (eventRecord s p f (0x41 + b) (wop s p))

/-- SBY as the program sampled it (R169). -/
def opSby (s : State) (p : Port) : Bool := (s.port p).seq.role.getLsbD 0

/-- The frame is not forwarded: it leaves nothing on the egress, or its tail is stomped once it has begun to leave (R54). -/
def sinkFrame (p : Port) (f : Frame) (s : State) : State :=
  if f.txStart then stompFrame s p f else s.modFrame p f.fctr (fun g => { g with fate := { g.fate with gone := true } })

/-- A copy goes to the owning engine, on queue 0. -/
def toEngine (p : Port) (f : Frame) (s : State) : State := queFrame p f 0 s

/-! ### Epochs (R135-R138) -/

/-- The epoch table's entry of a node field. -/
def epochEntry (s : State) (p : Port) (node : Nat) : Nat := s.load (privAddr s p (0x420 + 2 * (node % 512))) 2

/-- The unit is fenced once its own entry becomes newer than its epoch (R184). -/
def checkOwnEntry (p : Port) (s : State) : State :=
  if twinned s (p.val / 2) && numbered s p &&
      epochNewer (epochEntry s p (ownAddr s p)) (s.load (privAddr s p 0x3A4) 2) then fenceUnit s else s

/-- A header with a newer epoch for its node overwrites the entry (R136), in the tables of both ports of the ring: frames of the
reverse direction are judged by port B's (DEDUCED, log entry 70). -/
def noteEpoch (p : Port) (node epoch : Nat) (s : State) : State :=
  if epochNewer epoch (epochEntry s p node) then
    checkOwnEntry p (putPriv (cluOf p) (0x420 + 2 * (node % 512)) 2 epoch s)
  else s

/-! ### TLHDR (R131, R137, R142, R145, R147, R171) -/

/-- This node's segment: of its own address, or of the segment that an unnumbered node has last seen itself in (R137). -/
def ownSegment (s : State) (p : Port) : Nat := if numbered s p then ownAddr s p / 512 else (s.ring (cluOf p)).seg

/-- SRC lies in this node's segment (R137). -/
def srcInSegment (s : State) (p : Port) (f : Frame) : Bool :=
  let a := f.num 16 3 % 2 ^ 18
  a / 512 == ownSegment s p && a / 512 != 0 && a % 512 != 0

/-- The frame is stale (R137). -/
def staleFrame (s : State) (p : Port) (f : Frame) : Bool :=
  srcInSegment s p f && epochOlder (f.num 22 2) (epochEntry s p (f.num 16 3))

/-- DST names every node of this segment (R128, R131). -/
def forAll (s : State) (p : Port) (f : Frame) : Bool :=
  let d := f.num 19 3 % 2 ^ 18
  let seg := d / 512
  d % 512 == 511 && (seg == 0 || seg == 511 || seg == ownSegment s p)

/-- SRC is this node's own address (R131). -/
def fromSelf (s : State) (p : Port) (f : Frame) : Bool := numbered s p && decide (f.num 16 3 % 2 ^ 18 = ownAddr s p)

/-- A frame whose DST names this node alone goes no further: always with SBY = 0, and in the pair where SRC has node field 0
(R131, R171). -/
def endsHere (s : State) (p : Port) (f : Frame) : Bool := forNode s p f && (!(opSby s p) || f.num 16 3 % 512 == 0)

/-- A frame for this node, or for every node of its segment, is queued to the owning engine (R131). -/
def deliverFrame (p : Port) (f : Frame) (s : State) : State := if forNode s p f || forAll s p f then toEngine p f s else s

/-- The program ends, with its scratch registers free; the frame is forwarded. -/
def passOn (p : Port) (f : Frame) (s : State) : State := endProgram (scratch p s) p f

/-- The program ends and the frame is discarded (R54). -/
def dropTiller (p : Port) (f : Frame) (s : State) : State := discardFrame (scratch p s) p f

/-- A frame of another type than SHEAF, CLAIM, SCOUT and LAYOUT (R131, R171). A reserved TYPE raises UNKTYPE where it is
forwarded. -/
def otherFrame (p : Port) (f : Frame) (s : State) : State :=
  let ty := (f.byte 15).toNat
  if fromSelf s p f && !(opSby s p) then dropTiller p f s
  else
    let s := deliverFrame p f s
    if endsHere s p f then dropTiller p f s
    else passOn p f (if ty < 5 ∨ 7 < ty then opEvent p f 12 s else s)

/-- The claim has returned to its sender: the frame turns into the numbering scout, first up to offset 63 (R142, R145). Until a
layout is ordered the master's SHEAF has one slot, its own, of length 0: the manual names no layout before the first, and
wants 1 to 510 slots (R132; log entry 70). -/
def winClaim (p : Port) (f : Frame) (s : State) : State :=
  let r := cluOf p
  let a := s.get (TIL.RING.CFG.SEG r) * 512 + 1
  let s := opEvent p f 0 (setAddress r (some a) (setRingState r 3 s))
  let s := s.modRing r (fun x => { x with built := false, slots := [(a, 0)], change := none, scout := [] })
  let s := depositAt p f 15 ([3] ++ bytesBE 3 a ++ bytesBE 3 everyNode ++ bytesBE 2 (s.get (TIL.RING.EPOCH.EPOCH r))) s
  let s := depositAt p f 30 (bytesBE 2 (ringFlags s r 4) ++ (scoutBody s r p).take 32) s
  toPart p 1 64 s

/-- CLAIM (R142). -/
def claimFrame (p : Port) (f : Frame) (s : State) : Option State :=
  let r := cluOf p
  let st := ringState s r
  if opSby s p || st == 0 then some (passOn p f (deliverFrame p f s))
  else if st = 3 ∨ st = 4 ∨ st = 5 then some (dropTiller p f s)
  else withBytes p s f 32 32
    (let id := f.num 32 8
     if st = 1 || !(s.on (TIL.RING.CTRL.MCAP r)) then some (passOn p f (deliverFrame p f s))
     else if id < s.fid then some (passOn p f (deliverFrame p f (opEvent p f 1 (setRingState r 4 s))))
     else if s.fid < id then some (dropTiller p f s)
     else some (winClaim p f s))

/-- The winner's own entry goes into the frame that was its claim. -/
def claimEntry (p : Port) (f : Frame) (s : State) : Option State :=
  let g := { f with cur := skipTo f 64 }
  withBytes p s g 64 16 (some (passOn p f (depositAt p f 64 (scoutEntry s (cluOf p) p false) (moveTo p f 64 s))))

/-- SCOUT at a node (R145): the returned scout is sunk to the owning engine; any other is counted on, and a numbering scout
numbers the node. A MEMBER that a numbering scout counts above 510 gives its number up and is UNNUMBERED; a check scout counted above
510 gets no entry and raises nothing; a standby that forwards a scout leaves its epoch table as it is (DESIGN CHOICE, log entry
70). -/
def scoutFrame (p : Port) (f : Frame) (s : State) : Option State :=
  let r := cluOf p
  let st := ringState s r
  if opSby s p || st == 0 then some (passOn p f (deliverFrame p f s))
  else if st = 3 then
    if fromSelf s p f then some (toPart p 3 0 (sinkFrame p f (toEngine p f s))) else some (passOn p f (deliverFrame p f s))
  else withBytes p s f 32 4
    (let c := min 511 (f.num 32 2 + 1)
     let renum := (f.num 30 2).testBit 2
     let s := (depositAt p f 32 (bytesBE 2 c) (deliverFrame p f s)).modRing r (fun x => { x with seg := f.num 34 2 % 512 })
     if 510 < c then
       some (toPart p 3 0 (if renum then opEvent p f 7 (setRingState r 4 (setAddress r none s)) else s))
     else if renum then
       some (toPart p 2 0 (opEvent p f 2 (setRingState r 5 (setAddress r (some (f.num 34 2 % 512 * 512 + c)) s))))
     else some (toPart p 2 0 s))

/-- The node writes its entry into the scout (R145). -/
def scoutWrite (p : Port) (f : Frame) (s : State) : Option State :=
  let c := f.num 32 2
  let o := 64 + 16 * (c - 1)
  let moved := !(f.num 30 2).testBit 2 && numbered s p && decide (ownAddr s p % 512 ≠ c)
  let g := { f with cur := skipTo f o }
  match g.touch (s.tunDepth p) o 16 with
  | .ok => some (toPart p 3 0 (depositAt p f o (scoutEntry s (cluOf p) p moved) (moveTo p f o s)))
  | .stall => some (moveTo p f (f.bytes.length - 1) s)
  | .violation => some (windowViolation s p f)

/-- The epoch tables of both ports are loaded from the entries of a scout (R136, R145). -/
def loadEpochs (p : Port) (f : Frame) (s : State) : State :=
  let n := min 510 (f.num 32 2)
  (List.range n).foldl (fun t i => putPriv (cluOf p) (0x420 + 2 * (i + 1)) 2 (f.num (64 + 16 * i + 12) 2) t) s

/-- What the master records of the returned scout (R145), and the layout that a numbering scout asks for (R146). -/
def scoutReturned (p : Port) (f : Frame) (s : State) : State :=
  let r := cluOf p
  let n := min 510 (f.num 32 2)
  let ents := (List.range n).map (fun i => (f.num (64 + 16 * i) 8, (f.num (64 + 16 * i + 10) 2).testBit 3))
  let s := s.put (TIL.RING.NODES.N r) (n - 1)
  let s := if ents = (s.ring r).scout then s else opEvent p f 3 s
  let s := s.modRing r (fun x => { x with scout := ents })
  if (f.num 30 2).testBit 2 then
    orderLayout r (requestedSlots (ownAddr s p / 512) ((List.range n).map (fun i => f.num (64 + 16 * i + 8) 2))) s
  else s

/-- The end of a scout (R145). -/
def scoutEnd (p : Port) (f : Frame) (s : State) : Option State :=
  match passFrame p f s with
  | (none, s) => some s
  | (some f, s) =>
    if f.fate.verdict == some true then
      let s := checkOwnEntry p (loadEpochs p f s)
      some (passOn p f (if ringState s (cluOf p) = 3 then scoutReturned p f s else s))
    else some (passOn p f s)

/-- The entry of the node's own slot in a LAYOUT frame: frame offset and length (R147). -/
def layoutEntry (f : Frame) (own : Nat) : Option (Nat × Nat) :=
  ((List.range (f.num 34 2)).find? (fun i => f.num (64 + 8 * i) 3 == own)).map
    (fun i => (f.num (64 + 8 * i + 4) 2, f.num (64 + 8 * i + 6) 2))

/-- The end of a LAYOUT frame (R147): the firmware stages the wire program and reports it in word 1. -/
def layoutEnd (p : Port) (f : Frame) (s : State) : Option State :=
  match passFrame p f s with
  | (none, s) => some s
  | (some f, s) =>
    if f.fate.verdict == some true && numbered s p then
      let r := cluOf p
      let s := stageProgram r (isMaster s p) (layoutEntry f (ownAddr s p)) s
      some (passOn p f (putPriv r 0x3D8 8 1 (s.modRing r (fun x => { x with layoutAge := 0 }))))
    else some (passOn p f s)

/-- LAYOUT (R131, R147): the master's own has come round; any other is copied to the owning engine. -/
def layoutFrame (p : Port) (f : Frame) (s : State) : State :=
  if fromSelf s p f && !(opSby s p) then dropTiller p f s
  else
    let s := toEngine p f s
    toPart p 4 0 (if endsHere s p f then sinkFrame p f s else s)

/-- What a node notes of a SHEAF's header: LISTEN and CLAIM end (R140), the segment and its CYCLE (R137, R150), TIMEVALID,
NEXTLAYOUT (R147), and a staged program that no LAYOUT frame of four cycles confirms (R147); a cycle counts with its SHEAF (DESIGN
CHOICE, log entry 70). The active master knows all of it. -/
def noteSheaf (p : Port) (f : Frame) (s : State) : State :=
  let r := cluOf p
  let st := ringState s r
  let s := if st = 1 ∨ st = 2 then setRingState r 4 s else s
  let s := s.put (TIL.RING.STAT.TIMEVALID r) ((f.num 30 2).testBit 0).toNat
  if isMaster s p && !(opSby s p) then s
  else
    let s := s.modRing r (fun x => { x with seg := f.num 16 3 % 2 ^ 18 / 512, cycle := BitVec.ofNat 48 (f.num 24 6) })
    if (f.num 30 2).testBit 1 then frameEnd p f.fctr (s.modFrame p f.fctr (fun g => { g with swap := true }))
    else
      let s := s.modRing r (fun x => { x with layoutAge := x.layoutAge + 1 })
      if 4 ≤ (s.ring r).layoutAge && ((s.ring r).staged.isSome || s.load (privAddr s p 0x3D8) 8 != 0) then dropStaged r s else s

/-- A returned SHEAF at the master is sunk. Of a pair that is master the upstream unit forwards it and the downstream unit sinks
it (R173), and a unit that waits for a partner forwards (R170, R185). A standby that lies downstream sees the SHEAF of its
partner twice: of each CYCLE it takes the first for the launch, which it forwards, and the second for the returned one (DEDUCED, log
entry 71). -/
def sinkReturned (p : Port) (f : Frame) (s : State) : State :=
  let st := twinState s
  let r := cluOf p
  if !(twinned s r) || st == 0 || st == 5 then sinkFrame p f s
  else if Config.facesRing r || st == 1 || st == 7 then s
  else if opSby s p && (s.ring r).passed != some (f.num 24 6) then s.modRing r (fun x => { x with passed := some (f.num 24 6) })
  else sinkFrame p f s

/-- SHEAF (R131, R148): the program goes on. -/
def sheafFrame (p : Port) (f : Frame) (s : State) : State :=
  let s := noteSheaf p f (deliverFrame p f s)
  let s := if endsHere s p f then sinkFrame p f s else s
  let w := wop s p
  let s := scratch p s
  if isMaster s p && (f.num 30 2).testBit 15 then closeOp p (jumpOp p w (sinkReturned p f s))
  else closeOp p (setSq p 0 32 s)

/-- The first part of TLHDR: the checks of the common header, then the type. -/
def headerFrame (p : Port) (f : Frame) (s : State) : Option State :=
  if !(isTiller s f) then some (passOn p f s)
  else if staleFrame s p f then
    some (dropTiller p f (opEvent p f 6 (s.count (TIL.RING.STALECNT.CNT (cluOf p)))))
  else
    let s := if srcInSegment s p f then noteEpoch p (f.num 16 3 % 512) (f.num 22 2) s else s
    match (f.byte 15).toNat with
    | 1 => some (sheafFrame p f s)
    | 2 => claimFrame p f s
    | 3 => scoutFrame p f s
    | 4 => some (layoutFrame p f s)
    | 5 => withBytes p s f 32 2 (some (otherFrame p f s))
    | 6 => withBytes p s f 32 24 (some (otherFrame p f s))
    | _ => some (otherFrame p f s)

/-- TLHDR (R148). -/
def execWTlhdr (p : Port) (s : State) : Res := wireCmd p s (· == 0x60) (fun f =>
  match opPart s p with
  | 1 => claimEntry p f s
  | 2 => scoutWrite p f s
  | 3 => scoutEnd p f s
  | 4 => layoutEnd p f s
  | _ => withBytes p s f 0 32 (headerFrame p f s))

/-! ### TLSYNC and the servo (R148, R157) -/

/-- The node's offset from the master in units of 2^-16 ns (R157). -/
def nodeOffset (s : State) (p : Port) (f : Frame) : Int :=
  let x := f.stamps[(0 : Fin 4)]
  (units16 x.hi x.lo : Int) - (stampUnits (f.slice 32 10) + toSigned 64 (f.num 42 8) + linkReg s p)

/-- The servo of the Tiller firmware on the ring that TIL.TSRC names, for a frame with TIMEVALID: STEP for an offset above
1 µs, otherwise a rate word that the manual leaves to the firmware (a free value). UNSYNC clears after 16 cycles within
50 ns (R157). A SHEAF without TIMEVALID and a cycle without a SHEAF neither count nor break the run (DESIGN CHOICE, log entry 70). -/
def servo (r : Clu) (off : Int) (valid : Bool) (s : State) : State :=
  if s.on TIL.TSRC.EN && decide (s.get TIL.TSRC.RING = r.val) && valid then
    let a := off.natAbs
    let n := if a ≤ 50 * 65536 then (s.ring r).within + 1 else 0
    let s := s.modRing r (fun x => { x with within := n })
    let s :=
      if 1000 * 65536 < a then (timeJump 0 ((s.dom 0).move (-off * 2 ^ 34)) s).raise (TU.D.STAT.STEPPED 0)
      else setAdj 0 (s.freeVal 48) s.took
    if 16 ≤ n then s.lower (TU.D.STAT.UNSYNC 0) else s
  else s

/-- TLSYNC (R148, R149). In the sync record ORIGIN keeps its frame order, and the other fields stand lowest byte first (R3, R149; DESIGN
CHOICE, log entry 70). -/
def syncRoutine (p : Port) (f : Frame) (s : State) : State :=
  let r := cluOf p
  let off := nodeOffset s p f
  let rec' := bytesLE 6 (f.num 24 6) ++ f.slice 32 10 ++ bytesLE 8 (f.num 42 8) ++
    bytesLE 6 (f.stamps[(0 : Fin 4)]).lo.toNat ++ bytesLE 2 (f.num 30 2)
  let s := s.store (privAddr s p 0x3B0) rec'
  let add := BitVec.ofInt 48 (linkReg s p + delayReg s p)
  let s := depositAt p f 42 (faddField f 42 add) s
  let s := postEvent s p (eventRecord s p f 0x40 (wop s p))
  let s := s.put (TIL.RING.OFFSET.PS r) (BitVec.ofInt 32 (off * 1000 / 65536)).toNat
  let s := servo r off ((f.num 30 2).testBit 0) s
  closeOp p (setSq p 0 64 (scratch p s))

def execWTlsync (p : Port) (s : State) : Res := wireCmd p s (· == 0x61) (fun f =>
  withBytes p s f 24 40 (some (syncRoutine p f s)))

/-! ### TLSUM (R133, R148) -/

/-- TLSUM: the contribution is added, unless SBY is 1 (R171). -/
def execWTlsum (p : Port) (s : State) : Res := wireCmd p s (· == 0x62) (fun f =>
  let w := wop s p % 8
  let o := 64 + 8 * w
  let add := s.load (privAddr s p (0x3D0 + 8 * w)) 8
  if opSby s p then some (closeFree p s)
  else opAccess p s f o 8 (closeFree p (depositAt p f o (bytesBE 8 (f.num o 8 + add)) s)))

/-! ### Slots (R134, R138, R148, R152) -/

/-- A slot-table entry: frame offset, LEN, image offset, own, routed (R149). -/
structure SlotRow where
  off : Nat
  len : Nat
  img : Nat
  own : Bool
  routed : Bool
  deriving DecidableEq, Repr

/-- Entry `e` of the slot table. -/
def slotRow (s : State) (p : Port) (e : Nat) : SlotRow :=
  let a := privAddr s p (0x820 + 8 * (e % 128))
  let fl := s.byte (a + 7)
  { off := s.load a 2, len := s.load (a + 2) 2, img := s.load (a + 4) 3 % 2 ^ 19, own := fl.getLsbD 0, routed := fl.getLsbD 1 }

/-- The slot header as a reader copies it: AGE 0xFF for a stale slot, which STALECNT counts (R138); a newer epoch overwrites
the table's entry (R136). -/
def readHeader (p : Port) (h : List Byte) (s : State) : List Byte × State :=
  let node := natBE (h.take 3) % 512
  let epoch := natBE ((h.drop 4).take 2)
  if epochOlder epoch (epochEntry s p node) then (h.set 3 0xFF, s.count (TIL.RING.STALECNT.CNT (cluOf p)))
  else (h, noteEpoch p node epoch s)

/-- A piece of a slot goes to the filling input buffer (R148). -/
def readPiece (p : Port) (x : SlotRow) (o n : Nat) (f : Frame) (s : State) : State :=
  let d := f.slice o n
  let r := if o = x.off then readHeader p d s else (d, s)
  (seqWrite r.2 p f 1 (x.img + (o - x.off)) r.1).1

/-- TLREAD (R148). -/
def execWTlread (p : Port) (s : State) : Res := wireCmd p s (· == 0x63) (fun _ =>
  let x := slotRow s p (wop s p)
  let stop := x.off + 8 + x.len
  let s := if opPart s p = 0 then toPart p 1 x.off s else s
  let r := eachPiece p stop (readPiece p x) 8192 s
  some (if r.1 then closeOp p (setSq p 0 (BitVec.ofNat 48 stop) (scratch p r.2)) else r.2))

/-- The header that the owner writes into its slot (R134, R152): NODE with REPEAT and ROUTED, AGE, EPOCH. -/
def ownHeader (s : State) (p : Port) (x : SlotRow) (h : List Byte) : List Byte :=
  let node := natBE (h.take 3) % 2 ^ 18
  let rep := (s.byte (outBuf s p (s.get (PI.OUTROLE.CUR p)) + 14)).getLsbD 0
  bytesBE 3 (node + 2 ^ 18 * rep.toNat + 2 ^ 19 * x.routed.toNat) ++ bytesLE 1 (outAge s p) ++
    bytesBE 2 (s.load (privAddr s p 0x3A4) 2)

/-- ADOPT (R169): an epoch in the slot that is not older than the unit's own becomes, plus 1, the unit's own. -/
def adoptEpoch (p : Port) (epoch : Nat) (s : State) : State :=
  if (roleByte s p).getLsbD 1 then
    let own := s.load (privAddr s p 0x3A4) 2
    let s := if epochOlder epoch own then s else setEpoch (epoch + 1) s
    hwStoreN (privAddr s p 0xC20) 1 ((roleByte s p).toNat % 2) s
  else s

/-- The owner reaches its slot's header: it writes unless the slot is another's, SBY is 1, or a newer epoch fences it (R138,
R171). Seq.part becomes 2 where the payload is to be written. -/
def ownSlot (p : Port) (x : SlotRow) (f : Frame) (s : State) : State :=
  let h := f.slice x.off 8
  let epoch := natBE ((h.drop 4).take 2)
  if opSby s p || decide (natBE (h.take 3) % 2 ^ 18 ≠ ownAddr s p) then s
  else
    let s := adoptEpoch p epoch s
    if epochNewer epoch (s.load (privAddr s p 0x3A4) 2) then
      let s := opEvent p f 5 s
      if twinned s (p.val / 2) then fenceUnit s else s
    else (depositAt p f x.off (ownHeader s p x h) s).modSeq p (fun q => { q with part := 2 })

/-- A piece of the owner's payload comes from the current output buffer. -/
def ownPiece (p : Port) (x : SlotRow) (o n : Nat) (f : Frame) (s : State) : State :=
  if o = x.off then ownSlot p x f s
  else if opPart s p = 2 then
    match seqRead s p 2 (x.img + (o - x.off - 8)) n with
    | (some bs, s) => depositAt p f o bs s
    | (none, s) => abandonFrame s p f
  else s

/-- TLSLOT (R148). -/
def execWTlslot (p : Port) (s : State) : Res := wireCmd p s (· == 0x64) (fun _ =>
  let x := slotRow s p (wop s p)
  let stop := x.off + 8 + x.len
  let s := if opPart s p = 0 then toPart p 1 x.off s else s
  let r := eachPiece p stop (ownPiece p x) 8192 s
  some (if r.1 then closeOp p (setSq p 0 (BitVec.ofNat 48 stop) (scratch p r.2)) else r.2))

/-! ### The master's ops (R153, R158) -/

/-- The cycles between the launch and the source's CYCLE (R153). -/
def carryAge (s : State) (r : Clu) : Nat := ((s.ring r).cycle - BitVec.ofNat 48 (natBE (s.bytes (carryBase s r (s.ring r).half + 24) 6))).toNat

/-- TLBUILD rewrites the launched frame's header (R153). -/
def buildHeader (p : Port) (f : Frame) (s : State) : State :=
  let r := cluOf p
  let x := s.ring r
  let flags := (timeValid s).toNat + 2 * x.next.toNat + 2 ^ 15
  let s := depositAt p f 22 (bytesBE 2 (s.get (TIL.RING.EPOCH.EPOCH r)) ++ bytesBE 6 x.cycle.toNat ++ bytesBE 2 flags ++
    tsiBytes (tsiStamp s p f 0 true) 0 ++ List.replicate 8 0) s
  s.modRing r (fun y => { y with sent := y.sent || y.next })

/-- The header of a carried slot: its AGE grows by the age step, and a nonzero step sets REPEAT (R153). -/
def ageSlot (p : Port) (age o : Nat) (f : Frame) (s : State) : State :=
  let a := (f.byte (o + 3)).toNat
  let hi := if age = 0 then f.num o 1 else f.num o 1 ||| 4
  depositAt p f (o + 3) (bytesLE 1 (if a = 255 then 255 else min (a + age) 254)) (depositAt p f o (bytesBE 1 hi) s)

/-- A piece of the launched frame: summation words become 0; at the start of a slot its AGE grows and REPEAT is set; the own
slot is written as TLSLOT does. Slots follow one another from the end of the summation words. -/
def buildPiece (p : Port) (x : SlotRow) (age : Nat) (starts : List Nat) (o n : Nat) (f : Frame) (s : State) : State :=
  let first := 64 + 8 * f.num 54 2
  if o < first then depositAt p f o (List.replicate n 0) s
  else if x.own && decide (x.off ≤ o ∧ o < x.off + 8 + x.len) then
    ownPiece p x o n f (if o = x.off then ageSlot p age o f s else s)
  else if starts.contains o then ageSlot p age o f s
  else s

/-- TLBUILD (R148, R153). The slots lie where the layout in force puts them. -/
def execWTlbuild (p : Port) (s : State) : Res := wireCmd p s (· == 0x65) (fun f =>
  let r := cluOf p
  let x := slotRow s p (wop s p)
  let slots := (s.ring r).slots
  let starts := (slotOffsets (firstSlot s r) slots).map (·.1)
  let age := carryAge s r
  if opPart s p = 0 then withBytes p s f 0 64 (some (toPart p 1 64 (buildHeader p f s)))
  else
    let g := eachPiece p (sheafLen s r slots) (buildPiece p x age starts) 8192 s
    some (if g.1 then closeOp p (setSq p 0 (BitVec.ofNat 48 (sheafLen s r slots)) (scratch p g.2)) else g.2))

/-- A piece of the returned frame goes to the half of the carry buffer that is not the source (R153). -/
def carryPiece (p : Port) (o n : Nat) (f : Frame) (s : State) : State :=
  let r := cluOf p
  s.store (carryBase s r (1 - (s.ring r).half) + o) (f.slice o n)

/-- The read of one slot-table entry on the way (R148). -/
def carryRead (p : Port) (f : Frame) (s : State) (e : Nat) : State :=
  let x := slotRow s p e
  if x.own || x.len == 0 then s
  else
    let r := readHeader p (f.slice x.off 8) s
    (seqWrite r.2 p f 1 x.img (r.1 ++ f.slice (x.off + 8) x.len)).1

/-- The closed-loop time in ns (R151): from the launch to the end of the returned frame. -/
def loopNs (s : State) (p : Port) (f : Frame) : Nat := loopStart s p f + bytesNs s p f.bytes.length

/-- NODE and LEN of the slots of a SHEAF, from an offset (R132, R134). -/
def frameSlots (f : Frame) : Nat → Nat → List (Nat × Nat)
  | 0, _ => []
  | k + 1, o => (f.num o 3 % 2 ^ 18, f.num (o + 6) 2) :: frameSlots f k (o + 8 + f.num (o + 6) 2)

/-- A standby of a master keeps the layout of the frame that its carry buffer has taken, so that it can launch from it once it is
the active (R173). -/
def keepLayout (p : Port) (f : Frame) (s : State) : State :=
  if opSby s p then
    let n := f.num 54 2
    s.modRing (cluOf p) (fun x => { x with
      built := true, version := f.num 50 2, sums := n, slots := frameSlots f (min 510 (f.num 52 2)) (64 + 8 * n) })
  else s

/-- What the master checks on a returned SHEAF that has come whole (R147, R151, R154). -/
def carryChecks (p : Port) (f : Frame) (s : State) : State :=
  let r := cluOf p
  let nodes := s.get (TIL.RING.NODES.N r)
  let s := if f.num 64 8 = nodes then s else opEvent p f 10 s
  let s := if f.num 72 8 = nodes then
      s.modRing r (fun x => { x with change := x.change.map (fun c => (c.1, c.2.1, true)) })
    else s
  let t := loopNs s p f
  let s := s.put (TIL.RING.LOOPNS.NS r) t
  if s.get (TIL.RING.PERIOD.NS r) < t + 2000 then opEvent p f 9 s else s

/-- The end of TLCARRY (R153): LAUNCHED = 0 in the copy, the reads of the slot table, and the half becomes the source when the
frame was good. A frame that the next launch cut off is ignored (R151). A standby knows neither NODES nor the launch, and checks
nothing: R151 and R154 say what the master raises (DEDUCED, log entry 70). -/
def carryEnd (p : Port) (f : Frame) (s : State) : State :=
  let r := cluOf p
  let half := 1 - (s.ring r).half
  let a := carryBase s r half + 30
  let s := s.storeN a 1 ((s.load a 1) % 128)
  let s := (List.range 128).foldl (carryRead p f) s
  let s := if f.fate.cut || opSby s p then s else carryChecks p f s
  if f.fate.verdict == some true then keepLayout p f (s.modRing r (fun x => { x with half := half })) else s

/-- TLCARRY (R148, R153). -/
def execWTlcarry (p : Port) (s : State) : Res := wireCmd p s (· == 0x66) (fun f =>
  let stop := if f.eof then f.bytes.length else f.bytes.length / 8 * 8
  let g := eachPiece p stop (carryPiece p) 8192 s
  match g.2.running p with
  | some f =>
    if g.1 && f.eof && f.fate.verdict.isSome then some (closeFree p (carryEnd p f g.2)) else some g.2
  | none => some g.2)

/-- TWCHK (R174): F1 becomes SBY. -/
def execWTwchk (p : Port) (s : State) : Res := wireCmd p s (· == 0x70) (fun _ =>
  some (closeOp p (setFlag p true (opSby s p) (scratch p s))))

end Sys2Proof.Machine
end

