-- ==== Sys2Proof/Machine/Dispatch.lean ====
section
/-! DEFINITION. The meaning of every command: one arm per constructor of Instr, each one call of its meaning. -/

namespace Sys2Proof.Machine

def exec (i : Instr) (s : State) : Host.Outcome State Fault Refusal :=
  match i with
  | .powerOnReset => Sys2Proof.Machine.execPowerOnReset s
  | .rstNAssert ns => Sys2Proof.Machine.execRstNAssert ns s
  | .blockReset cause => Sys2Proof.Machine.execBlockReset cause s
  | .startUp host answers sfdp record fid => Sys2Proof.Machine.execStartUp host answers sfdp record fid s
  | .bootGo => Sys2Proof.Machine.execBootGo s
  | .clrfail => Sys2Proof.Machine.execClrfail s
  | .imageStaged bytes err keyHash mono => Sys2Proof.Machine.execImageStaged bytes err keyHash mono s
  | .imageStart => Sys2Proof.Machine.execImageStart s
  | .engineReset e => Sys2Proof.Machine.execEngineReset e s
  | .clusterReset n keyHash => Sys2Proof.Machine.execClusterReset n keyHash s
  | .grainAvailable p bytes last thru before age tap => Sys2Proof.Machine.execGrainAvailable p bytes last thru before age tap s
  | .frameStart p => Sys2Proof.Machine.execFrameStart p s
  | .releasePoint p => Sys2Proof.Machine.execReleasePoint p s
  | .fcsVerdict p => Sys2Proof.Machine.execFcsVerdict p s
  | .bufferCommit p => Sys2Proof.Machine.execBufferCommit p s
  | .rxQueueVisible p => Sys2Proof.Machine.execRxQueueVisible p s
  | .udf p => Sys2Proof.Machine.execUdf p s
  | .illegalMicroword p => Sys2Proof.Machine.execIllegalMicroword p s
  | .uNop p => Sys2Proof.Machine.execUNop p s
  | .uAlu p => Sys2Proof.Machine.execUAlu p s
  | .uAlui p => Sys2Proof.Machine.execUAlui p s
  | .uLdi p => Sys2Proof.Machine.execULdi p s
  | .uLdih p => Sys2Proof.Machine.execULdih p s
  | .uMovs p => Sys2Proof.Machine.execUMovs p s
  | .uMovt p => Sys2Proof.Machine.execUMovt p s
  | .uExt p => Sys2Proof.Machine.execUExt p s
  | .uDep p => Sys2Proof.Machine.execUDep p s
  | .uIncf p => Sys2Proof.Machine.execUIncf p s
  | .uFadd p => Sys2Proof.Machine.execUFadd p s
  | .uCpy p => Sys2Proof.Machine.execUCpy p s
  | .uFil p => Sys2Proof.Machine.execUFil p s
  | .uLdm p => Sys2Proof.Machine.execULdm p s
  | .uStm p => Sys2Proof.Machine.execUStm p s
  | .uAtm p => Sys2Proof.Machine.execUAtm p s
  | .uCmpr p => Sys2Proof.Machine.execUCmpr p s
  | .uCmp p => Sys2Proof.Machine.execUCmp p s
  | .uCmpf p => Sys2Proof.Machine.execUCmpf p s
  | .uBr p => Sys2Proof.Machine.execUBr p s
  | .uJmp p => Sys2Proof.Machine.execUJmp p s
  | .uCall p => Sys2Proof.Machine.execUCall p s
  | .uRet p => Sys2Proof.Machine.execURet p s
  | .uNxw p => Sys2Proof.Machine.execUNxw p s
  | .uWjmp p => Sys2Proof.Machine.execUWjmp p s
  | .uNxg p => Sys2Proof.Machine.execUNxg p s
  | .uSkto p => Sys2Proof.Machine.execUSkto p s
  | .uEndf p => Sys2Proof.Machine.execUEndf p s
  | .uCmt p => Sys2Proof.Machine.execUCmt p s
  | .uDisc p => Sys2Proof.Machine.execUDisc p s
  | .uWait p => Sys2Proof.Machine.execUWait p s
  | .uTsi p => Sys2Proof.Machine.execUTsi p s
  | .uSetf p => Sys2Proof.Machine.execUSetf p s
  | .uQue p => Sys2Proof.Machine.execUQue p s
  | .uSig p => Sys2Proof.Machine.execUSig p s
  | .wEnd p => Sys2Proof.Machine.execWEnd p s
  | .wDrop p => Sys2Proof.Machine.execWDrop p s
  | .wJmp p => Sys2Proof.Machine.execWJmp p s
  | .wJf p => Sys2Proof.Machine.execWJf p s
  | .wNop p => Sys2Proof.Machine.execWNop p s
  | .wCommit p => Sys2Proof.Machine.execWCommit p s
  | .wSignal p => Sys2Proof.Machine.execWSignal p s
  | .wSeek p => Sys2Proof.Machine.execWSeek p s
  | .wAdv p => Sys2Proof.Machine.execWAdv p s
  | .wSkip p => Sys2Proof.Machine.execWSkip p s
  | .wTagskip p => Sys2Proof.Machine.execWTagskip p s
  | .wAddw p => Sys2Proof.Machine.execWAddw p s
  | .wAddl p => Sys2Proof.Machine.execWAddl p s
  | .wSetf p => Sys2Proof.Machine.execWSetf p s
  | .wMatet p => Sys2Proof.Machine.execWMatet p s
  | .wMatda p => Sys2Proof.Machine.execWMatda p s
  | .wMatch p => Sys2Proof.Machine.execWMatch p s
  | .wTest p => Sys2Proof.Machine.execWTest p s
  | .wAge p => Sys2Proof.Machine.execWAge p s
  | .wRdb p => Sys2Proof.Machine.execWRdb p s
  | .wWrb p => Sys2Proof.Machine.execWWrb p s
  | .wRd p => Sys2Proof.Machine.execWRd p s
  | .wWr p => Sys2Proof.Machine.execWWr p s
  | .wTsrx p => Sys2Proof.Machine.execWTsrx p s
  | .wTstx p => Sys2Proof.Machine.execWTstx p s
  | .wTsin p => Sys2Proof.Machine.execWTsin p s
  | .wCorr p => Sys2Proof.Machine.execWCorr p s
  | .wWaitt p => Sys2Proof.Machine.execWWaitt p s
  | .wWaitg p => Sys2Proof.Machine.execWWaitg p s
  | .wWaitw p => Sys2Proof.Machine.execWWaitw p s
  | .wQueue p => Sys2Proof.Machine.execWQueue p s
  | .wQend p => Sys2Proof.Machine.execWQend p s
  | .wSink p => Sys2Proof.Machine.execWSink p s
  | .wSeqchk p => Sys2Proof.Machine.execWSeqchk p s
  | .wSeqgen p => Sys2Proof.Machine.execWSeqgen p s
  | .wHsrchk p => Sys2Proof.Machine.execWHsrchk p s
  | .wPrpchk p => Sys2Proof.Machine.execWPrpchk p s
  | .wTlhdr p => Sys2Proof.Machine.execWTlhdr p s
  | .wTlsync p => Sys2Proof.Machine.execWTlsync p s
  | .wTlsum p => Sys2Proof.Machine.execWTlsum p s
  | .wTlread p => Sys2Proof.Machine.execWTlread p s
  | .wTlslot p => Sys2Proof.Machine.execWTlslot p s
  | .wTlbuild p => Sys2Proof.Machine.execWTlbuild p s
  | .wTlcarry p => Sys2Proof.Machine.execWTlcarry p s
  | .wTwchk p => Sys2Proof.Machine.execWTwchk p s
  | .csldGo p => Sys2Proof.Machine.execCsldGo p s
  | .csldFirstPassDone p keyHash ext err => Sys2Proof.Machine.execCsldFirstPassDone p keyHash ext err s
  | .csldSecondPassDone p ext err => Sys2Proof.Machine.execCsldSecondPassDone p ext err s
  | .csldAbort p => Sys2Proof.Machine.execCsldAbort p s
  | .wpmDataWrite p v => Sys2Proof.Machine.execWpmDataWrite p v s
  | .csEccWriteback p => Sys2Proof.Machine.execCsEccWriteback p s
  | .portEnable p => Sys2Proof.Machine.execPortEnable p s
  | .portDisable p => Sys2Proof.Machine.execPortDisable p s
  | .portDrainDone p => Sys2Proof.Machine.execPortDrainDone p s
  | .take p => Sys2Proof.Machine.execTake p s
  | .publish p => Sys2Proof.Machine.execPublish p s
  | .txDescriptorStart p tap => Sys2Proof.Machine.execTxDescriptorStart p tap s
  | .txLaunch p tap => Sys2Proof.Machine.execTxLaunch p tap s
  | .thruLaunch p => Sys2Proof.Machine.execThruLaunch p s
  | .txComplete p => Sys2Proof.Machine.execTxComplete p s
  | .txPreempt p sent fwd => Sys2Proof.Machine.execTxPreempt p sent fwd s
  | .gclChange p => Sys2Proof.Machine.execGclChange p s
  | .gclActivate p => Sys2Proof.Machine.execGclActivate p s
  | .gateIntervalEnd p => Sys2Proof.Machine.execGateIntervalEnd p s
  | .streamResetTimer n ix => Sys2Proof.Machine.execStreamResetTimer n ix s
  | .dupForget n => Sys2Proof.Machine.execDupForget n s
  | .miLinkUp p rate => Sys2Proof.Machine.execMiLinkUp p rate s
  | .miLinkDown p => Sys2Proof.Machine.execMiLinkDown p s
  | .transmitSlip p => Sys2Proof.Machine.execTransmitSlip p s
  | .timeSet d => Sys2Proof.Machine.execTimeSet d s
  | .timeStep d => Sys2Proof.Machine.execTimeStep d s
  | .adjWrite d v => Sys2Proof.Machine.execAdjWrite d v s
  | .calibrationRound => Sys2Proof.Machine.execCalibrationRound s
  | .portCalibrated p => Sys2Proof.Machine.execPortCalibrated p s
  | .calstale p => Sys2Proof.Machine.execCalstale p s
  | .ppsPulse k => Sys2Proof.Machine.execPpsPulse k s
  | .ppsPulseEnd k => Sys2Proof.Machine.execPpsPulseEnd k s
  | .compareWrite n c v => Sys2Proof.Machine.execCompareWrite n c v s
  | .disarm n c => Sys2Proof.Machine.execDisarm n c s
  | .compareMatch n c => Sys2Proof.Machine.execCompareMatch n c s
  | .counterWrap n => Sys2Proof.Machine.execCounterWrap n s
  | .capture n ix src rising age => Sys2Proof.Machine.execCapture n ix src rising age s
  | .captureRead n ix => Sys2Proof.Machine.execCaptureRead n ix s
  | .tmoSet v => Sys2Proof.Machine.execTmoSet v s
  | .tmoClear v => Sys2Proof.Machine.execTmoClear v s
  | .tmoToggle v => Sys2Proof.Machine.execTmoToggle v s
  | .windowPeriodStart n l => Sys2Proof.Machine.execWindowPeriodStart n l s
  | .domainRestart dom n => Sys2Proof.Machine.execDomainRestart dom n s
  | .ringEnable r en => Sys2Proof.Machine.execRingEnable r en s
  | .renum r => Sys2Proof.Machine.execRenum r s
  | .check r => Sys2Proof.Machine.execCheck r s
  | .relisten r => Sys2Proof.Machine.execRelisten r s
  | .listenExpiry r => Sys2Proof.Machine.execListenExpiry r s
  | .sheafLoss r => Sys2Proof.Machine.execSheafLoss r s
  | .sheafLaunch r => Sys2Proof.Machine.execSheafLaunch r s
  | .checkScoutTimer r => Sys2Proof.Machine.execCheckScoutTimer r s
  | .layoutTimeout r => Sys2Proof.Machine.execLayoutTimeout r s
  | .echoreq r => Sys2Proof.Machine.execEchoreq r s
  | .routedForward r body => Sys2Proof.Machine.execRoutedForward r body s
  | .twinLevelWrite v => Sys2Proof.Machine.execTwinLevelWrite v s
  | .helloSend => Sys2Proof.Machine.execHelloSend s
  | .helloReceive f => Sys2Proof.Machine.execHelloReceive f s
  | .seekTimeout => Sys2Proof.Machine.execSeekTimeout s
  | .heartbeatSend => Sys2Proof.Machine.execHeartbeatSend s
  | .heartbeatReceive f => Sys2Proof.Machine.execHeartbeatReceive f s
  | .aliveKick => Sys2Proof.Machine.execAliveKick s
  | .aliveExpiry => Sys2Proof.Machine.execAliveExpiry s
  | .partnerTimeout => Sys2Proof.Machine.execPartnerTimeout s
  | .ptLinkDownTimeout => Sys2Proof.Machine.execPtLinkDownTimeout s
  | .goneReceive f => Sys2Proof.Machine.execGoneReceive f s
  | .cut => Sys2Proof.Machine.execCut s
  | .cutReceive f => Sys2Proof.Machine.execCutReceive f s
  | .publishFrame f => Sys2Proof.Machine.execPublishFrame f s
  | .writeFrame f => Sys2Proof.Machine.execWriteFrame f s
  | .imageFrame f => Sys2Proof.Machine.execImageFrame f s
  | .resyncSend => Sys2Proof.Machine.execResyncSend s
  | .desyncReceive f => Sys2Proof.Machine.execDesyncReceive f s
  | .ptFrameLoss f => Sys2Proof.Machine.execPtFrameLoss f s
  | .twnHandover => Sys2Proof.Machine.execTwnHandover s
  | .handoverFrame f => Sys2Proof.Machine.execHandoverFrame f s
  | .ackReceive f => Sys2Proof.Machine.execAckReceive f s
  | .handoverAckTimeout => Sys2Proof.Machine.execHandoverAckTimeout s
  | .twnResync => Sys2Proof.Machine.execTwnResync s
  | .deltaovf => Sys2Proof.Machine.execDeltaovf s
  | .dualMove e => Sys2Proof.Machine.execDualMove e s
  | .longImmediate e => Sys2Proof.Machine.execLongImmediate e s
  | .compareAndBranch e => Sys2Proof.Machine.execCompareAndBranch e s
  | .repeatPrefix e => Sys2Proof.Machine.execRepeatPrefix e s
  | .trap e => Sys2Proof.Machine.execTrap e s
  | .interruptEntry e => Sys2Proof.Machine.execInterruptEntry e s
  | .impreciseReport e => Sys2Proof.Machine.execImpreciseReport e s
  | .watchdogWarningEntry e => Sys2Proof.Machine.execWatchdogWarningEntry e s
  | .engineWatchdogExpiry e => Sys2Proof.Machine.execEngineWatchdogExpiry e s
  | .aluAdd e u b => Sys2Proof.Machine.execAluAdd e u b s
  | .aluAddc e u b => Sys2Proof.Machine.execAluAddc e u b s
  | .aluSub e u b => Sys2Proof.Machine.execAluSub e u b s
  | .aluSubc e u b => Sys2Proof.Machine.execAluSubc e u b s
  | .aluRsub e u b => Sys2Proof.Machine.execAluRsub e u b s
  | .aluAnd e u b => Sys2Proof.Machine.execAluAnd e u b s
  | .aluOr e u b => Sys2Proof.Machine.execAluOr e u b s
  | .aluXor e u b => Sys2Proof.Machine.execAluXor e u b s
  | .aluAndn e u b => Sys2Proof.Machine.execAluAndn e u b s
  | .aluMin e u b => Sys2Proof.Machine.execAluMin e u b s
  | .aluMax e u b => Sys2Proof.Machine.execAluMax e u b s
  | .aluMinu e u b => Sys2Proof.Machine.execAluMinu e u b s
  | .aluMaxu e u b => Sys2Proof.Machine.execAluMaxu e u b s
  | .aluAbs e u b => Sys2Proof.Machine.execAluAbs e u b s
  | .aluNeg e u b => Sys2Proof.Machine.execAluNeg e u b s
  | .aluSeq e u b => Sys2Proof.Machine.execAluSeq e u b s
  | .aluSlt e u b => Sys2Proof.Machine.execAluSlt e u b s
  | .aluSltu e u b => Sys2Proof.Machine.execAluSltu e u b s
  | .aluAdds e u b => Sys2Proof.Machine.execAluAdds e u b s
  | .aluSubs e u b => Sys2Proof.Machine.execAluSubs e u b s
  | .aluPass e u b => Sys2Proof.Machine.execAluPass e u b s
  | .mulMuls e b => Sys2Proof.Machine.execMulMuls e b s
  | .mulMulu e b => Sys2Proof.Machine.execMulMulu e b s
  | .mulMulsu e b => Sys2Proof.Machine.execMulMulsu e b s
  | .mulMac e b => Sys2Proof.Machine.execMulMac e b s
  | .mulMsu e b => Sys2Proof.Machine.execMulMsu e b s
  | .mulComplete e => Sys2Proof.Machine.execMulComplete e s
  | .divDivs e b => Sys2Proof.Machine.execDivDivs e b s
  | .divDivu e b => Sys2Proof.Machine.execDivDivu e b s
  | .divComplete e => Sys2Proof.Machine.execDivComplete e s
  | .shShl e b => Sys2Proof.Machine.execShShl e b s
  | .shShr e b => Sys2Proof.Machine.execShShr e b s
  | .shSar e b => Sys2Proof.Machine.execShSar e b s
  | .shRol e b => Sys2Proof.Machine.execShRol e b s
  | .shRor e b => Sys2Proof.Machine.execShRor e b s
  | .shExtu e b => Sys2Proof.Machine.execShExtu e b s
  | .shExts e b => Sys2Proof.Machine.execShExts e b s
  | .shIns e b => Sys2Proof.Machine.execShIns e b s
  | .shClz e b => Sys2Proof.Machine.execShClz e b s
  | .shCtz e b => Sys2Proof.Machine.execShCtz e b s
  | .shPopc e b => Sys2Proof.Machine.execShPopc e b s
  | .shBrev e b => Sys2Proof.Machine.execShBrev e b s
  | .shBswap e b => Sys2Proof.Machine.execShBswap e b s
  | .shBswap4 e b => Sys2Proof.Machine.execShBswap4 e b s
  | .shBswap2 e b => Sys2Proof.Machine.execShBswap2 e b s
  | .agLd e n w => Sys2Proof.Machine.execAgLd e n w s
  | .agLdx e n v w => Sys2Proof.Machine.execAgLdx e n v w s
  | .agSt e n v w => Sys2Proof.Machine.execAgSt e n v w s
  | .agLr e n w => Sys2Proof.Machine.execAgLr e n w s
  | .agSc e n v w => Sys2Proof.Machine.execAgSc e n v w s
  | .agSync e n => Sys2Proof.Machine.execAgSync e n s
  | .loadComplete e n => Sys2Proof.Machine.execLoadComplete e n s
  | .storeComplete e ix => Sys2Proof.Machine.execStoreComplete e ix s
  | .busErrorResponse e n store => Sys2Proof.Machine.execBusErrorResponse e n store s
  | .icacheFill e which data err evict => Sys2Proof.Machine.execIcacheFill e which data err evict s
  | .tableWalk e => Sys2Proof.Machine.execTableWalk e s
  | .walkReadDone e data err => Sys2Proof.Machine.execWalkReadDone e data err s
  | .brJmp e v => Sys2Proof.Machine.execBrJmp e v s
  | .brCall e v => Sys2Proof.Machine.execBrCall e v s
  | .icInv e v => Sys2Proof.Machine.execIcInv e v s
  | .icInvall e => Sys2Proof.Machine.execIcInvall e s
  | .loopCntWrite e v => Sys2Proof.Machine.execLoopCntWrite e v s
  | .excRet e => Sys2Proof.Machine.execExcRet e s
  | .excSwi e v => Sys2Proof.Machine.execExcSwi e v s
  | .excWdkick e => Sys2Proof.Machine.execExcWdkick e s
  | .excSrWrite e v => Sys2Proof.Machine.execExcSrWrite e v s
  | .semTake e d => Sys2Proof.Machine.execSemTake e d s
  | .semGive e v => Sys2Proof.Machine.execSemGive e v s
  | .edbRing e v => Sys2Proof.Machine.execEdbRing e v s
  | .edbClr e v => Sys2Proof.Machine.execEdbClr e v s
  | .msgSend e v => Sys2Proof.Machine.execMsgSend e v s
  | .msgDeliver src tgt => Sys2Proof.Machine.execMsgDeliver src tgt s
  | .msgRecv e d => Sys2Proof.Machine.execMsgRecv e d s
  | .hdbRing m v => Sys2Proof.Machine.execHdbRing m v s
  | .hdbClr m v => Sys2Proof.Machine.execHdbClr m v s
  | .sqRxpop c v => Sys2Proof.Machine.execSqRxpop c v s
  | .sqEvpop c v => Sys2Proof.Machine.execSqEvpop c v s
  | .sqCmdpush c => Sys2Proof.Machine.execSqCmdpush c s
  | .crcD1 e v => Sys2Proof.Machine.execCrcD1 e v s
  | .crcD2 e v => Sys2Proof.Machine.execCrcD2 e v s
  | .crcD4 e v => Sys2Proof.Machine.execCrcD4 e v s
  | .crcD6 e v => Sys2Proof.Machine.execCrcD6 e v s
  | .tmHi e k d => Sys2Proof.Machine.execTmHi e k d s
  | .tmLo e k d => Sys2Proof.Machine.execTmLo e k d s
  | .tmAdjRead e k d => Sys2Proof.Machine.execTmAdjRead e k d s
  | .tmAdjWrite e k v => Sys2Proof.Machine.execTmAdjWrite e k v s
  | .tmCmp c v => Sys2Proof.Machine.execTmCmp c v s
  | .tmCap c d => Sys2Proof.Machine.execTmCap c d s
  | .trcNote e t v => Sys2Proof.Machine.execTrcNote e t v s
  | .tlbWi e d => Sys2Proof.Machine.execTlbWi e d s
  | .tlbWd e d => Sys2Proof.Machine.execTlbWd e d s
  | .tlbW2 e d => Sys2Proof.Machine.execTlbW2 e d s
  | .tlbProbe e d => Sys2Proof.Machine.execTlbProbe e d s
  | .tlbInvva e d => Sys2Proof.Machine.execTlbInvva e d s
  | .tlbInvall e d => Sys2Proof.Machine.execTlbInvall e d s
  | .tlbInv2 e d => Sys2Proof.Machine.execTlbInv2 e d s
  | .tlbInv2all e d => Sys2Proof.Machine.execTlbInv2all e d s
  | .huskWrite e => Sys2Proof.Machine.execHuskWrite e s
  | .huskRead e => Sys2Proof.Machine.execHuskRead e s
  | .hskAck data err => Sys2Proof.Machine.execHskAck data err s
  | .huskTimeout => Sys2Proof.Machine.execHuskTimeout s
  | .hskInt e level => Sys2Proof.Machine.execHskInt e level s
  | .spOwnerWrite ix v => Sys2Proof.Machine.execSpOwnerWrite ix v s
  | .spHandoverDone ix => Sys2Proof.Machine.execSpHandoverDone ix s
  | .setAliasWrite req a bs => Sys2Proof.Machine.execSetAliasWrite req a bs s
  | .clearAliasWrite req a bs => Sys2Proof.Machine.execClearAliasWrite req a bs s
  | .semTakeRead k => Sys2Proof.Machine.execSemTakeRead k s
  | .semGiveWrite k => Sys2Proof.Machine.execSemGiveWrite k s
  | .semForce m => Sys2Proof.Machine.execSemForce m s
  | .eccWriteback k => Sys2Proof.Machine.execEccWriteback k s
  | .granaryTestStart => Sys2Proof.Machine.execGranaryTestStart s
  | .granaryCopyDone => Sys2Proof.Machine.execGranaryCopyDone s
  | .granaryMarchDone bad => Sys2Proof.Machine.execGranaryMarchDone bad s
  | .memtGran => Sys2Proof.Machine.execMemtGran s
  | .memtSp ix => Sys2Proof.Machine.execMemtSp ix s
  | .scratchpadLoan => Sys2Proof.Machine.execScratchpadLoan s
  | .loanEnd mismatch => Sys2Proof.Machine.execLoanEnd mismatch s
  | .shootdownGo eng l2 all ic => Sys2Proof.Machine.execShootdownGo eng l2 all ic s
  | .shootdownDone => Sys2Proof.Machine.execShootdownDone s
  | .h2bWrite sec c w v => Sys2Proof.Machine.execH2bWrite sec c w v s
  | .bbRing sec c v => Sys2Proof.Machine.execBbRing sec c v s
  | .hbClear sec c v => Sys2Proof.Machine.execHbClear sec c v s
  | .crossing c => Sys2Proof.Machine.execCrossing c s
  | .commandConsume c => Sys2Proof.Machine.execCommandConsume c s
  | .replyPost c => Sys2Proof.Machine.execReplyPost c s
  | .counterPoll => Sys2Proof.Machine.execCounterPoll s
  | .hostNop c tag => Sys2Proof.Machine.execHostNop c tag s
  | .abort c => Sys2Proof.Machine.execAbort c s
  | .info c tag => Sys2Proof.Machine.execInfo c tag s
  | .reset c tag => Sys2Proof.Machine.execReset c tag s
  | .resetTakeEffect => Sys2Proof.Machine.execResetTakeEffect s
  | .engstart c tag => Sys2Proof.Machine.execEngstart c tag s
  | .engstop c tag => Sys2Proof.Machine.execEngstop c tag s
  | .events c tag => Sys2Proof.Machine.execEvents c tag s
  | .imginfo c tag flash => Sys2Proof.Machine.execImginfo c tag flash s
  | .imgwrite c tag ext err fail late => Sys2Proof.Machine.execImgwrite c tag ext err fail late s
  | .imgverify c tag flash keyHash mono late => Sys2Proof.Machine.execImgverify c tag flash keyHash mono late s
  | .imgselect c tag => Sys2Proof.Machine.execImgselect c tag s
  | .porten c tag late => Sys2Proof.Machine.execPorten c tag late s
  | .portcfg c tag => Sys2Proof.Machine.execPortcfg c tag s
  | .portstat c tag => Sys2Proof.Machine.execPortstat c tag s
  | .csload c tag late => Sys2Proof.Machine.execCsload c tag late s
  | .wpwrite c tag => Sys2Proof.Machine.execWpwrite c tag s
  | .wpswitch c tag late => Sys2Proof.Machine.execWpswitch c tag late s
  | .wpread c tag => Sys2Proof.Machine.execWpread c tag s
  | .timeget c tag => Sys2Proof.Machine.execTimeget c tag s
  | .timeset c tag => Sys2Proof.Machine.execTimeset c tag s
  | .timeadj c tag => Sys2Proof.Machine.execTimeadj c tag s
  | .ptpcfg c tag => Sys2Proof.Machine.execPtpcfg c tag s
  | .ringctl c tag => Sys2Proof.Machine.execRingctl c tag s
  | .ringstat c tag => Sys2Proof.Machine.execRingstat c tag s
  | .routeset c tag => Sys2Proof.Machine.execRouteset c tag s
  | .slotreq c tag => Sys2Proof.Machine.execSlotreq c tag s
  | .twinstat c tag => Sys2Proof.Machine.execTwinstat c tag s
  | .handover c tag late => Sys2Proof.Machine.execHandover c tag late s
  | .resync c tag late => Sys2Proof.Machine.execResync c tag late s
  | .twinlevel c tag => Sys2Proof.Machine.execTwinlevel c tag s
  | .mtpolicy c tag => Sys2Proof.Machine.execMtpolicy c tag s
  | .mtstatus c tag => Sys2Proof.Machine.execMtstatus c tag s
  | .spowner c tag => Sys2Proof.Machine.execSpowner c tag s
  | .semfree c tag => Sys2Proof.Machine.execSemfree c tag s
  | .mode c tag late => Sys2Proof.Machine.execMode c tag late s
  | .grist c tag => Sys2Proof.Machine.execGrist c tag s
  | .gristget c tag => Sys2Proof.Machine.execGristget c tag s
  | .permitstat c tag => Sys2Proof.Machine.execPermitstat c tag s
  | .counters c tag => Sys2Proof.Machine.execCounters c tag s
  | .faultlog c tag => Sys2Proof.Machine.execFaultlog c tag s
  | .echo c tag => Sys2Proof.Machine.execEcho c tag s
  | .dmaGo c sec => Sys2Proof.Machine.execDmaGo c sec s
  | .dmaDescriptorRead c ext err => Sys2Proof.Machine.execDmaDescriptorRead c ext err s
  | .dmaChunk c ext err werr => Sys2Proof.Machine.execDmaChunk c ext err werr s
  | .dmaAbort c => Sys2Proof.Machine.execDmaAbort c s
  | .crySha256 ext err => Sys2Proof.Machine.execCrySha256 ext err s
  | .cryHmac ext err => Sys2Proof.Machine.execCryHmac ext err s
  | .cryVerify ext err => Sys2Proof.Machine.execCryVerify ext err s
  | .cryEncrypt ext aad err werr => Sys2Proof.Machine.execCryEncrypt ext aad err werr s
  | .cryDecrypt ext aad err werr => Sys2Proof.Machine.execCryDecrypt ext aad err werr s
  | .cryReservedOp => Sys2Proof.Machine.execCryReservedOp s
  | .cryDone => Sys2Proof.Machine.execCryDone s
  | .cryAbort => Sys2Proof.Machine.execCryAbort s
  | .powerRequest d m => Sys2Proof.Machine.execPowerRequest d m s
  | .pchAck keyHash => Sys2Proof.Machine.execPchAck keyHash s
  | .pchTimeout => Sys2Proof.Machine.execPchTimeout s
  | .pchWake => Sys2Proof.Machine.execPchWake s
  | .wakeTimer => Sys2Proof.Machine.execWakeTimer s
  | .enginePark m => Sys2Proof.Machine.execEnginePark m s
  | .engineWake e => Sys2Proof.Machine.execEngineWake e s
  | .blockWatchdogExpiry => Sys2Proof.Machine.execBlockWatchdogExpiry s
  | .glbWdogKick => Sys2Proof.Machine.execGlbWdogKick s
  | .permitRequest r op => Sys2Proof.Machine.execPermitRequest r op s
  | .permitGrant => Sys2Proof.Machine.execPermitGrant s
  | .permitRelease r => Sys2Proof.Machine.execPermitRelease r s
  | .budgetChange => Sys2Proof.Machine.execBudgetChange s
  | .slaveAccess write cnt sz wrap tag sec addr beats credit => Sys2Proof.Machine.execSlaveAccess write cnt sz wrap tag sec addr beats credit s
  | .registerWrite sec a v => Sys2Proof.Machine.execRegisterWrite sec a v s
  | .masterResponse e wr data err credit => Sys2Proof.Machine.execMasterResponse e wr data err credit s
  | .blTxd k v => Sys2Proof.Machine.execBlTxd k v s
  | .blTransmitStart k => Sys2Proof.Machine.execBlTransmitStart k s
  | .blTransmitEnd k lost => Sys2Proof.Machine.execBlTransmitEnd k lost s
  | .blReceive k data err par => Sys2Proof.Machine.execBlReceive k data err par s
  | .blRxdRead k => Sys2Proof.Machine.execBlRxdRead k s
  | .blTstart k v => Sys2Proof.Machine.execBlTstart k v s
  | .timedStartDue k => Sys2Proof.Machine.execTimedStartDue k s
  | .blDisarm k => Sys2Proof.Machine.execBlDisarm k s
  | .debugUnlock v => Sys2Proof.Machine.execDebugUnlock v s
  | .unlockEraseDone => Sys2Proof.Machine.execUnlockEraseDone s
  | .tapAccess a write active v => Sys2Proof.Machine.execTapAccess a write active v s
  | .tapIdent => Sys2Proof.Machine.execTapIdent s
  | .haltRequest m => Sys2Proof.Machine.execHaltRequest m s
  | .engineHalt e => Sys2Proof.Machine.execEngineHalt e s
  | .hgGo g => Sys2Proof.Machine.execHgGo g s
  | .hgResume g => Sys2Proof.Machine.execHgResume g s
  | .debugResume m => Sys2Proof.Machine.execDebugResume m s
  | .debugStep m => Sys2Proof.Machine.execDebugStep m s
  | .debugPcWrite e v => Sys2Proof.Machine.execDebugPcWrite e v s
  | .pdataRead e => Sys2Proof.Machine.execPdataRead e s
  | .pdataWrite e v => Sys2Proof.Machine.execPdataWrite e v s
  | .traceEnable on => Sys2Proof.Machine.execTraceEnable on s
  | .traceSync => Sys2Proof.Machine.execTraceSync s
  | .scanMode => Sys2Proof.Machine.execScanMode s
  | .pchAckFall => Sys2Proof.Machine.execPchAckFall s
  | .rcRead sec a => Sys2Proof.Machine.execRcRead sec a s
  | .creditGrant lane => Sys2Proof.Machine.execCreditGrant lane s
  | .tapReset => Sys2Proof.Machine.execTapReset s
  | .ieee8023brVerification p => Sys2Proof.Machine.execIeee8023brVerification p s

end Sys2Proof.Machine
end

