-- ==== Sys2Proof/Machine/Step.lean ====
section
/-! DEFINITION. One step: the command at the front of the queue, or a clock cycle when no command waits. -/

namespace Sys2Proof.Machine

/-- One step of the block: the oldest waiting command acts, on the state with the rest of the queue. With an empty queue one
ENG_CLK cycle passes (DESIGN CHOICE, log entry 1). -/
def step (s : State) : Host.Outcome State Fault Refusal :=
  match s.pending with
  | [] => .next (tick s)
  | i :: t => exec i { s with pending := t }

/-- The state with the command that a table word spells put at the front of its queue; the opcode table gives no row any
bits, so no word spells a command (log entry 40). -/
def State.withFetchWord (s : State) (nbits w : Nat) : State :=
  match Sys2Proof.decodeTableWord nbits w with
  | some i => { s with pending := i :: s.pending }
  | none => s

end Sys2Proof.Machine
end

