-- ==== Sys2Proof/Safety.lean ====
section
/-! DEFINITION. The words in which the statements speak: when a command completes, when a sequencer is about to carry out a
micro-op or a wire op, and what a command may leave to a property of the state it answers. -/

namespace Sys2Proof.Machine

/-- The command completes: it answers a next state, and that state has the property. -/
def Completes (i : Instr) (s : State) (P : State → Prop) : Prop := ∃ t, exec i s = .next t ∧ P t

/-- A wire program runs on frame `f` at port `p`, and the microword at its microprogram counter holds no uncorrectable
error and is the micro-op `u` (R36, R49). -/
def AtMicro (s : State) (p : Port) (f : Frame) (u : UOp) : Prop :=
  s.running p = some f ∧ fetchU s p = .op u ∧ fetchBad s p = false

/-- The sequencer of a port changes as `g` says, and its microprogram counter moves to the next microword; nothing else
changes. -/
def microNext (s : State) (p : Port) (g : Seq → Seq) : State :=
  s.modSeq p (fun q => { g q with upc := (g q).upc + 1, fresh := false })

/-- Comparator `c` of a sequencer changes through `g`. -/
def Seq.setCmp (q : Seq) (c : BitVec 2) (g : Cmp → Cmp) : Seq :=
  { q with cmp := q.cmp.set c.toNat (g q.cmp[c.toFin]) (by omega) }

/-- A wire program runs on frame `f` at port `p`, and its sequencer stands at the first microword of the wire op `opc`: the
dispatch has reached a routine, whose first word holds no uncorrectable error (R39, R42, R49). -/
def AtWire (s : State) (p : Port) (f : Frame) (opc : Nat) : Prop :=
  s.running p = some f ∧ dispatched s p = true ∧ (s.port p).seq.opc.toNat = opc

/-- A stomp of a frame takes effect: always before its last grain leaves; after that, a free value says whether the last byte
of its FCS is still to leave (R53, log entry 7). -/
def stompReaches (s : State) (f : Frame) : Bool := !f.allLeft || (s.freeVal 1 : BitVec 1) == 1

/-- The state once a free value has been taken, if one is. -/
def tookIf (b : Bool) (s : State) : State := if b then s.took else s

/-- The command of a micro-op that accesses frame bytes, with the frame offset and the number of bytes it accesses
(R33, R36, R37). -/
def frameField (s : State) (p : Port) : UOp → Option (Instr × Nat × Nat)
  | .ext _ a _ len disp => some (.uExt p, frameOff s p a disp, len.toNat)
  | .dep _ a _ len disp => some (.uDep p, frameOff s p a disp, len.toNat)
  | .incf a _ len disp _ => some (.uIncf p, frameOff s p a disp, len.toNat)
  | .fadd _ a disp => some (.uFadd p, frameOff s p a disp, 8)
  | .cpy _ a _ n disp => some (.uCpy p, frameOff s p a disp, n.toNat + 1)
  | .fil _ a _ n disp => some (.uFil p, frameOff s p a disp, n.toNat + 1)
  | .cmpf _ a _ len disp => some (.uCmpf p, frameOff s p a disp, len.toNat)
  | .tsi _ a _ fmt disp => some (.uTsi p, frameOff s p a disp, if fmt.toNat = 0 then 10 else if fmt.toNat = 1 then 8 else 6)
  | _ => none

/-- What a write of bytes by a sequencer does: the bytes are stored, and a write to the filling input buffer marks the
frame and, where the frame is already known bad, poisons the buffer (R75). -/
def seqStored (s : State) (p : Port) (f : Frame) (b : BitVec 2) (a : Nat) (bs : List Byte) : State :=
  if b = 1 then
    let t := (cluStore s a bs).modFrame p f.fctr (fun g => { g with fate := { g.fate with wroteFill := true } })
    if f.fate.verdict = some false then t.raise (Reg.PI.INROLE.POISON p) else t
  else cluStore s a bs

/-- An engine may issue, no boundary owes an entry, no husk transaction is under way, and the bundle that stands next is the
word `v`, which no patch unit replaces (R196, R269). -/
def Ready (s : State) (e : Eng) (v : Word) : Prop :=
  s.issues e = true ∧ (s.engine e).retry = none ∧ boundaryDue s e = .none ∧ (s.engine e).husk = none ∧
    nextBundle e s = (.bundle v, s)

/-- No control transfer, repeat or loop end is in the way of an engine, and it does not run a single step. -/
def Plain (s : State) (e : Eng) : Prop :=
  (s.engine e).flow.xfer = none ∧ (s.engine e).exc.sr.ra = false ∧
    ((s.engine e).exc.sr.la = true → (s.engine e).flow.pc ≠ (s.engine e).flow.loopEnd) ∧ (s.engine e).stepping = false

/-- A bundle has retired: the engine's own part changes through `g`, the PC moves on by 6, nothing else changes. -/
def retired (s : State) (e : Eng) (g : EngSt → EngSt) : State :=
  s.setEng e (let y := g { s.engine e with stalled := false, held := none, husk := none, fresh := false }
              { y with flow := { y.flow with pc := (s.engine e).flow.pc + 6 } })

/-- The value that a source of a move has on an engine, for general registers and immediates (R199, R233). -/
def sourceValue (x : EngSt) (f : BitVec 10) : Option Word :=
  if f.toNat < 64 then some (x.g[f.toNat]?.getD 0)
  else if 0x200 ≤ f.toNat then some ((f.extractLsb' 0 9).signExtend 48) else none

/-- `m` is the outstanding command of a channel with a tag and an opcode, the firmware serves the channel, and the command has
started or may start (R352). -/
def AtHost (s : State) (c : Fin 4) (tag op : BitVec 16) (m : HostCmd) : Prop :=
  serviceRuns s c = true ∧ (s.chan c).cmds.find? (fun x => x.tag == tag && x.op == op) = some m ∧
    (m.started = true ∨ mayStart s c m = true)

/-- The commands of a channel with a tag count as started; nothing else changes (R352). -/
def begun (s : State) (c : Fin 4) (tag : BitVec 16) : State := setCmd c tag (fun x => { x with started := true }) s

/-- The firmware ends the command `m` with STATUS, DETAIL and data, in a state that has the property: the command leaves its
channel and its replies join those that wait (R349, R358). -/
def Answers (i : Instr) (s : State) (c : Fin 4) (m : HostCmd) (status detail : Nat) (data : List Byte) (P : State → Prop) : Prop :=
  ∃ t, exec i s = .next (endCmd c m status detail data t) ∧ P t

/-- No stack, queue or FIFO holds more than it has places: 4 return addresses of a sequencer (R32), 8 inbound messages of an engine (R246),
64 entries each way of a bit line (R425), 1,024 words of trace (R461). -/
abbrev WithinDepth (s : State) : Prop :=
  (∀ p : Port, (s.port p).seq.stk.length ≤ 4) ∧ (∀ e : Eng, (s.engine e).msg.queue.length ≤ 8) ∧
    (∀ k : Line, (s.line k).tx.length ≤ 64 ∧ (s.line k).rx.length ≤ 64) ∧ s.trace.fifo.length ≤ 1024

/-- A requester of the permit unit stands at most once among the permits granted, the requests in the queue and those set aside (R402,
R404). -/
abbrev OneEach (q : PermitSt) : Prop := ((q.granted ++ q.queue ++ q.aside).map (·.1)).Nodup

end Sys2Proof.Machine
end

