-- ==== Sys2Proof/WellFormed.lean ====
section
/-! DEFINITION. The operand values that a command can have: what its source at the boundary, or inside the block, can
present. -/

namespace Sys2Proof

/-- A command that the boundary or the block's own units can send. Commands whose operands have no limit beyond their types
are well formed as they are. -/
def Instr.wf : Instr → Bool
  -- a grain holds 16 bytes, or as the last of its frame 1 to 16 (R21), and an interpolator has 16 taps (R99)
  | .grainAvailable _ bytes last _ _ _ tap =>
    (bytes.length == 16 || (last && decide (1 ≤ bytes.length ∧ bytes.length ≤ 16))) && decide (tap < 16)
  | .txDescriptorStart _ tap => decide (tap < 16)
  | .txLaunch _ tap => decide (tap < 16)
  | .thruLaunch b => decide (b.tap < 16)
  -- the operations of the memory tester are 0 to 2 (R402)
  | .permitRequest _ op => decide (op ≤ 2)
  -- the repair chain has 2,064 bits (R434), and the flash has two status registers (R369, log entry 73)
  | .startUp _ _ flash record _ => decide (record.length = 2064) && decide (flash.regs.length ≤ 2)
  -- an instruction cache line holds 64 bytes (R334)
  | .icacheFill _ _ data _ _ => decide (data.length ≤ 64)
  -- an alias write stays within one 16-byte row (R293)
  | .setAliasWrite _ a bs => decide (1 ≤ bs.length) && decide (a.toNat % 16 + bs.length ≤ 16)
  | .clearAliasWrite _ a bs => decide (1 ≤ bs.length) && decide (a.toNat % 16 + bs.length ≤ 16)
  -- the write beats of a command are those that CNT counts (R414)
  | .slaveAccess write cnt _ _ _ _ _ beats _ => decide (beats.length = if write then cnt.val + 1 else 0)
  -- an engine reads at most 16 bytes at a time (R224, R271)
  | .masterResponse _ wr data _ _ => decide (data.length ≤ if wr then 0 else 16)
  | _ => true

end Sys2Proof
end

