-- ==== Sys2Proof/Certificates/Slice0/Obligations.lean ====
section
/-! DEFINITION. The statements for the provers, each a proposition about the model; its docstring names the rules it rests on. -/

open Sys2Proof Sys2Proof.Machine

/-- A step takes the command at the front of the queue and is `exec` of it on the state with the queue's rest; on an empty
queue it is one clock cycle (the block's form of 'a step runs the command'; log entry 1 for the empty queue). -/
def Obligations.StepRunsTheFrontCommand : Prop :=
  ∀ (c : Instr) (q : List Instr) (s : State),
    step { s with pending := c :: q } = exec c { s with pending := q } ∧
    step { s with pending := [] } = .next (tick { s with pending := [] })

/-- The state right after reset, and what each reset of the block and of an engine leaves (R189, R245, R297, R303, R391, R393,
R410, R447). What registers without a stated reset value hold, and that memories read 0, are the model's choices (log entries
3 and 4). That a pulse of RST_N of 20 to 100 ns resets, that a reset asserted during an erase is noted and waits, that causes add up and
that the TAP is kept are its readings (log entry 50), and so are the power controller's handshake at a reset (log entry 21) and the
registers of an engine's translation at its reset (log entry 34). -/
def Obligations.ResetCommands : Prop :=
  (∀ f : Fld, State.reset.get f = f.rst) ∧ State.reset.pending = [] ∧
  (∀ e : Eng, (State.reset.engine e).exc.sr.mask = 7 ∧ (State.reset.engine e).msg.edb = 0 ∧ (State.reset.engine e).msg.queue = [] ∧
    (State.reset.engine e).xl.lines = [] ∧ (State.reset.engine e).resv = none) ∧
  ∀ s : State,
    let banks := (List.range 17).filter (fun p => !s.bit Reg.MEMT.BAD.BAD p)
    let mapped : List Fld := Reg.MEMT.SPARE.PBANK :: Reg.MEMT.STAT.UNMAPPED :: (List.range 16).map Reg.MEMT.MAP.PB
    let isReset (u : State) (k : Nat) (t : State) : Prop :=
      t.boot.inReset = true ∧ t.boot.causes.testBit k = true ∧ (u.boot.inReset = false → t.boot.causes = 2 ^ k) ∧
      (∀ f ∈ alwaysOn, t.get f = u.get f % 2 ^ f.w) ∧
      (∀ f : Fld, (∀ g ∈ alwaysOn ++ mapped, Fld.key g ≠ Fld.key f) → t.get f = f.rst) ∧
      (∀ l < 16, t.get (Reg.MEMT.MAP.PB l) = banks.getD l 0x1F) ∧ t.get Reg.MEMT.SPARE.PBANK = banks.getD 16 0x1F ∧
      t.mem = [] ∧ t.eng = State.reset.eng ∧ t.ports = State.reset.ports ∧
      (∀ d : Fin 4, t.time[d] = if (savedDomains u).contains 0 then { TimeDom.reset with hi := u.time[d].hi, lo := u.time[d].lo }
        else TimeDom.reset) ∧
      (∀ n : Clu, t.clu n = if (savedDomains u).contains (n.val + 1) then { ClusterSt.reset with cnt := (u.clu n).cnt }
        else ClusterSt.reset) ∧
      t.rings = State.reset.rings ∧ t.chans = State.reset.chans ∧ t.twin = State.reset.twin ∧ t.tap = { u.tap with busy := none } ∧
      t.power.pch = u.power.pch.filter (fun h => !h.req) ∧ t.pending = u.pending ∧ t.out = u.out
    let queued (k : Nat) : State := { s with boot := { s.boot with queued := some (s.boot.queued.getD 0 ||| 2 ^ k) } }
    (exec .powerOnReset s = .next (if s.on Reg.DBG.LOCK.ERASING then queued 0 else
      { State.reset with pending := s.pending, out := s.out, free := s.free, hskInt := s.hskInt,
                         tap := { State.reset.tap with edges := s.tap.edges } })) ∧
    (∀ ns, ns < 20 → exec (.rstNAssert ns) s = .fault .resetPulseTooShort) ∧
    (∀ ns, 20 ≤ ns → s.on Reg.DBG.LOCK.ERASING = true → exec (.rstNAssert ns) s = .next (queued 1)) ∧
    (∀ ns, 20 ≤ ns → s.on Reg.DBG.LOCK.ERASING = false → Completes (.rstNAssert ns) s (isReset s 1)) ∧
    (∀ cause : Fin 4, s.on Reg.DBG.LOCK.ERASING = true → exec (.blockReset cause) s = .next (queued (cause.val + 1))) ∧
    (∀ cause : Fin 4, s.on Reg.DBG.LOCK.ERASING = false → Completes (.blockReset cause) s (isReset s (cause.val + 1))) ∧
    (s.get Reg.GLB.WDOG.PER.MS = 0 ∨ s.on Reg.DBG.WDHOLD.HOLD = true ∨ s.boot.inReset = true →
      exec .blockWatchdogExpiry s = .next s) ∧
    (s.get Reg.GLB.WDOG.PER.MS ≠ 0 → s.on Reg.DBG.WDHOLD.HOLD = false → s.boot.inReset = false →
      s.on Reg.DBG.LOCK.ERASING = false →
      Completes .blockWatchdogExpiry s (fun t =>
        (hasPartner s = false ∨ s.bit Reg.GLB.MI.LINK.LINK 8 = false → isReset s 3 t) ∧
        (hasPartner s = true → s.bit Reg.GLB.MI.LINK.LINK 8 = true →
          ∃ frame, t.out = .frame 8 frame :: s.out ∧ isReset { s with out := .frame 8 frame :: s.out } 3 t))) ∧
    (∀ e : Eng, Completes (.engineReset e) s (fun t =>
      t.engine e = { EngSt.reset with posted := (s.engine e).posted, seqn := (s.engine e).seqn } ∧
      (∀ j : Eng, j ≠ e → t.engine j = s.engine j) ∧ t.bit Reg.FLT.RUN.ENG e = false ∧
      (∀ j : Eng, j ≠ e → t.bit Reg.FLT.RUN.ENG j = s.bit Reg.FLT.RUN.ENG j) ∧
      t.bit Reg.PWR.EIDLE.ENG e = false ∧
      (∀ f : Fld, Reg.xlBase e ≤ f.addr → f.addr + 4 ≤ Reg.xlBase e + 0x18 → f.lo < 32 → t.get f = f.rst) ∧
      t.mem = s.mem ∧ t.ports = s.ports ∧ t.clusters = s.clusters ∧ t.l2 = s.l2 ∧
      (∀ i < 64, t.get (Reg.SEM.HOLD.HELD i) = s.get (Reg.SEM.HOLD.HELD i) ∧ t.get (Reg.SEM.HOLD.REQ i) = s.get (Reg.SEM.HOLD.REQ i)) ∧
      (onLoan s e = false → ∀ j < 14, t.get (Reg.SP.OWNER.OWNER j) = s.get (Reg.SP.OWNER.OWNER j))))

/-- Start-up (R301, R368-R370, R378-R381, R392, R435): the release of a block reset with the sampled BOOT_SEL, the repair record,
flash discovery and the choice of a slot; an image that fails a check and one that passes; the jump to the firmware; and a
cluster's reset by command. The jump and what a failed check of the staged image leaves are the model's readings (log entry 20), the
stages that wait for a permit and for control-store loads follow log entry 55, and the commands on the boot port follow the layout of
JESD216 (log entry 73). -/
def Obligations.StartUp : Prop :=
  ∀ s : State,
    let failed (k : Nat) : Bool := s.on (if k = 0 then Reg.GLB.BOOT.STAT.FAILA else Reg.GLB.BOOT.STAT.FAILB)
    (∀ sel div answers sfdp regs record fid, s.boot.inReset = false →
      exec (.startUp ⟨sel, div⟩ answers ⟨sfdp, regs⟩ record fid) s = .next s) ∧
    (∀ (sel : Bool) (div : BitVec 2) (answers : Bool) (sfdp regs : List Byte) (record : List Bool) (fid : BitVec 64),
      s.boot.inReset = true → s.get Reg.GLB.BOOT.CTRL.PREF < 2 →
      let pin := s.boot.causes.testBit 0 || s.boot.causes.testBit 1
      let host := if pin then sel else s.boot.sel
      let speed := if pin then div else s.boot.div
      let silent := !answers && (sfdpBytes sfdp 0 16).all (fun b => b == 0xFF || b == 0)
      Completes (.startUp ⟨sel, div⟩ answers ⟨sfdp, regs⟩ record fid) s (fun t =>
        t.boot.inReset = false ∧ t.boot.sel = host ∧ t.boot.div = speed ∧
        t.credits.slCmd = 16 ∧ t.credits.slWd = 16 ∧ t.credits.mlRd = 64 ∧ t.credits.mlWc = 16 ∧
        ([Reg.GLB.RST.CAUSE.POR, Reg.GLB.RST.CAUSE.PIN, Reg.GLB.RST.CAUSE.SOFT, Reg.GLB.RST.CAUSE.BWDOG, Reg.GLB.RST.CAUSE.WAKE].zipIdx).all
          (fun x => t.on x.1 == (s.boot.causes.testBit x.2 || s.on x.1)) = true ∧
        t.get Reg.TIL.FID_L.FID = fid.toNat % 2 ^ 32 ∧ t.get Reg.TIL.FID_H.FID = fid.toNat / 2 ^ 32 ∧
        (repairGood record = true → t.get Reg.MEM.RSTAT.USED = repairUsed record ∧
          t.get Reg.MEM.RSTAT.RFAIL = s.get Reg.MEM.RSTAT.RFAIL) ∧
        (repairGood record = false → t.get Reg.MEM.RSTAT.RFAIL = 1) ∧
        (t.engine 0).flow.pc = 0 ∧ (t.engine 0).boot = false ∧ (∀ e : Eng, e ≠ 0 → t.engine e = s.engine e) ∧
        (∀ a, ¬ (0x600000 ≤ a ∧ a < 0x610000) → t.byte a = s.byte a) ∧
        (host = true → t.get Reg.GLB.BOOT.STAT.STAGE = 1 ∧ t.out = Out.repair 2064 :: s.out) ∧
        (host = false → t.out = (discoverCmds speed sfdp regs).reverse ++ Out.repair 2064 :: s.out) ∧
        (host = false → silent = true → t.get Reg.GLB.BOOT.STAT.STAGE = 7 ∧ t.get Reg.GLB.BOOT.STAT.RESULT = 1) ∧
        (host = false → silent = false →
          let p := s.get Reg.GLB.BOOT.CTRL.PREF
          t.boot.read = (if sfdpValid sfdp then chooseRead sfdp (2 * (1 + speed.toNat)) else FlashRead.plain) ∧
          (sfdpValid sfdp = false → t.get Reg.GLB.BOOT.STAT.NOSFDP = 1) ∧
          (failed p = false → t.get Reg.GLB.BOOT.STAT.STAGE = 2 ∧ t.get Reg.GLB.BOOT.STAT.SLOT = p) ∧
          (failed p = true → failed (1 - p) = false →
            t.get Reg.GLB.BOOT.STAT.STAGE = 2 ∧ t.get Reg.GLB.BOOT.STAT.SLOT = 1 - p) ∧
          (failed p = true → failed (1 - p) = true → t.get Reg.GLB.BOOT.STAT.STAGE = 7)))) ∧
    (∀ bytes err key mono, s.bootRuns = false ∨ s.boot.job = none ∧ s.get Reg.GLB.BOOT.STAT.STAGE ≠ 2 →
      exec (.imageStaged bytes err key mono) s = .next s) ∧
    (∀ (bytes : List Byte) (err : Bool) (key : BitVec 256) (mono : BitVec 32), s.bootRuns = true →
      let row := Instr.imageStaged bytes err key mono
      let fails (r : Nat) (t : State) : Prop := t.get Reg.GLB.BOOT.STAT.RESULT = r ∧ t.ports = s.ports ∧
        (s.on Reg.GLB.BOOT.STAT.SRC = true → t.get Reg.GLB.BOOT.STAT.STAGE = 7) ∧
        (s.on Reg.GLB.BOOT.STAT.SRC = false →
          t.on (if s.get Reg.GLB.BOOT.STAT.SLOT = 0 then Reg.GLB.BOOT.STAT.FAILA else Reg.GLB.BOOT.STAT.FAILB) = true ∧
          (s.boot.tries = [] → t.get Reg.GLB.BOOT.STAT.STAGE = 7) ∧
          (∀ k rest, k < 2 → s.boot.tries = k :: rest → t.get Reg.GLB.BOOT.STAT.STAGE = 2 ∧ t.get Reg.GLB.BOOT.STAT.SLOT = k ∧
            t.boot.tries = rest))
      let checked (u : State) (b : List Byte) : Prop :=
        let n := stagedLength b
        let image := b.take n ++ List.replicate (n - b.length) 0
        let v := (u.store stagingBase image).put Reg.GLB.BOOT.STAT.STAGE 3
        let verdict := if stagedGood v then checkImage image key mono.toNat else .error 10
        stagedImage v = image ∧
        (stagingMapped u n = false → Completes row s (fails 10)) ∧
        (stagingMapped u n = true → n ≤ 65536 →
          (∀ r, verdict = .error r → r < 16 → Completes row s (fails r)) ∧
          (∀ rs, verdict = .ok rs → exec row s = .next (applyImage rs image (setJob none (readStaged v))))) ∧
        (stagingMapped u n = true → 65536 < n →
          exec row s = .next (checkStaged ⟨true, false, false, [], [], []⟩ key mono.toNat (askPermit cryPermitReq 0 v)))
      (s.boot.job = none → s.get Reg.GLB.BOOT.STAT.STAGE = 2 →
        (s.on Reg.GLB.BOOT.STAT.SRC = false →
          checked (s.emit (readSlot s.boot.read (s.get Reg.GLB.BOOT.STAT.SLOT) (stagedLength bytes))) bytes) ∧
        (s.on Reg.GLB.BOOT.STAT.SRC = true →
          let b := hostBytes s (hostImage s) bytes err
          let u := sourceRead 11 loaderReq (hostImage s) (max 0x60 b.1.length) b s
          (u.1 = false → exec row s = .next u.2) ∧
          (u.1 = true → b.2 = true → Completes row s (fails 9)) ∧
          (u.1 = true → b.2 = false → checked u.2 b.1))) ∧
      (∀ j, s.boot.job = some j →
        (j.checked = false → j.asked = true → s.holds cryPermitReq = false → exec row s = .next s) ∧
        (j.checked = false → (j.asked = false ∨ s.holds cryPermitReq = true) →
          (∀ r, (if stagedGood s then checkImage (stagedImage s) key mono.toNat else .error 10) = .error r → r < 16 →
            Completes row s (fails r)) ∧
          (∀ rs, (if stagedGood s then checkImage (stagedImage s) key mono.toNat else .error 10) = .ok rs →
            exec row s = .next (applyImage rs (stagedImage s)
              (if j.asked then releaseCheck (setJob none (readStaged s)) else setJob none (readStaged s))))) ∧
        (j.checked = true → loadsFailed s j = true → s.on Reg.GLB.BOOT.STAT.SRC = true → Completes row s (fails 11)) ∧
        (j.checked = true → loadsFailed s j = true → s.on Reg.GLB.BOOT.STAT.SRC = false → exec row s = .next (blockReset 2
          ((setJob none s).raise (if s.get Reg.GLB.BOOT.STAT.SLOT = 0 then Reg.GLB.BOOT.STAT.FAILA else Reg.GLB.BOOT.STAT.FAILB)))) ∧
        (j.checked = true → loadsFailed s j = false → ∀ k u, loadsGoOn j s = (k, u) →
          (k.todo ≠ [] ∨ k.flight ≠ [] → Completes row s (fun t => t.boot.job = some k)) ∧
          (k.todo = [] → k.flight = [] → Completes row s (fun t => t.boot.job = none ∧ t.boot.accepted = true))))) ∧
    ((s.boot.accepted = false ∨ s.get Reg.GLB.BOOT.STAT.STAGE ≠ 5 ∨ s.bootRuns = false) → exec .imageStart s = .next s) ∧
    (s.boot.accepted = true → s.get Reg.GLB.BOOT.STAT.STAGE = 5 → s.bootRuns = true →
      Completes .imageStart s (fun t =>
        t.get Reg.GLB.BOOT.STAT.STAGE = 6 ∧ t.boot.accepted = false ∧ t.mem = s.mem ∧ t.ports = s.ports ∧
        (∀ a, entryOf (stagedRecords s) 0 = some a → (t.engine 0).flow.pc = BitVec.ofNat 48 a) ∧
        (∀ e : Eng, e ≠ 0 → ∀ a, entryOf (stagedRecords s) e = some a → (s.engine e).boot = true → s.engRuns e = true →
          (t.engine e).flow.pc = BitVec.ofNat 48 a ∧ (t.engine e).boot = false) ∧
        (∀ e : Eng, e ≠ 0 → entryOf (stagedRecords s) e = none → t.engine e = s.engine e) ∧
        (∀ c < 4, t.get (Reg.MB.STAT.READY c) = 1 ∧ t.bit (Reg.DB.HB.BITS c) 0 = true))) ∧
    (∀ (n : Clu) (key : BitVec 256),
      let ports := domPorts (n.val + 1)
      (s.boot.inReset = true ∨ s.cluUp n = false → exec (.clusterReset n key) s = .next s) ∧
      (s.boot.inReset = false → s.cluUp n = true → (s.clu n).restore.isSome = true →
        exec (.clusterReset n key) s = .next (restoreGoOn n key s)) ∧
      (s.boot.inReset = false → s.cluUp n = true → (s.clu n).restore = none → ports.any (fun p => s.on (Reg.PX.STAT.ENACT p)) = true →
        Completes (.clusterReset n key) s (fun t => t.eng = s.eng ∧ t.mem = s.mem ∧ t.clusters = s.clusters ∧
          ∀ p ∈ ports, t.get (Reg.PX.CTRL.EN p) = 0 ∧ t.get (Reg.PX.STAT.ENACT p) = s.get (Reg.PX.STAT.ENACT p))) ∧
      (s.boot.inReset = false → s.cluUp n = true → (s.clu n).restore = none → ports.any (fun p => s.on (Reg.PX.STAT.ENACT p)) = false →
        exec (.clusterReset n key) s = .next (restoreCluster n key false (clusterReset n true s))) ∧
      (let t := clusterReset n true s
       t.mem = s.mem ∧ t.clu n = ClusterSt.reset ∧ (∀ m : Clu, m ≠ n → t.clu m = s.clu m) ∧
       (∀ p ∈ ports, t.port p = { PortSt.reset with inSeq := (s.port p).inSeq, outSeq := (s.port p).outSeq }) ∧ (∀ p : Port, p ∉ ports → t.port p = s.port p) ∧
       (∀ e : Eng, engDom e ≠ n.val + 1 → t.engine e = s.engine e) ∧
       (∀ e : Eng, engDom e = n.val + 1 → (t.engine e).boot = true ∧ (t.engine e).g = EngSt.reset.g ∧
         t.bit Reg.FLT.RUN.ENG e = true) ∧
       (∀ f : Fld, Reg.cluBase n ≤ f.addr → f.addr + 4 ≤ Reg.cluBase n + 0x10000 → f.lo < 32 → t.get f = f.rst)))

/-- Accesses from outside the block (R5, R7, R342, R344, R345, R380, R381, R413-R416, R444, R449, R468): the status of a register
access by its precedence and what each access type does, the mailbox words and doorbells, GO and CLRFAIL, the command buffer
and credits of the slave port, and the debug TAP's access. That a command without its credits is dropped whole and counts each of its
transfers, that a command is served at once, and that the mailbox region answers POWER in reset and nothing else answers, are the model's
readings (log entries 51 and 56); so is what an access of the TAP waits for (log entry 78). -/
def Obligations.RegisterRows : Prop :=
  (∀ (s : State) (f : Fld) (v : Nat),
    let u := writeField v s f
    (f.acc = .rw → u.get f = v / 2 ^ f.lo % 2 ^ f.w) ∧
    (f.acc = .w1c → ∀ i < f.w, u.bit f i = (s.bit f i && !v.testBit (f.lo + i))) ∧
    (f.acc = .w1s → ∀ i < f.w, u.bit f i = (s.bit f i || v.testBit (f.lo + i))) ∧
    (f.acc = .ro ∨ f.acc = .wo ∨ f.acc = .rc → u = s) ∧ (∀ g : Fld, Fld.key g ≠ Fld.key f → u.get g = s.get g) ∧ u.mem = s.mem) ∧
  (∀ (s : State) (fs : List Fld), fs.Pairwise (fun f g => Fld.key f ≠ Fld.key g) →
    clearRc true fs s = s ∧ (∀ f ∈ fs, (clearRc false fs s).get f = if f.acc = .rc then 0 else s.get f)) ∧
  ∀ s : State,
    let up : Bool := !s.boot.inReset && s.up 0
    (∀ (sec : Bool) (a : BitVec 22) (v : BitVec 32),
      let st := regStatus s 14 sec true a.toNat
      (regUp s a.toNat = false → st = stPower) ∧
      (regUp s a.toNat = true → sec = false → secureOnly a.toNat true = true → st = stSecurity) ∧
      (regUp s a.toNat = true → sec = true → lockedAway s a.toNat = false → Reg.fieldsAt a.toNat = [] → st = stDecode) ∧
      (regUp s a.toNat = true → sec = true → lockedAway s a.toNat = false → Reg.fieldsAt a.toNat ≠ [] →
        (Reg.fieldsAt a.toNat).any Fld.writable = false → st = stReadonly) ∧
      (st ≠ stOkay → exec (.registerWrite sec a v) s = .next { regRefused st true a.toNat s with ans := ⟨st, 0⟩ }) ∧
      (st = stOkay → exec (.registerWrite sec a v) s = .next { writeReg32 14 sec a.toNat v.toNat s with ans := ⟨stOkay, 0⟩ })) ∧
    (∀ (sec : Bool) (a : BitVec 22),
      let st := regStatus s 14 sec false a.toNat
      (st ≠ stOkay → exec (.rcRead sec a) s = .next { regRefused st false a.toNat s with ans := ⟨st, 0⟩ }) ∧
      (st = stOkay → lockedAway s a.toNat = true → exec (.rcRead sec a) s = .next { s with ans := ⟨stOkay, 0⟩ }) ∧
      (st = stOkay → lockedAway s a.toNat = false → exec (.rcRead sec a) s = .next
        { (readReg false a.toNat s).2 with ans := ⟨stOkay, (readReg false a.toNat s).1 % 2 ^ 32⟩ })) ∧
    (∀ (sec : Bool) (c : Fin 4) (w : BitVec 8) (v : BitVec 32),
      (up = false → Completes (.h2bWrite sec c w v) s (fun t => t = { s with ans := ⟨stPower, 0⟩ })) ∧
      (up = true → sec = false → c.val < 2 → Completes (.h2bWrite sec c w v) s (fun t =>
        t.ans = ⟨stSecurity, 0⟩ ∧ t.mem = s.mem ∧ t.eng = s.eng ∧ t.chans = s.chans)) ∧
      (up = true → (c.val < 2 → sec = true) → s.bit (Reg.DB.BB.BITS c) 0 = true → Completes (.h2bWrite sec c w v) s (fun t =>
        t = { s.count (Reg.MB.BUSYCNT.CNT c) with ans := ⟨stBusy, 0⟩ })) ∧
      (up = true → (c.val < 2 → sec = true) → s.bit (Reg.DB.BB.BITS c) 0 = false → Completes (.h2bWrite sec c w v) s (fun t =>
        t = { s with mem := t.mem, ans := ⟨stOkay, 0⟩ } ∧
        t.mem = memSetAll s.mem (0x10000 + 0x4000 * c.val + 4 * w.toNat) (bytesLE 4 v.toNat)))) ∧
    (∀ (sec : Bool) (c : Fin 4) (v : BitVec 32), up = true → (c.val < 2 → sec = true) →
      Completes (.bbRing sec c v) s (fun t => t.ans = ⟨stOkay, 0⟩ ∧ t.mem = s.mem ∧ t.eng = s.eng ∧
        ∀ i < (Reg.DB.BB.BITS c).w, t.bit (Reg.DB.BB.BITS c) i = (s.bit (Reg.DB.BB.BITS c) i || v.getLsbD i)) ∧
      Completes (.hbClear sec c v) s (fun t => t.ans = ⟨stOkay, 0⟩ ∧ t.mem = s.mem ∧ t.eng = s.eng ∧
        (∀ i < (Reg.DB.HB.BITS c).w, t.bit (Reg.DB.HB.BITS c) i = (s.bit (Reg.DB.HB.BITS c) i && !v.getLsbD i)) ∧
        (s.bit (Reg.DB.HB.BITS c) 1 = true → v.getLsbD 1 = true → t.bit (Reg.DB.BB.BITS c) 1 = true))) ∧
    (up = true → s.get Reg.GLB.BOOT.CTRL.PREF < 2 →
      Completes .clrfail s (fun t => t.ans = ⟨stOkay, 0⟩ ∧ t.get Reg.GLB.BOOT.STAT.FAILA = 0 ∧ t.get Reg.GLB.BOOT.STAT.FAILB = 0 ∧
        t.get Reg.GLB.BOOT.CTRL.PREF = s.get Reg.GLB.BOOT.CTRL.PREF ∧ t.get Reg.GLB.BOOT.STAT.STAGE = s.get Reg.GLB.BOOT.STAT.STAGE ∧
        t.mem = s.mem ∧ t.eng = s.eng) ∧
      Completes .bootGo s (fun t => t.ans = ⟨stOkay, 0⟩ ∧ t.mem = s.mem ∧ t.eng = s.eng ∧
        t.get Reg.GLB.BOOT.CTRL.PREF = s.get Reg.GLB.BOOT.CTRL.PREF ∧
        (let g := s.get Reg.GLB.BOOT.STAT.STAGE
         (g ≠ 1 ∧ g ≠ 7 ∨ s.bootRuns = false → t.get Reg.GLB.BOOT.STAT.STAGE = g) ∧
         (s.bootRuns = true → g = 1 ∨ g = 7 → hostSource (hostImage s) = true → t.get Reg.GLB.BOOT.STAT.STAGE = 2 ∧ t.get Reg.GLB.BOOT.STAT.SRC = 1) ∧
         (s.bootRuns = true → g = 1 ∨ g = 7 → hostSource (hostImage s) = false → t.get Reg.GLB.BOOT.STAT.STAGE = 7 ∧
           t.get Reg.GLB.BOOT.STAT.RESULT = 12)))) ∧
    (up = false → exec .clrfail s = .next { s with ans := ⟨stPower, 0⟩ } ∧ exec .bootGo s = .next { s with ans := ⟨stPower, 0⟩ }) ∧
    (∀ (write : Bool) (cnt : Fin 16) (sz : Fin 8) (wrap : Bool) (tag : BitVec 8) (sec : Bool) (addr : BitVec 27)
      (beats : List (BitVec 128 × BitVec 16)) (credit : Bool),
      let n := if write then cnt.val + 1 else 0
      let c : SlCmd := ⟨write, cnt, sz, wrap, tag, sec, addr, beats.take n ++ List.replicate (n - beats.length) (0, 0)⟩
      let i : Instr := .slaveAccess write cnt sz wrap tag sec addr beats credit
      let k := s.credits
      let u : State := { s with slCmds := s.slCmds ++ [c], credits := { k with slCmd := k.slCmd - 1, slWd := k.slWd - n } }
      (s.boot.inReset = true → exec i s = .next (if credit && decide (addr.toNat / 0x10000 = 1) then serveCmd c s else s)) ∧
      (s.boot.inReset = false → credit = false ∨ k.slCmd = 0 ∨ k.slWd < n →
        exec i s = .next (s.count Reg.GLB.SYS.CRDERR.SLAVE (1 + n))) ∧
      (s.boot.inReset = false → credit = true → 0 < k.slCmd → n ≤ k.slWd → exec i s = .next (serveBuffer u)) ∧
      (s.slCmds = [] → 16 ≤ unanswered s write → serveBuffer u = u) ∧
      (s.slCmds = [] → unanswered s write < 16 → serveBuffer u = tapGoes (serveAll 16 (serveCmd c
        { s with credits := { k with slCmd := k.slCmd - 1 + 1, slWd := k.slWd - n + n } }))) ∧
      (s.up 0 = false → c.status s = stPower) ∧
      (s.up 0 = true → s.boot.inReset = false → 0x400000 ≤ addr.toNat → windowStatus s 14 write addr.toNat = stOkay →
        c.malformed = true → c.status s = stDecode) ∧
      (c.status s ≠ stOkay → write = true → slaveWrite c s = (c.status s, c.refused (c.status s) s)) ∧
      (c.status s ≠ stOkay → write = false →
        (slaveRead false c s).1 = c.addrs.map (fun _ => (c.status s, List.replicate c.size 0)))) ∧
    (∀ lane : Fin 4,
      (s.boot.inReset = true → exec (.creditGrant lane) s = .next s) ∧
      (s.boot.inReset = false → s.slCmds = [] → s.mlQueue = [] → s.slQueue = [] → s.tap.busy = none →
        exec (.creditGrant lane) s = .next { s with credits := { s.credits with
          rd := s.credits.rd + (if lane = 0 then 1 else 0), wc := s.credits.wc + (if lane = 1 then 1 else 0),
          cmd := s.credits.cmd + (if lane = 2 then 1 else 0), wd := s.credits.wd + (if lane = 3 then 1 else 0) } })) ∧
    (∀ (a : BitVec 27) (write active : Bool) (v : BitVec 32),
      let i : Instr := .tapAccess a write active v
      let word := a.toNat / 4 * 4
      let r : TapReq := ⟨a, write, active, v⟩
      let u := tapAt .updateDr 4 (bitList 64 (a.toNat + 2 ^ 27 * write.toNat + 2 ^ 28 * active.toNat + 2 ^ 32 * v.toNat)) s
      let asked : State := { u with tap := { u.tap with busy := some r } }
      r.cmd = ⟨write, 0, 2, false, 0, true, BitVec.ofNat 27 word, if write then
        [(BitVec.ofNat 128 (v.toNat * 2 ^ (8 * (word % 16))), BitVec.ofNat 16 (15 * 2 ^ (word % 16)))] else []⟩ ∧
      (s.tap.busy.isSome = true → exec i s = .next u) ∧
      (s.tap.busy = none → s.slCmds ≠ [] → exec i s = .next asked) ∧
      (s.tap.busy = none → s.slCmds = [] → s.on Reg.DBG.LOCK.OPEN = false →
        exec i s = .next { u with tap := { u.tap with code := stSecurity, data := 0, busy := none } }) ∧
      (s.tap.busy = none → s.slCmds = [] → s.on Reg.DBG.LOCK.OPEN = true → write = true →
        let w := slaveWrite r.cmd asked
        exec i s = .next { w.2 with tap := { w.2.tap with code := w.1, data := 0, busy := none } }) ∧
      (s.tap.busy = none → s.slCmds = [] → s.on Reg.DBG.LOCK.OPEN = true → write = false →
        let q := slaveRead (!active) r.cmd asked
        let beat := q.1.getD 0 (0, [])
        exec i s = .next { q.2 with tap := { q.2.tap with code := beat.1, data := BitVec.ofNat 32 (natLE beat.2), busy := none } }))

/-- Images, the wire-program memory, port service and links (R26, R44, R49, R62, R73, R84, R86, R87, R177, R420, R422, R423). The
read of a control-store or dispatch word with a single-bit error counts it, and the write-back removes the error. Where a memory does not
answer, a write of the block's own hardware leaves it as it was (log entry 75). -/
def Obligations.PortCommands : Prop :=
  ∀ (s : State) (p : Port),
    let x := s.port p
    (s.on (Reg.PI.INROLE.NEW p) = true → Completes (.take p) s (fun t =>
      t.get (Reg.PI.INROLE.HELD p) = s.get (Reg.PI.INROLE.READY p) % 4 ∧
      t.get (Reg.PI.INROLE.READY p) = s.get (Reg.PI.INROLE.HELD p) % 4 ∧
      t.get (Reg.PI.INROLE.NEW p) = 0 ∧ t.get (Reg.PI.INROLE.HVALID p) = 1 ∧ t = { s with cells := t.cells })) ∧
    (s.on (Reg.PI.INROLE.NEW p) = false → exec (.take p) s = .next s) ∧
    (twinned s (p.val / 2) = false → Completes (.publish p) s (fun t =>
      t.get (Reg.PI.OUTROLE.READY p) = s.get (Reg.PI.OUTROLE.FILL p) % 4 ∧
      t.get (Reg.PI.OUTROLE.FILL p) = s.get (Reg.PI.OUTROLE.READY p) % 4 ∧ t.get (Reg.PI.OUTROLE.NEW p) = 1 ∧
      (t.port p).outSeq = x.outSeq + 1 ∧ t.out = s.out ∧
      (let fill := s.get (Reg.PI.OUTROLE.FILL p)
       let b := outBuf s p fill
       (s.answers b = true → t.bytes b 16 =
         bytesLE 6 (x.outSeq + 1).toNat ++ bytesLE 2 0 ++ bytesLE 6 s.now0 ++ bytesLE 1 0 ++ bytesLE 1 fill) ∧
       (s.answers b = false → t.mem = s.mem) ∧ ∀ a, ¬ (b ≤ a ∧ a < b + 16) → t.byte a = s.byte a))) ∧
    (twinned s (p.val / 2) = true → twinState s = 6 → exec (.publish p) s = .next (s.raise Reg.TWN.EVT.PUBIGN)) ∧
    (∀ v, Completes (.wpmDataWrite p v) s (fun t =>
      t.get (Reg.WSQ.WPM.IDX.IDX p) = (s.get (Reg.WSQ.WPM.IDX.IDX p) + 1) % 1024 ∧
      (s.get (Reg.WSQ.WPM.IDX.BANK p) = s.get (Reg.WSQ.STAT.WPBANKACT p) → t.ports = s.ports) ∧
      (s.get (Reg.WSQ.WPM.IDX.BANK p) ≠ s.get (Reg.WSQ.STAT.WPBANKACT p) →
        ∀ b i, i < 1024 → s.get (Reg.WSQ.WPM.IDX.IDX p) < 1024 → (lookup (1024 * b + i) (t.port p).wpm).getD 0 =
          if b = s.get (Reg.WSQ.WPM.IDX.BANK p) ∧ i = s.get (Reg.WSQ.WPM.IDX.IDX p) then v.toNat
          else (lookup (1024 * b + i) x.wpm).getD 0) ∧ t.mem = s.mem)) ∧
    (x.csFixed = [] → exec (.csEccWriteback p) s = .next s) ∧
    (∀ k rest, x.csFixed = k :: rest → Completes (.csEccWriteback p) s (fun t =>
      t.cells = s.cells ∧ t.mem = s.mem ∧ (t.port p).csFixed = rest ∧ (t.port p).cs = x.cs ∧
      (t.port p).csEcc = if csSoft s p k then eraseAt k x.csEcc else x.csEcc)) ∧
    (∀ k < 16640, (csSoft s p k = false → noteSoft s p k = s) ∧ (csSoft s p k = true →
      (noteSoft s p k).get (Reg.WSQ.CSCE.CNT p) = min (s.get (Reg.WSQ.CSCE.CNT p) + 1) (2 ^ (Reg.WSQ.CSCE.CNT p).w - 1) ∧
      ((noteSoft s p k).port p).csFixed = (if x.csFixed.contains k then x.csFixed else x.csFixed ++ [k]) ∧
      (noteSoft s p k).get (Reg.WSQ.CSCE.ADDR p) = k % 16384 ∧ (noteSoft s p k).get (Reg.WSQ.CSCE.DISP p) = k / 16384)) ∧
    (s.on (Reg.PX.STAT.ENACT p) = false → Completes (.portEnable p) s (fun t =>
      t.get (Reg.PX.CTRL.EN p) = 1 ∧ t.get (Reg.PX.STAT.ENACT p) = 1 ∧
      t.get (Reg.LP.STAT.DEPTHACT p) = s.get (Reg.LP.CFG.DEPTH p) % 2 ^ (Reg.LP.STAT.DEPTHACT p).w ∧ (t.port p).fctr = 0)) ∧
    (s.on (Reg.PX.STAT.ENACT p) = true → exec (.portEnable p) s = .next (s.raise (Reg.PX.CTRL.EN p))) ∧
    (s.on (Reg.PX.STAT.ENACT p) = true →
      exec (.portDisable p) s = .next ((s.lower (Reg.PX.CTRL.EN p)).raise (Reg.PX.STAT.DRAIN p))) ∧
    (s.on (Reg.PX.STAT.ENACT p) = false → exec (.portDisable p) s = .next (s.lower (Reg.PX.CTRL.EN p))) ∧
    (s.on (Reg.PX.STAT.DRAIN p) = false ∨ portIdle s p = false → exec (.portDrainDone p) s = .next s) ∧
    (s.on (Reg.PX.STAT.DRAIN p) = true → portIdle s p = true → Completes (.portDrainDone p) s (fun t =>
      t.get (Reg.PX.STAT.DRAIN p) = 0 ∧
      (s.on (Reg.PX.CTRL.EN p) = false → t.get (Reg.PX.STAT.ENACT p) = 0) ∧
      (s.on (Reg.PX.CTRL.EN p) = true → t.get (Reg.PX.STAT.ENACT p) = 1 ∧ (t.port p).fctr = 0 ∧
        t.get (Reg.LP.STAT.DEPTHACT p) = s.get (Reg.LP.CFG.DEPTH p) % 2 ^ (Reg.LP.STAT.DEPTHACT p).w) ∧
      (t.port p).tun = x.tun ∧ (t.port p).ringWait = [] ∧
      (let none' (c : Fin 8) : Prop := s.get (Reg.PQ.TX.CFG.COUNT p c) = 0 ∨ s.get (Reg.PQ.TX.HEAD.HEAD p c) = s.get (Reg.PQ.TX.TAIL.TAIL p c)
       ((∀ c, none' c) → t.mem = s.mem ∧ ∀ c : Fin 8, t.get (Reg.PQ.TX.HEAD.HEAD p c) = s.get (Reg.PQ.TX.HEAD.HEAD p c)) ∧
       (∀ (c : Fin 8) (ctrl : Nat), (∀ d, d ≠ c → none' d) →
         let n := s.get (Reg.PQ.TX.CFG.COUNT p c)
         let h := s.get (Reg.PQ.TX.HEAD.HEAD p c)
         let a := descAddr s p c h
         n ≤ 4096 → h < n → s.get (Reg.PQ.TX.TAIL.TAIL p c) = (h + 1) % n → h ≠ (h + 1) % n → hwLoad s (a + 6) 1 = some ctrl →
         ctrl.testBit 2 = false →
         t.byte (a + 7) = 1 ∧ t.byte (a + 6) = BitVec.ofNat 8 (ctrl % 128) ∧ t.get (Reg.PQ.TX.HEAD.HEAD p c) = (h + 1) % n ∧
         ∀ b, b ≠ a + 6 → b ≠ a + 7 → t.byte b = s.byte b)))) ∧
    exec (.ieee8023brVerification p) s = .next (s.raise (Reg.GCL.STAT.VERIFIED p)) ∧
    (∀ (q : Fin 9) rate, s.bit Reg.GLB.MI.LINK.LINK q.val = true → exec (.miLinkUp q rate) s = .next s) ∧
    (∀ rate, s.bit Reg.GLB.MI.LINK.LINK 8 = false → exec (.miLinkUp 8 rate) s =
      .next (if rate = 5 then s.raiseBit Reg.GLB.MI.LINK.LINK 8 else s.lowerBit Reg.GLB.MI.LINK.LINK 8)) ∧
    (∀ rate, s.bit Reg.GLB.MI.LINK.LINK p.val = false → exec (.miLinkUp ⟨p.val, by omega⟩ rate) s = .next (noteRate (noteRate (noteDelay p
      ((s.raiseBit Reg.GLB.MI.LINK.LINK p.val).put (Reg.LP.STAT.RATE p) rate.toNat)) p) (partner p))) ∧
    exec (.miLinkDown 8) s = .next (s.lowerBit Reg.GLB.MI.LINK.LINK 8) ∧
    (s.arriving p = none → x.txHeld = none → Completes (.miLinkDown ⟨p.val, by omega⟩) s (fun t =>
      t.cells = (s.lowerBit Reg.GLB.MI.LINK.LINK p.val).cells ∧ t.mem = s.mem ∧
      (∀ f ∈ (t.port p).tun, f.egress ≠ some p.val) ∧ (∀ f ∈ (t.port (partner p)).tun, f.egress ≠ some p.val) ∧
      (t.port p).ignore = false ∧ (t.port p).ringWait = [] ∧ (t.port p).tx = x.tx.map (fun u => { u with ended := some 2 }))) ∧
    (∀ u, s.arriving p = none → x.txHeld = some u → u.irq = false → s.answers (descAddr s p u.cls u.idx + 7) = true →
      Completes (.miLinkDown ⟨p.val, by omega⟩) s (fun t => (t.port p).txHeld = none ∧ t.byte (descAddr s p u.cls u.idx + 7) = 2)) ∧
    (forwardedOn s p p = none → forwardedOn s p (partner p) = none → exec (.transmitSlip p) s = .next s) ∧
    ((forwardedOn s p p).isSome = true ∨ (forwardedOn s p (partner p)).isSome = true → Completes (.transmitSlip p) s (fun t =>
      t.get Reg.GLB.MI.SLIP.CNT = min (s.get Reg.GLB.MI.SLIP.CNT + 1) (2 ^ Reg.GLB.MI.SLIP.CNT.w - 1) ∧
      (∀ i < Reg.GLB.MI.SLIPPORT.PORT.w, t.bit Reg.GLB.MI.SLIPPORT.PORT i = (s.bit Reg.GLB.MI.SLIPPORT.PORT i || i == p.val)) ∧
      (∀ q : Port, q = p ∨ q = partner p → ∀ f, forwardedOn s p q = some f →
        ∀ g ∈ (t.port q).tun, g.fctr = f.fctr → g.fate.stomp = true) ∧ t.mem = s.mem))

/-- Grains, frame starts, release points, FCS verdicts, commits and queue entries (R22, R25, R31, R39, R40, R52, R73, R75,
R78): what each does when its frame is there. A program starts with RUN and WPBANK sampled, its flags, comparator results and call
stack cleared and wire op 0 dispatched, after the output latch; a commit writes the buffer's header. New cyclic data of a router's ring
is copied on (R161), and the firmware of a ring in service acts on an echo frame in queue 0 (R155). That EGR, SAF and the links are
sampled when grain 0 is there is log entry 68 (DESIGN CHOICE); that a header is not written where the memory does not answer is log
entry 75. -/
def Obligations.FrameCommands : Prop :=
  ∀ (s : State) (p : Port),
    let x := s.port p
    let link := s.bit Reg.GLB.MI.LINK.LINK p.val
    (∀ bytes last before fwd age tap, link = false → exec (.grainAvailable p bytes last false ⟨before, fwd⟩ age tap) s = .next s) ∧
    (∀ f bytes last before fwd age tap, link = true → s.arriving p = some f → f.thru = false → grainShape bytes last = true →
      exec (.grainAvailable p bytes last false ⟨before, fwd⟩ age tap) s = .next (growFrame p f.fctr bytes last s) ∧
      ((∀ g ∈ x.tun, g.swap = false) → growFrame p f.fctr bytes last s = s.modFrame p f.fctr (fun g => g.addGrain bytes last))) ∧
    (∀ f bytes last before fwd age tap, s.arriving p = some f → f.thru = false → grainShape bytes last = false →
      exec (.grainAvailable p bytes last false ⟨before, fwd⟩ age tap) s = .next s) ∧
    (∀ bytes last before fwd age tap, link = true → s.arriving p = none → x.ignore = false → x.thru = none →
      s.on (Reg.PX.STAT.ENACT p) = true → s.on (Reg.PX.STAT.DRAIN p) = before → grainShape bytes last = true →
      let fate : FrameFate := ⟨none, false, false, false, false, false, false, false, false, s.on (Reg.WSQ.CTRL.SAF p)⟩
      let g : Frame :=
        { fctr := x.fctr + 1, bytes := bytes, dep := [], eof := last, stamps := s.stamps age tap, thru := false, prog := .waiting,
          cur := 0, left := 0, egress := egressOf s p fwd, ques := [], dupKey := none, sent := false, swap := false,
          age := 16 * age - tap, fate := fate }
      let u := (noteRate s p).modPort p (fun y => { y with tun := x.tun ++ [g], fctr := x.fctr + 1 })
      exec (.grainAvailable p bytes last false ⟨before, fwd⟩ age tap) s =
        .next (if ∃ f ∈ x.tun, f.prog ≠ .done then u else startFrame u p g)) ∧
    (∀ bytes last before fwd age tap, link = true → s.arriving p = none → x.ignore = false → x.thru = none →
      s.on (Reg.PX.STAT.ENACT p) = false ∨ s.on (Reg.PX.STAT.DRAIN p) ≠ before →
      exec (.grainAvailable p bytes last false ⟨before, fwd⟩ age tap) s = .next (s.modPort p (fun y => { y with ignore := !last }))) ∧
    (∀ f, s.running p = none → x.tun.find? (fun f => f.prog == .waiting) = some f → f.left = 0 →
      exec (.frameStart p) s = .next (startFrame s p f)) ∧
    (∀ f, let t := startFrame s p f
      let run := s.on (Reg.WSQ.CTRL.RUN p) && x.csld.isNone
      let w := (lookup (1024 * (s.get (Reg.WSQ.CTRL.WPBANK p) % 2 ^ (Reg.WSQ.STAT.WPBANKACT p).w)) x.wpm).getD 0
      let due := x.latchDue || decide (8 ≤ s.get (Reg.PI.CFG.OTICK p))
      let set (g : Frame) : Frame := if g.fctr = f.fctr then { g with prog := if run then .running else .done, cur := 0 } else g
      csBad s p (16384 + w / 2 ^ 24 % 256) = false ∨ run = false →
        t.get (Reg.WSQ.STAT.RUNACT p) = run.toNat ∧
        t.get (Reg.WSQ.STAT.WPBANKACT p) = s.get (Reg.WSQ.CTRL.WPBANK p) % 2 ^ (Reg.WSQ.STAT.WPBANKACT p).w ∧
        (t.port p).tun = x.tun.map set ∧
        (let q := (t.port p).seq
         q.f0 = false ∧ q.f1 = false ∧ q.stk = [] ∧ q.cmp = x.seq.cmp.map (fun c => { c with res := false }) ∧ q.sq = x.seq.sq ∧
         (run = false → q.wpc = 0) ∧
         (run = true → q.wpc = 1 ∧ q.wop = BitVec.ofNat 24 w ∧ q.opc = BitVec.ofNat 8 (w / 2 ^ 24) ∧
           q.upc = BitVec.ofNat 14 (s.get (Reg.WSQ.DISP.UADDR p (w / 2 ^ 24 % 256)))) ∧
         q.outnew = (due && s.on (Reg.PI.OUTROLE.NEW p) && x.pubSince)) ∧
        (due = false ∨ s.on (Reg.PI.OUTROLE.NEW p) = true → t.mem = s.mem) ∧
        (due = true → s.on (Reg.PI.OUTROLE.NEW p) = true →
          t.get (Reg.PI.OUTROLE.CUR p) = s.get (Reg.PI.OUTROLE.READY p) % 4 ∧ t.get (Reg.PI.OUTROLE.READY p) = s.get (Reg.PI.OUTROLE.CUR p) % 4 ∧
          t.get (Reg.PI.OUTROLE.NEW p) = 0 ∧ t.get (Reg.PI.OUTROLE.CVALID p) = 1) ∧
        (due = true → s.on (Reg.PI.OUTROLE.NEW p) = false → t.get (Reg.PI.ERR.REPEAT p) = 1)) ∧
    (∀ f, let t := startFrame s p f
      let w := (lookup (1024 * (s.get (Reg.WSQ.CTRL.WPBANK p) % 2 ^ (Reg.WSQ.STAT.WPBANKACT p).w)) x.wpm).getD 0
      s.on (Reg.WSQ.CTRL.RUN p) = true → x.csld = none → csBad s p (16384 + w / 2 ^ 24 % 256) = true →
        t.get (Reg.WSQ.CTRL.RUN p) = 0 ∧ t.get (Reg.WSQ.ERR.CSUE p) = 1 ∧ ∀ g ∈ (t.port p).tun, g.fctr = f.fctr → g.prog = .done) ∧
    (∀ f, s.leaving p = some f → 16 * f.left < f.bytes.length → f.left ≠ 0 → f.cur ≠ f.left ∨ f.prog ≠ .running →
      ∃ t, exec (.releasePoint p) s = .next t ∧ t.mem = s.mem ∧ t.cells = s.cells ∧
        (∀ g ∈ (t.port p).tun, g.fctr = f.fctr → ∃ h ∈ x.tun, g = { h with left := h.left + 1, sent := g.sent }) ∧
        ((∀ g ∈ x.tun, g.fctr = f.fctr → g = f) → 16 * f.left + 16 < f.bytes.length ∨ f.prog = .running → t.out = s.out)) ∧
    (∀ f, s.leaving p = some f → 16 * f.left < f.bytes.length → f.left ≠ 0 → f.cur = f.left → f.prog = .running →
      ∃ t, exec (.releasePoint p) s = .next t ∧ t.get (Reg.WSQ.ERR.OVR p) = 1 ∧
        t.get (Reg.WSQ.OVR.UADDR p) = x.seq.upc.toNat ∧
        (∀ g ∈ (t.port p).tun, g.fctr = f.fctr → g.prog = .done ∧ g.fate.stomp = true ∧ g.fate.cmt = false)) ∧
    (∀ f, x.tun.find? (fun f => f.eof && f.fate.verdict.isNone) = some f → ∃ t, exec (.fcsVerdict p) s = .next t ∧
      (∀ g ∈ (t.port p).tun, g.fctr = f.fctr → g.fate.verdict = some f.fcsGood) ∧
      (f.fcsGood = false → f.fate.wroteFill = true → t.get (Reg.PI.INROLE.POISON p) = 1) ∧
      (f.fcsGood = true → t.cells = s.cells) ∧ t.mem = s.mem) ∧
    (∀ f, x.tun.find? (fun f => f.fate.cmt && f.fate.verdict == some true) = some f → s.on (Reg.PI.INROLE.POISON p) = false →
      ∃ t, exec (.bufferCommit p) s = .next (if p = ringPort (cluOf p) false ∧ s.get (Reg.PI.INROLE.READY p) ≠ t.get (Reg.PI.INROLE.READY p)
          then copyRoutes (cluOf p) t else t) ∧
        ((s.ring (cluOf p)).routes = [] → exec (.bufferCommit p) s = .next t) ∧ t.get (Reg.PI.INROLE.NEW p) = 1 ∧
        t.get (Reg.PI.INROLE.FILL p) = s.get (Reg.PI.INROLE.READY p) % 4 ∧
        t.get (Reg.PI.INROLE.READY p) = s.get (Reg.PI.INROLE.FILL p) % 4 ∧ (t.port p).inSeq = x.inSeq + 1 ∧
        (let fill := s.get (Reg.PI.INROLE.FILL p)
         let b := inBuf s p fill
         (s.answers b = true → t.bytes b 16 =
           bytesLE 6 (x.inSeq + 1).toNat ++ bytesLE 2 0 ++ bytesLE 6 s.now0 ++ bytesLE 1 0 ++ bytesLE 1 fill) ∧
         (s.answers b = false → t.mem = s.mem) ∧ ∀ a, ¬ (b ≤ a ∧ a < b + 16) → t.byte a = s.byte a) ∧
        (∀ g ∈ (t.port p).tun, g.fate.wroteFill = false ∧ (g.fctr = f.fctr → g.fate.cmt = false))) ∧
    (∀ f, x.tun.find? (fun f => f.eof && f.fate.verdict.isSome && f.prog == .done && !f.ques.isEmpty) = some f →
      let t := retireFrames ((f.ques.foldl (fun t c => queueCopy t p f c) s).modFrame p f.fctr (fun g => { g with ques := [] })) p
      exec (.rxQueueVisible p) s = .next (if f.ques.any (fun c => c.q == 0) = true ∧ queueFull s p 0 = false ∧
        ringState s (cluOf p) ≠ 0 then echoFrame p f t else t))

/-- Encoding and decoding agree. A micro-op: every well-formed one is read back from its 32 bits with every operand; and
a microword that reads as a micro-op reads as a well-formed one, whose word it is bit for bit (R35, R36, R37). Of WJMP, opcode
0x1D, some bits are in no field and no must-be-0 rule names them: the second direction leaves it out (log entry 11). A bundle: every
well-formed one is read back from its 48 bits with every field, and every 48-bit word is the word of the one well-formed bundle it reads
as, the reserved extended forms among them (R198, R207). -/
def Obligations.EncodingsRoundTrip : Prop :=
  (∀ u : UOp, u.wf = true → decodeU (encodeU u) = .op u) ∧
  (∀ (w : Word32) (u : UOp), decodeU w = .op u → u.wf = true ∧ (ufield w 26 6 ≠ 0x1D → encodeU u = w)) ∧
  (∀ b : Bundle, b.wf = true → decodeBundle (encodeBundle b) = b) ∧
  (∀ v : Word, encodeBundle (decodeBundle v) = v ∧ (decodeBundle v).wf = true)

/-- The micro-ops that touch only the sequencer's registers complete, change exactly the register they name and move to the
next microword (R35, R36, R37); ALU and ALUI: the twelve functions of R36 on 48-bit words, the carry of ADD and SUB alone; the condition
inputs of BR and WAIT (R38). SLACK counts the whole engine cycles to the release point of the current grain, at byte 16 × cur + D
and 17.5 ns (R25, R35). A fetch with a single-bit error is counted (R49). -/
def Obligations.MicroRegisterOps : Prop :=
  ∀ (s : State) (p : Port) (f : Frame),
    (AtMicro s p f .nop → exec (.uNop p) s = .next (noteFetch s p (microNext s p id))) ∧
    (∀ d imm, AtMicro s p f (.ldi d imm) →
      exec (.uLdi p) s = .next (noteFetch s p (microNext s p (fun q => q.setReg d (imm.zeroExtend 48))))) ∧
    (∀ d imm, AtMicro s p f (.ldih d imm) → ∃ v : Word,
      v.extractLsb' 24 24 = imm ∧ v.extractLsb' 0 24 = ((s.port p).seq.reg d).extractLsb' 0 24 ∧
      exec (.uLdih p) s = .next (noteFetch s p (microNext s p (fun q => q.setReg d v)))) ∧
    (∀ r spec, spec.toNat < 8 → AtMicro s p f (.movs r spec) → ∃ v : Word,
      exec (.uMovs p) s =
        .next (noteFetch s p (microNext s p (fun q => q.setReg r v))) ∧
      (spec = 0 → v = (s.port p).seq.wop.zeroExtend 48) ∧
      (spec = 1 → v = (s.port p).seq.wpc.zeroExtend 48) ∧
      (spec = 2 → v = BitVec.ofNat 48 (16 * f.cur)) ∧
      (spec = 3 → v = if f.eof then BitVec.ofNat 48 f.bytes.length else 0) ∧
      (spec = 4 → v = (f.stamps[(0 : Fin 4)]).lo) ∧
      (spec = 5 → v = BitVec.ofNat 48 (delayReg s p)) ∧
      (spec = 6 → ∃ k : Nat, v = BitVec.ofNat 48 k ∧
        (let point := 8 * ((16 * f.cur + s.tunDepth p) * byteTimePs (s.get (Reg.LP.STAT.RATE p)) + 17500)
         (625 * f.age ≤ point → 10000 * k ≤ point - 625 * f.age ∧ point - 625 * f.age < 10000 * (k + 1)) ∧ (point < 625 * f.age → k = 0))) ∧
      (spec = 7 → v = (s.port p).fctr)) ∧
    (∀ r, AtMicro s p f (.movt r 1) →
      exec (.uMovt p) s = .next (noteFetch s p (microNext s p (fun q => { q with wpc := (q.reg r).extractLsb' 0 10 })))) ∧
    (∀ c a b mode, AtMicro s p f (.cmpr c a b mode) →
      exec (.uCmpr p) s = .next (noteFetch s p (microNext s p (fun q => q.setCmp c (fun k => { k with ref := q.reg a, mask := q.reg b, mode := mode }))))) ∧
    (∀ c a, AtMicro s p f (.cmp c a) → ∃ res : Bool,
      exec (.uCmp p) s = .next (noteFetch s p (microNext s p (fun q => q.setCmp c (fun k => { k with res := res })))) ∧
      (let k := (s.port p).seq.cmp[c.toFin]
       let v := (s.port p).seq.reg a
       (k.mode = 0 → (res = true ↔ v &&& k.mask = k.ref &&& k.mask)) ∧
       (k.mode = 1 → (res = true ↔ v < k.ref)) ∧
       (k.mode = 2 → (res = true ↔ k.ref ≤ v)) ∧
       (k.mode = 3 → (res = true ↔ v &&& k.mask ≠ 0)))) ∧
    (∀ flag value, AtMicro s p f (.setf flag value) →
      exec (.uSetf p) s = .next (noteFetch s p (microNext s p (fun q => if flag then { q with f1 := value } else { q with f0 := value })))) ∧
    (∀ (i : Instr) (d : BitVec 2) (fn : BitVec 4) (x y : Word),
    ((∃ a b, AtMicro s p f (.alu d a b fn) ∧ i = .uAlu p ∧ x = (s.port p).seq.reg a ∧ y = (s.port p).seq.reg b) ∨
      (∃ a imm, AtMicro s p f (.alui d a fn imm) ∧ i = .uAlui p ∧ x = (s.port p).seq.reg a ∧ y = imm.zeroExtend 48)) →
    ∃ (r : Word) (k : Bool),
      exec i s = .next (noteFetch s p (microNext s p (fun q => { q.setReg d r with carry := k }))) ∧
      (fn = 0 → r = x + y ∧ k = (x.zeroExtend 49 + y.zeroExtend 49).msb) ∧
      (fn = 1 → r = x - y ∧ k = x.ult y) ∧
      (fn ≠ 0 ∧ fn ≠ 1 → k = (s.port p).seq.carry) ∧
      (fn = 2 → r = x &&& y) ∧ (fn = 3 → r = x ||| y) ∧ (fn = 4 → r = x ^^^ y) ∧ (fn = 5 → r = x &&& ~~~ y) ∧
      (fn = 6 → r = x <<< (y.extractLsb' 0 6)) ∧ (fn = 7 → r = x >>> (y.extractLsb' 0 6)) ∧
      (fn = 8 → r = x.sshiftRight (y.extractLsb' 0 6).toNat) ∧
      (fn = 9 → r ≤ x ∧ r ≤ y ∧ (r = x ∨ r = y)) ∧ (fn = 10 → x ≤ r ∧ y ≤ r ∧ (r = x ∨ r = y)) ∧ (fn = 11 → r = x)) ∧
    (let q := (s.port p).seq
    let cond (n : Nat) := condition s p f n = true
    cond 0 ∧ (cond 1 ↔ f.cur = 0) ∧ (cond 2 ↔ f.eof = true) ∧ (cond 3 ↔ f.fate.verdict = some true) ∧
    (cond 4 ↔ f.fate.verdict = some false) ∧ (cond 5 ↔ 0 < f.cur ∨ 0 < f.left) ∧
    (cond 6 ↔ s.tunDepth p < f.bytes.length + 16) ∧ (cond 7 ↔ q.past = true) ∧
    (∀ c : Fin 4, cond (8 + c) ↔ (q.cmp[c]).res = true) ∧
    (∀ r : BitVec 2, (cond (12 + 2 * r.toNat) ↔ q.reg r = 0) ∧ (cond (13 + 2 * r.toNat) ↔ (q.reg r).getLsbD 47 = true)) ∧
    (cond 20 ↔ q.carry = true) ∧ (cond 21 ↔ q.tmr0 = true) ∧ (cond 22 ↔ q.tmr1 = true) ∧
    (cond 23 ↔ s.on (Reg.GCL.CTRL.GATEEN p) = false ∨
      (s.port p).gate.gates.getLsbD (s.get (Reg.WSQ.CTRL.GCLS p)) = true) ∧
    (cond 24 ↔ s.lineOpen (cluOf p) (portLine p) = true) ∧ (cond 25 ↔ queueFull s p q.lastQ.toNat = true) ∧
    (cond 26 ↔ s.load (privAddr s p 0) 4 ≠ s.load (privAddr s p 4) 4) ∧ (cond 27 ↔ q.outnew = true) ∧
    (cond 28 ↔ slack s p f < s.get (Reg.WSQ.CTRL.SLACKMIN p)) ∧
    (cond 29 ↔ q.f0 = true) ∧ (cond 30 ↔ q.f1 = true) ∧ (cond 31 ↔ f.eof = true ∧ f.bytes.length < 64))

/-- The window rule of R33 for every micro-op that accesses frame bytes: bytes in the window that have not arrived stall the
micro-op, and an access below the current grain or beyond the window reads 0 and ends the program as a window violation. Bytes past a
known end of frame are never in violation, wherever the window ends: that R33's second case goes before its last is the model's
inference (log entry 13), and so is that CPY then copies zeros (log entry 68). -/
def Obligations.MicroWindowRule : Prop :=
  ∀ (s : State) (p : Port) (f : Frame) (u : UOp) (i : Instr) (o n : Nat),
    AtMicro s p f u → frameField s p u = some (i, o, n) →
    (16 * f.cur ≤ o → o + n ≤ 16 * f.cur + s.tunDepth p → f.eof = false → f.bytes.length < o + n → exec i s = .next s) ∧
    (f.eof = true → 16 * f.cur ≤ o → f.bytes.length ≤ o ∨ min (o + n) f.bytes.length ≤ 16 * f.cur + s.tunDepth p →
      f.touch (s.tunDepth p) o n = .ok) ∧
    (o < 16 * f.cur ∨ (f.eof = false ∧ 16 * f.cur + s.tunDepth p < o + n) ∨
      (f.eof = true ∧ o < f.bytes.length ∧ 16 * f.cur + s.tunDepth p < min (o + n) f.bytes.length) → ∃ z,
      exec i s = .next (noteFetch s p (windowViolation z p f)) ∧
      (∀ r a e len disp, u = .ext r a e len disp →
        z = s.modSeq p (fun q => { q.setReg r 0 with past := f.pastEnd o n })) ∧
      (∀ c a e len disp, u = .cmpf c a e len disp →
        z = s.modSeq p (fun q => { q.setCmp c (fun k => { k with res := k.test 0 }) with past := f.pastEnd o n })) ∧
      (∀ t a b m disp x, u = .cpy t a b m disp → memRef s p b (memOff s p t) n false = .at x → cluMerges s x n = false →
        z = seqStored s p f b x (List.replicate n 0)) ∧
      ((∀ r a e len disp, u ≠ .ext r a e len disp) → (∀ c a e len disp, u ≠ .cmpf c a e len disp) →
        (∀ t a b m disp, u ≠ .cpy t a b m disp) → z = s))

/-- The micro-ops that read or deposit frame bytes, where the window rule lets them: the value read, the bytes deposited,
PAST, and nothing else changed but the microprogram counter (R33, R36, R37, R100). The first four clauses say which bytes
a field is read from and where deposited bytes go: past the end of a frame whose end is known a read gives 0 and a deposit is
discarded, beyond the window too (log entry 13), and its last four bytes read as received. -/
def Obligations.MicroFrameOps : Prop :=
  (∀ (f : Frame) (o n k : Nat), (f.slice o n)[k]? = if k < n then some (f.byte (o + k)) else none) ∧
  (∀ (f : Frame) (o : Nat), f.byte o = if f.eof = true ∧ f.bytes.length ≤ o then 0
    else if f.eof = true ∧ f.bytes.length ≤ o + 4 then f.bytes.getD o 0 else (lookup o f.dep).getD (f.bytes.getD o 0)) ∧
  (∀ (f : Frame) (o x : Nat) (bs : List Byte), lookup x (f.deposit o bs).dep =
    if o ≤ x ∧ x < o + bs.length ∧ ¬ (f.eof = true ∧ f.bytes.length ≤ x) then bs[x - o]? else lookup x f.dep) ∧
  (∀ (f : Frame) (o : Nat) (bs : List Byte), f.deposit o bs = { f with dep := (f.deposit o bs).dep }) ∧
  ∀ (s : State) (p : Port) (f : Frame) (u : UOp) (i : Instr) (o n : Nat),
    AtMicro s p f u → frameField s p u = some (i, o, n) → f.touch (s.tunDepth p) o n = .ok →
    (∀ r a e len disp, u = .ext r a e len disp → ∃ v : Word,
      v.toNat = (if e then natLE (f.slice o n) else natBE (f.slice o n)) % 2 ^ 48 ∧
      exec i s = .next (noteFetch s p (microNext s p (fun q => { q.setReg r v with past := f.pastEnd o n })))) ∧
    (∀ c a e len disp, u = .cmpf c a e len disp → ∃ v : Word,
      v.toNat = (if e then natLE (f.slice o n) else natBE (f.slice o n)) % 2 ^ 48 ∧
      exec i s = .next (noteFetch s p (microNext s p (fun q =>
        { q.setCmp c (fun k => { k with res := k.test v }) with past := f.pastEnd o n })))) ∧
    (∀ r a e len disp, u = .dep r a e len disp → ∃ bs : List Byte,
      bs.length = n ∧ (if e then natLE bs else natBE bs) = ((s.port p).seq.reg r).toNat % 256 ^ n ∧
      exec i s = .next (noteFetch s p (microNext (s.modFrame p f.fctr (fun g => g.deposit o bs)) p id))) ∧
    (∀ a e len disp x, u = .incf a e len disp x → ∃ bs : List Byte,
      bs.length = n ∧
      (if e then natLE bs else natBE bs) =
        ((if e then natLE (f.slice o n) else natBE (f.slice o n)) + x.toNat) % 256 ^ n ∧
      exec i s = .next (noteFetch s p (microNext (s.modFrame p f.fctr (fun g => g.deposit o bs)) p id))) ∧
    (∀ r a disp, u = .fadd r a disp → ∃ bs : List Byte,
      bs.length = 8 ∧
      BitVec.ofNat 64 (natBE bs) = BitVec.ofNat 64 (natBE (f.slice o 8)) + ((s.port p).seq.reg r).signExtend 64 ∧
      exec i s = .next (noteFetch s p (microNext (s.modFrame p f.fctr (fun g => g.deposit o bs)) p id))) ∧
    (∀ dom a point fmt disp, u = .tsi dom a point fmt disp → ∃ x : Stamp,
      x = (if point then (f.stamps[dom.toFin]).txPoint (s.get (Reg.LP.DELAY.PS p)) else f.stamps[dom.toFin]) ∧
      exec i s = .next (noteFetch s p (microNext (s.modFrame p f.fctr (fun g => g.deposit o (
        if fmt.toNat = 0 then bytesBE 6 x.hi.toNat ++ bytesBE 4 (x.lo.toNat / 2 ^ 18)
        else if fmt.toNat = 1 then bytesBE 4 x.hi.toNat ++ bytesBE 4 (x.lo.toNat / 2 ^ 18)
        else bytesBE 6 x.lo.toNat))) p id)))

/-- LDM, STM, ATM, CPY and FIL: the value, the bytes stored at the address that `memRef` gives (R36, R70), the bounds rule
of R70, and nothing else changed but what a read of memory records of bit errors (R298). An uncorrectable codeword that is read
or merged into ends the program (R299). The four bases of `memRef` (R70): absolute, wrapping within the 512 KiB of the cluster memory; the
data area of the filling input buffer and of the current output buffer, with their bounds; and the private area, unchecked. -/
def Obligations.MicroMemoryOps : Prop :=
  (∀ (s : State) (p : Port) (off n : Nat) (read : Bool),
    memRef s p 0 off n read = .at (0x400000 + 0x80000 * (p.val / 2) + off % 0x80000) ∧
    (off + n ≤ s.get (Reg.PI.INSIZE.SIZE p) →
      memRef s p 1 off n read = .at (inBuf s p (s.get (Reg.PI.INROLE.FILL p)) + 16 + off)) ∧
    (s.get (Reg.PI.INSIZE.SIZE p) < off + n → memRef s p 1 off n read = .bound) ∧
    (s.get (Reg.PI.OUTSIZE.SIZE p) < off + n → memRef s p 2 off n read = .bound) ∧
    (off + n ≤ s.get (Reg.PI.OUTSIZE.SIZE p) → read = true → s.on (Reg.PI.OUTROLE.CVALID p) = false →
      memRef s p 2 off n read = .zero) ∧
    (off + n ≤ s.get (Reg.PI.OUTSIZE.SIZE p) → s.on (Reg.PI.OUTROLE.CVALID p) = true →
      memRef s p 2 off n read = .at (outBuf s p (s.get (Reg.PI.OUTROLE.CUR p)) + 16 + off)) ∧
    memRef s p 3 off n read =
      .at (0x400000 + 0x80000 * (p.val / 2) + (16 * s.get (Reg.PX.PRIVBASE.BASE p) + off) % 0x80000) ∧
    (∀ a, (cluBytes s a n).length = n ∧ ∀ i < n, (cluBytes s a n)[i]? = some (s.byte (a - a % 0x80000 + (a % 0x80000 + i) % 0x80000))) ∧
    (∀ t, t = boundError p s → t.get (Reg.PI.ERR.BOUND p) = 1 ∧ t.get (Reg.PI.INROLE.POISON p) = 1 ∧ t.mem = s.mem)) ∧
  ∀ (s : State) (p : Port) (f : Frame) (b : BitVec 2) (x : Nat),
    let noted (n : Nat) := cluNote x n s
    (∀ r a len disp, AtMicro s p f (.ldm r a b len disp) →
      let ref := memRef s p b (memOff s p a + disp.toNat) len.toNat true
      (ref = .at x → cluBad s x len.toNat = false → exec (.uLdm p) s =
        .next (noteFetch s p (microNext (noted len.toNat) p (fun q => q.setReg r (BitVec.ofNat 48 (natLE (cluBytes s x len.toNat))))))) ∧
      (ref = .at x → cluBad s x len.toNat = true → exec (.uLdm p) s = .next (noteFetch s p (abandonFrame (noted len.toNat) p f))) ∧
      (ref = .zero → exec (.uLdm p) s = .next (noteFetch s p (microNext s p (fun q => q.setReg r 0)))) ∧
      (ref = .bound → exec (.uLdm p) s = .next (noteFetch s p (microNext (boundError p s) p (fun q => q.setReg r 0))))) ∧
    (∀ r a len disp, AtMicro s p f (.stm r a b len disp) →
      let ref := memRef s p b (memOff s p a + disp.toNat) len.toNat false
      (ref = .at x → cluMerges s x len.toNat = false → exec (.uStm p) s =
        .next (noteFetch s p (microNext (seqStored s p f b x (bytesLE len.toNat ((s.port p).seq.reg r).toNat)) p id))) ∧
      (ref = .at x → cluMerges s x len.toNat = true → exec (.uStm p) s = .next (noteFetch s p (abandonFrame (noted len.toNat) p f))) ∧
      (ref = .bound → exec (.uStm p) s = .next (noteFetch s p (microNext (boundError p s) p id)))) ∧
    (∀ r a len disp, AtMicro s p f (.atm r a b len disp) →
      let ref := memRef s p b (memOff s p a + disp.toNat) len.toNat false
      (ref = .at x → cluBad s x len.toNat = false → cluMerges (noted len.toNat) x len.toNat = false → exec (.uAtm p) s =
        .next (noteFetch s p (microNext (seqStored (noted len.toNat) p f b x
          (bytesLE len.toNat (natLE (cluBytes s x len.toNat) + ((s.port p).seq.reg r).toNat))) p id))) ∧
      (ref = .at x → cluBad s x len.toNat = true → exec (.uAtm p) s = .next (noteFetch s p (abandonFrame (noted len.toNat) p f))) ∧
      (ref = .bound → exec (.uAtm p) s = .next (noteFetch s p (microNext (boundError p s) p id)))) ∧
    (∀ t a n disp, AtMicro s p f (.cpy t a b n disp) →
      let o := frameOff s p a disp
      let ref := memRef s p b (memOff s p t) (n.toNat + 1) false
      f.touch (s.tunDepth p) o (n.toNat + 1) = .ok →
      (ref = .at x → cluMerges s x (n.toNat + 1) = false → exec (.uCpy p) s =
        .next (noteFetch s p (microNext (seqStored s p f b x (f.slice o (n.toNat + 1))) p id))) ∧
      (ref = .at x → cluMerges s x (n.toNat + 1) = true → exec (.uCpy p) s = .next (noteFetch s p (abandonFrame (noted (n.toNat + 1)) p f))) ∧
      (ref = .bound → exec (.uCpy p) s = .next (noteFetch s p (microNext (boundError p s) p id)))) ∧
    (∀ t a n disp, AtMicro s p f (.fil t a b n disp) →
      let o := frameOff s p a disp
      let ref := memRef s p b (memOff s p t) (n.toNat + 1) true
      f.touch (s.tunDepth p) o (n.toNat + 1) = .ok →
      (ref = .at x → cluBad s x (n.toNat + 1) = false → exec (.uFil p) s =
        .next (noteFetch s p (microNext ((noted (n.toNat + 1)).modFrame p f.fctr (fun g => g.deposit o (cluBytes s x (n.toNat + 1)))) p id))) ∧
      (ref = .at x → cluBad s x (n.toNat + 1) = true → exec (.uFil p) s = .next (noteFetch s p (abandonFrame (noted (n.toNat + 1)) p f))) ∧
      (ref = .zero → exec (.uFil p) s =
        .next (noteFetch s p (microNext (s.modFrame p f.fctr (fun g => g.deposit o (List.replicate (n.toNat + 1) 0))) p id))) ∧
      (ref = .bound → exec (.uFil p) s =
        .next (noteFetch s p (microNext ((boundError p s).modFrame p f.fctr (fun g => g.deposit o (List.replicate (n.toNat + 1) 0))) p id))))

/-- The control micro-ops (R37, R38, R39): where the microprogram counter goes, what the call stack holds, what NXW and WJMP
load, what a bit error in the dispatch entry or in the microword itself does (R49), and that a stack fault is handled as an
illegal microword. -/
def Obligations.MicroFlowOps : Prop :=
  ∀ (s : State) (p : Port) (f : Frame),
    let q := (s.port p).seq
    let goto (u : BitVec 14) (t : State) := t.modSeq p (fun x => { x with upc := u, fresh := false })
    let word (wpc : BitVec 10) := (lookup (1024 * s.get (Reg.WSQ.STAT.WPBANKACT p) + wpc.toNat) (s.port p).wpm).getD 0
    let entry (wpc : BitVec 10) := 16384 + (BitVec.ofNat 8 (word wpc / 2 ^ 24)).toNat
    let loaded (wpc : BitVec 10) :=
      s.modSeq p (fun x => { x with
        wpc := wpc + 1, wop := BitVec.ofNat 24 (word wpc), opc := BitVec.ofNat 8 (word wpc / 2 ^ 24), fresh := true
        step := 0, part := 0
        upc := BitVec.ofNat 14 (s.get (Reg.WSQ.DISP.UADDR p (BitVec.ofNat 8 (word wpc / 2 ^ 24)).toNat)) })
    let fetched (wpc : BitVec 10) :=
      if csBad s p (entry wpc) then storeError (loaded wpc) p f else noteSoft (loaded wpc) p (entry wpc)
    (∀ c pol tgt, AtMicro s p f (.br c pol tgt) →
      exec (.uBr p) s = .next (noteFetch s p (goto (if condition s p f c.toNat = pol then tgt else q.upc + 1) s))) ∧
    (∀ c pol, AtMicro s p f (.wait c pol) → condition s p f c.toNat = pol →
      exec (.uWait p) s = .next (noteFetch s p (goto (q.upc + 1) s))) ∧
    (∀ c pol, AtMicro s p f (.wait c pol) → condition s p f c.toNat ≠ pol →
      exec (.uWait p) s = .next s) ∧
    (∀ tgt, AtMicro s p f (.jmp tgt) → exec (.uJmp p) s = .next (noteFetch s p (goto tgt s))) ∧
    (∀ tgt, AtMicro s p f (.call tgt) → q.stk.length < 4 →
      exec (.uCall p) s = .next (noteFetch s p (goto tgt (s.modSeq p (fun x => { x with stk := (x.upc + 1) :: x.stk }))))) ∧
    (∀ tgt, AtMicro s p f (.call tgt) → 4 ≤ q.stk.length →
      exec (.uCall p) s = .next (noteFetch s p (illegalWord s p f (Reg.WSQ.ERR.STK p)))) ∧
    (∀ a t, AtMicro s p f .ret → q.stk = a :: t →
      exec (.uRet p) s = .next (noteFetch s p (goto a (s.modSeq p (fun x => { x with stk := t }))))) ∧
    (AtMicro s p f .ret → q.stk = [] → exec (.uRet p) s = .next (noteFetch s p (illegalWord s p f (Reg.WSQ.ERR.STK p)))) ∧
    (AtMicro s p f .nxw → exec (.uNxw p) s = .next (noteFetch s p (fetched q.wpc))) ∧
    (∀ r i, AtMicro s p f (.wjmp false r i) → exec (.uWjmp p) s = .next (noteFetch s p (fetched i))) ∧
    (∀ r i, AtMicro s p f (.wjmp true r i) →
      exec (.uWjmp p) s = .next (noteFetch s p (fetched ((q.reg r).extractLsb' 0 10))))

/-- The micro-ops that release grains, end the program, arm the commit, order queue copies and raise events, and the two
faults of fetching (R34, R37, R40, R42, R43, R53, R54, R75, R78, R79). A frame whose grains have all left goes out as its
program ends. The model's own choices: NXG also moves beyond the last grain of a frame whose end is known (log entry 68); whether a
stomp still reaches the FCS of a frame whose last grain has left is a free bit (log entries 2 and 7). -/
def Obligations.MicroFrameFlow : Prop :=
  ∀ (s : State) (p : Port) (f : Frame),
    let wrote := (s.port p).tun.any (fun g => g.fctr == f.fctr && g.fate.wroteFill)
    (AtMicro s p f .nxg →
      exec (.uNxg p) s = .next (noteFetch s p (microNext (s.modFrame p f.fctr (fun g => { g with cur := g.cur + 1 })) p id))) ∧
    (∀ a disp, AtMicro s p f (.skto a disp) → ∃ dst : Frame → Nat,
      exec (.uSkto p) s = .next (noteFetch s p (microNext (s.modFrame p f.fctr (fun g => { g with cur := dst g })) p id)) ∧
      (∀ g, frameOff s p a disp / 16 ≤ g.cur → dst g = g.cur) ∧
      (∀ g, g.eof = false → g.cur ≤ frameOff s p a disp / 16 → dst g = frameOff s p a disp / 16) ∧
      (∀ g, g.eof = true → g.cur ≤ (g.bytes.length - 1) / 16 → (g.bytes.length - 1) / 16 ≤ frameOff s p a disp / 16 →
        dst g = (g.bytes.length - 1) / 16)) ∧
    (AtMicro s p f .endf → ∃ t, exec (.uEndf p) s = .next (noteFetch s p t) ∧ t.mem = s.mem ∧ t.cells = s.cells ∧
      ((∀ g ∈ (s.port p).tun, g.fctr = f.fctr → g.allLeft = false ∨ g.sent = true) → t =
        (((s.modFrame p f.fctr (fun g => { g with prog := .done })).modSeq p (fun q => { q with fresh := false })).modPort p
          (fun x => { x with tun := x.tun.filter (fun g => !g.isOver) }))) ∧
      (∀ e, (s.port p).tun.find? (fun g => g.fctr == f.fctr) = some f → f.allLeft = true → f.sent = false →
        f.egress = some e → f.fate.gone = false → 5 ≤ f.bytes.length → t.out = .frame e f.wire :: s.out)) ∧
    (AtMicro s p f .cmt → exec (.uCmt p) s =
      .next (noteFetch s p (microNext (s.modFrame p f.fctr (fun g => { g with fate := { g.fate with cmt := g.fate.verdict != some false } })) p id))) ∧
    (AtMicro s p f .disc → ∃ t,
      exec (.uDisc p) s = .next (noteFetch s p t) ∧ t.mem = s.mem ∧
      (∀ g ∈ (t.port p).tun, g.fctr = f.fctr → g.prog = .done ∧ g.fate.cmt = false ∧
        (f.txStart = false → g.fate.gone = true) ∧ (f.txStart = true → stompReaches s f = true → g.fate.stomp = true)) ∧
      (∀ g ∈ (s.port p).tun, g.fctr ≠ f.fctr → g.isOver = false → g ∈ (t.port p).tun) ∧
      (wrote = true → t.get (Reg.PI.INROLE.POISON p) = 1) ∧
      (f.txStart = true → f.fate.chaffed = false → stompReaches s f = true →
        t.cells = (((if wrote then s.raise (Reg.PI.INROLE.POISON p) else s).count (Reg.WSQ.CHAFF.CNT p)).cells)) ∧
      (f.txStart = false ∨ stompReaches s f = false →
        t.cells = (if wrote then s.raise (Reg.PI.INROLE.POISON p) else s).cells)) ∧
    (∀ n, AtMicro s p f (.que n) → queueFull s p n.toNat = true → exec (.uQue p) s =
      .next (noteFetch s p (((microNext s p (fun q => { q with lastQ := n })).count (Reg.PQ.DROPCNT.CNT p)).raise (Reg.PI.ERR.RXQDROP p)))) ∧
    (∀ n, AtMicro s p f (.que n) → queueFull s p n.toNat = false → f.ques.any (fun c => c.q == n.toFin) = false →
      f.dupKey = none → exec (.uQue p) s =
      .next (noteFetch s p (microNext (s.modFrame p f.fctr (fun g =>
        { g with ques := g.ques ++ [⟨n.toFin, (s.port p).seq.f0, (s.port p).seq.f1⟩] })) p (fun q => { q with lastQ := n })))) ∧
    (∀ n a b, AtMicro s p f (.que n) → queueFull s p n.toNat = false → f.ques.any (fun c => c.q == n.toFin) = false →
      f.dupKey = some (a, b) → exec (.uQue p) s =
      .next (noteFetch s p ((microNext (s.modFrame p f.fctr (fun g =>
        { g with ques := g.ques ++ [⟨n.toFin, (s.port p).seq.f0, (s.port p).seq.f1⟩] })) p
          (fun q => { q with lastQ := n })).modClu (cluOf p) (fun c => { c with dups := c.dups.map (fun d =>
            if d.src = a ∧ d.seqn = b then { d with queued := true } else d) })))) ∧
    (∀ n, AtMicro s p f (.que n) → queueFull s p n.toNat = false → f.ques.any (fun c => c.q == n.toFin) = true →
      exec (.uQue p) s = .next (noteFetch s p (microNext s p (fun q => { q with lastQ := n })))) ∧
    (∀ code, AtMicro s p f (.sig code) → s.memBad (privAddr s p 0x90) 8 = false → exec (.uSig p) s =
      .next (noteFetch s p (microNext (postEvent s p (eventRecord s p f code.toNat (s.port p).seq.wop.toNat)) p id))) ∧
    (∀ code, AtMicro s p f (.sig code) → s.memBad (privAddr s p 0x90) 8 = true → exec (.uSig p) s =
      .next (noteFetch s p (abandonFrame (noteRead (privAddr s p 0x90) 8 s) p f))) ∧
    (∀ r : List Byte, r.length = 16 → (hwLoad s (privAddr s p 0x90) 8).isSome = true →
      let rd := s.load (privAddr s p 0x90) 4 % 16
      let wr := s.load (privAddr s p 0x94) 4 % 16
      let t := postEvent s p r
      ((wr + 1) % 16 = rd → t.mem = s.mem ∧ t.get (Reg.PI.ERR.EVOVF p) = 1) ∧
      ((wr + 1) % 16 ≠ rd → t.bytes (privAddr s p (0xA0 + 16 * wr)) 16 = r ∧ t.load (privAddr s p 0x94) 4 = (wr + 1) % 16 ∧
        ∀ a, ¬ (privAddr s p (0xA0 + 16 * wr) ≤ a ∧ a < privAddr s p (0xA0 + 16 * wr) + 16) →
          ¬ (privAddr s p 0x94 ≤ a ∧ a < privAddr s p 0x94 + 4) → t.byte a = s.byte a))

/-- What UDF, an illegal microword and an uncorrectable control-store word do (R42, R43, R49): the record in WSQ.UNDEF, the
error bit, the end of the program with its commit cancelled, the stomp and chaff count (not for UDF), the poisoned buffer,
and memory untouched. A frame that does not go out now keeps its place unless its handling is over. -/
def Obligations.SequencerFaults : Prop :=
  ∀ (s : State) (p : Port) (f : Frame), s.running p = some f →
    let wrote := (s.port p).tun.any (fun g => g.fctr == f.fctr && g.fate.wroteFill)
    let stays := ∀ g ∈ (s.port p).tun, g.fctr = f.fctr → g.allLeft = false ∨ g.sent = true
    let tun (t : State) (g : Frame → Frame) := (t.port p).tun =
      ((s.port p).tun.map (fun x => if x.fctr = f.fctr then g x else x)).filter (fun x => !x.isOver)
    (fetchBad s p = false → fetchU s p = .udf → ∃ t, exec (.udf p) s = .next (noteFetch s p t) ∧
      t.get (Reg.WSQ.ERR.UNDEF p) = 1 ∧ t.get (Reg.WSQ.UNDEF.OPC p) = (s.port p).seq.opc.toNat ∧
      t.get (Reg.WSQ.UNDEF.WIDX p) = ((s.port p).seq.wpc - 1).toNat ∧
      (stays → tun t (fun g => { g with prog := .done, fate := { g.fate with cmt := false } }) ∧ t.out = s.out) ∧
      (wrote = true → t.get (Reg.PI.INROLE.POISON p) = 1) ∧
      t.get (Reg.WSQ.CHAFF.CNT p) = s.get (Reg.WSQ.CHAFF.CNT p) ∧ t.mem = s.mem ∧ t.eng = s.eng) ∧
    (fetchBad s p = false → fetchU s p = .illegal → ∃ t, exec (.illegalMicroword p) s = .next (noteFetch s p t) ∧
      t.get (Reg.WSQ.ERR.ILLUW p) = 1 ∧ t.get (Reg.WSQ.UNDEF.UADDR p) = (s.port p).seq.upc.toNat ∧
      (stays → tun t (fun g => { g with prog := .done, fate := { g.fate with
        cmt := false, stomped := true, stomp := g.fate.stomp || stompReaches s f, chaffed := g.fate.chaffed || stompReaches s f } }) ∧
        t.out = s.out) ∧
      (wrote = true → t.get (Reg.PI.INROLE.POISON p) = 1) ∧
      (f.fate.chaffed = false → stompReaches s f = true →
        t.get (Reg.WSQ.CHAFF.CNT p) = min (s.get (Reg.WSQ.CHAFF.CNT p) + 1) (2 ^ 32 - 1)) ∧
      t.mem = s.mem ∧ t.eng = s.eng) ∧
    (fetchBad s p = true → Completes (.illegalMicroword p) s (fun t =>
      t.get (Reg.WSQ.ERR.CSUE p) = 1 ∧ t.get (Reg.WSQ.CTRL.RUN p) = 0 ∧
      (∀ g ∈ (t.port p).tun, g.fctr = f.fctr → g.prog = .done ∧ (stompReaches s f = true → g.fate.stomp = true)) ∧ t.mem = s.mem))

/-- The control and cursor ops of the base set (R66, R88), and how a base routine ends (R65): `closeOp` is the closing NXW alone, where
R88 prints the routine, on the frame whose program runs; `closeFree` is the closing NXW after the registers that a routine may change
have become free values. SQ0, CMP2, CMP3, F1 and everything outside the sequencer stay (log entry 2). -/
def Obligations.WireControlOps : Prop :=
  (∀ (s : State) (p : Port) (f : Frame), s.running p = some f →
      closeOp p s = dispatch s p f ∧
      closeFree p s = dispatch (scratch p s) p f ∧
      (let t := scratch p s
       let a := (s.port p).seq
       let b := (t.port p).seq
       b.reg 0 = a.reg 0 ∧ b.cmp[(2 : Fin 4)] = a.cmp[(2 : Fin 4)] ∧ b.cmp[(3 : Fin 4)] = a.cmp[(3 : Fin 4)] ∧
       b.f1 = a.f1 ∧ b.stk = a.stk ∧ b.wpc = a.wpc ∧ b.wop = a.wop ∧ b.opc = a.opc ∧ b.upc = a.upc ∧ b.past = a.past ∧
       b.lastQ = a.lastQ ∧ t = { s.modSeq p (fun _ => b) with free := s.free + 13 })) ∧
  ∀ (s : State) (p : Port) (f : Frame),
    let q := (s.port p).seq
    let w := q.wop.toNat
    let goto (t : State) := t.modSeq p (fun x => { x with wpc := BitVec.ofNat 10 w })
    let cursorTo (v : Nat) (t : State) := t.modSeq p (fun x => x.setReg 0 (BitVec.ofNat 48 v))
    (AtWire s p f 0x01 → exec (.wEnd p) s = .next (noteFetch s p (endProgram s p f))) ∧
    (AtWire s p f 0x02 → exec (.wDrop p) s = .next (noteFetch s p (discardFrame s p f))) ∧
    (AtWire s p f 0x03 → exec (.wJmp p) s = .next (noteFetch s p (closeFree p (goto s)))) ∧
    (AtWire s p f 0x04 → exec (.wJf p) s =
      .next (noteFetch s p (closeFree p (if (w.testBit 10 = true ∧ q.f1 = true) ∨ (w.testBit 10 = false ∧ q.f0 = true) then goto s else s)))) ∧
    (AtWire s p f 0x05 → exec (.wNop p) s = .next (noteFetch s p (closeFree p s))) ∧
    (AtWire s p f 0x06 → exec (.wCommit p) s =
      .next (noteFetch s p (closeOp p (s.modFrame p f.fctr (fun g => { g with fate := { g.fate with cmt := g.fate.verdict != some false } }))))) ∧
    (AtWire s p f 0x07 → s.memBad (privAddr s p 0x90) 8 = false →
      exec (.wSignal p) s = .next (noteFetch s p (closeFree p (postEvent s p (eventRecord s p f 0x01 w))))) ∧
    (AtWire s p f 0x07 → s.memBad (privAddr s p 0x90) 8 = true →
      exec (.wSignal p) s = .next (noteFetch s p (abandonFrame (noteRead (privAddr s p 0x90) 8 (scratch p s)) p f))) ∧
    (AtWire s p f 0x08 → exec (.wSeek p) s = .next (noteFetch s p (closeOp p (cursorTo w s)))) ∧
    (AtWire s p f 0x09 → exec (.wAdv p) s = .next (noteFetch s p (closeFree p (cursorTo ((q.reg 0).toNat + w % 2 ^ 16) s)))) ∧
    (AtWire s p f 0x0A → exec (.wSkip p) s =
      .next (noteFetch s p (closeOp p ((cursorTo w s).modFrame p f.fctr (fun g => { g with cur := skipTo g (w % 2 ^ 16) }))))) ∧
    (AtWire s p f 0x0B → f.touch (s.tunDepth p) ((q.reg 0).toNat % 2 ^ 16) 2 = .ok →
      let o := (q.reg 0).toNat % 2 ^ 16
      let tagged := natBE (f.slice o 2) = 0x8100 ∨ natBE (f.slice o 2) = 0x88A8
      exec (.wTagskip p) s = .next (noteFetch s p (closeFree p ((if tagged then cursorTo ((q.reg 0).toNat + 4) s else s).modSeq p
        (fun x => { x with past := f.pastEnd o 2 }))))) ∧
    (AtWire s p f 0x0E → exec (.wSetf p) s = .next (noteFetch s p (closeOp p ((scratch p s).modSeq p (fun x =>
      if w.testBit 1 then { x with f1 := w.testBit 0 } else { x with f0 := w.testBit 0 })))))

/-- The base ops that add to, match or test frame fields (R66, R88), where the window rule lets the access: ADDW, ADDL, CORR,
MATET, MATDA, MATCH and TEST. The reads of match entries record their errors (R298), and an entry with an uncorrectable error
abandons the frame (R299). -/
def Obligations.WireFieldOps : Prop :=
  ∀ (s : State) (p : Port) (f : Frame),
    let q := (s.port p).seq
    let w := wop s p
    let o := cursor s p
    let depth := s.tunDepth p
    let put (bs : List Byte) (t : State) := t.modFrame p f.fctr (fun g => g.deposit o bs)
    let move (n : Nat) (t : State) := t.modSeq p (fun x => x.setReg 0 (x.reg 0 + BitVec.ofNat 48 n))
    let past (k n : Nat) (t : State) := t.modSeq p (fun x => { x with past := f.pastEnd k n })
    (AtWire s p f 0x0C → f.touch depth o 2 = .ok → ∃ x bs,
      natBE bs = (natBE (f.slice o 2) + w) % 2 ^ 16 ∧ bs.length = 2 ∧
      x.reg 0 = q.reg 0 + 2 ∧ x.past = f.pastEnd o 2 ∧ x.opc = q.opc ∧ x.wpc = q.wpc ∧ x.f0 = q.f0 ∧ x.f1 = q.f1 ∧
      x.cmp = q.cmp ∧ exec (.wAddw p) s = .next (noteFetch s p (closeOp p (put bs (s.modSeq p (fun _ => x)))))) ∧
    (AtWire s p f 0x0D → f.touch depth o 4 = .ok → exec (.wAddl p) s =
      .next (noteFetch s p (closeFree p (move 4 (past o 4 (put (bytesBE 4 (natBE (f.slice o 4) + w)) s)))))) ∧
    (AtWire s p f 0x43 → f.touch depth o 8 = .ok → exec (.wCorr p) s =
      .next (noteFetch s p (closeFree p (move 8 (put (bytesBE 8 (BitVec.ofNat 64 (natBE (f.slice o 8)) +
        (BitVec.ofNat 48 (delayReg s p)).signExtend 64).toNat) s))))) ∧
    (AtWire s p f 0x10 → f.touch depth o 2 = .ok → ∃ x,
      x.past = f.pastEnd o 2 ∧ x.opc = q.opc ∧ x.wpc = q.wpc ∧ x.f0 = q.f0 ∧ x.f1 = q.f1 ∧ x.cmp = q.cmp ∧
      (natBE (f.slice o 2) ≠ w % 2 ^ 16 → x.reg 0 = q.reg 0 ∧
        exec (.wMatet p) s = .next (noteFetch s p (endProgram (s.modSeq p (fun _ => x)) p f))) ∧
      (natBE (f.slice o 2) = w % 2 ^ 16 → x.reg 0 = q.reg 0 + 2 ∧
        exec (.wMatet p) s = .next (noteFetch s p (closeOp p (s.modSeq p (fun _ => x)))))) ∧
    (AtWire s p f 0x11 → f.touch depth 0 6 = .ok →
      let read (t : State) := Host.Outcome.next (noteFetch s p (noteRead (privAddr s p 0x1B0) 12 (noteRead (privAddr s p 0x1A0) 12 t)))
      (entryBad s p 0 = true ∨ entryBad s p 1 = true → exec (.wMatda p) s = read (abandonFrame (scratch p s) p f)) ∧
      (entryBad s p 0 = false → entryBad s p 1 = false → exec (.wMatda p) s = read (
        if entryMatches s p 0 (f.slice 0 6) = true ∨ entryMatches s p 1 (f.slice 0 6) = true
        then closeFree p (past 0 6 s) else endFree p f (past 0 6 s)))) ∧
    (let k := (cursor s p + wop s p % 2 ^ 12) % 2 ^ 16
     let e := wop s p / 2 ^ 12 % 32
     let read (t : State) := Host.Outcome.next (noteFetch s p (noteRead (privAddr s p (0x1A0 + 16 * e)) 12 t))
     (AtWire s p f 0x12 → f.touch depth k 6 = .ok →
      (entryBad s p e = true → exec (.wMatch p) s = read (abandonFrame (scratch p s) p f)) ∧
      (entryBad s p e = false → exec (.wMatch p) s = read (
        if entryMatches s p e (f.slice k 6) then closeFree p (past k 6 s) else endFree p f (past k 6 s)))) ∧
     (AtWire s p f 0x13 → f.touch depth k 6 = .ok →
      (entryBad s p e = true → exec (.wTest p) s = read (abandonFrame (scratch p s) p f)) ∧
      (entryBad s p e = false → exec (.wTest p) s = read (
        closeOp p ((scratch p (past k 6 s)).modSeq p (fun x => { x with f0 := entryMatches s p e (f.slice k 6) }))))))

/-- The base ops for process data and timestamps (R66, R88): AGE, RDB, RD, WRB, WR, TSRX, TSTX and TSIN, where the window rule
lets the frame access. A read of memory records the errors of its codewords (R298); the forms where a codeword with an
uncorrectable error stops the access (R299) are those of the statement MicroMemoryOps. Beyond the bounds of its image an access reads 0
or writes nothing, raises BOUND and poisons the buffer being filled, and the routine goes on; with no current output buffer WRB and WR
deposit zeros (R70). -/
def Obligations.WireDataOps : Prop :=
  ∀ (s : State) (p : Port) (f : Frame) (n x : Nat),
    let q := (s.port p).seq
    let w := wop s p
    let o := cursor s p
    let put (bs : List Byte) (t : State) := t.modFrame p f.fctr (fun g => g.deposit o bs)
    let move (k : Nat) (t : State) := t.modSeq p (fun y => y.setReg 0 (y.reg 0 + BitVec.ofNat 48 k))
    (AtWire s p f 0x14 → f.touch (s.tunDepth p) o 1 = .ok → exec (.wAge p) s = .next (noteFetch s p (closeFree p (move 1 (put (bytesLE 1 (
      if s.on (Reg.PI.OUTROLE.CVALID p) then min (s.load (outBuf s p (s.get (Reg.PI.OUTROLE.CUR p)) + 6) 2) 0xFE
      else 0xFF)) s))))) ∧
    (1 ≤ n → n ≤ 3 → AtWire s p f (0x17 + n) → f.touch (s.tunDepth p) o n = .ok →
      memRef s p 1 (w % 2 ^ 19) n false = .at x → cluMerges s x n = false →
      exec (.wRdb p) s = .next (noteFetch s p (closeFree p (move n (seqStored s p f 1 x (f.slice o n)))))) ∧
    (1 ≤ n → n ≤ 3 → AtWire s p f (0x17 + n) → f.touch (s.tunDepth p) o n = .ok → memRef s p 1 (w % 2 ^ 19) n false = .bound →
      exec (.wRdb p) s = .next (noteFetch s p (closeFree p (move n (boundError p s))))) ∧
    (1 ≤ n → n ≤ 3 → AtWire s p f (0x1A + n) → f.touch (s.tunDepth p) o n = .ok →
      memRef s p 2 (w % 2 ^ 19) n true = .at x → cluBad s x n = false →
      exec (.wWrb p) s = .next (noteFetch s p (closeFree p (move n (put (cluBytes s x n) (cluNote x n s)))))) ∧
    (1 ≤ n → n ≤ 3 → AtWire s p f (0x1A + n) → f.touch (s.tunDepth p) o n = .ok →
      (memRef s p 2 (w % 2 ^ 19) n true = .bound →
        exec (.wWrb p) s = .next (noteFetch s p (closeFree p (move n (put (List.replicate n 0) (boundError p s)))))) ∧
      (memRef s p 2 (w % 2 ^ 19) n true = .zero →
        exec (.wWrb p) s = .next (noteFetch s p (closeFree p (move n (put (List.replicate n 0) s)))))) ∧
    (1 ≤ n → n ≤ 16 → AtWire s p f (0x1F + n) → f.touch (s.tunDepth p) o (4 * n) = .ok →
      memRef s p 1 (w % 2 ^ 19) (4 * n) false = .at x → cluMerges s x (4 * n) = false →
      exec (.wRd p) s = .next (noteFetch s p (closeData p (4 * n) (4 * n == 24) w (seqStored s p f 1 x (f.slice o (4 * n)))))) ∧
    (1 ≤ n → n ≤ 16 → AtWire s p f (0x1F + n) → f.touch (s.tunDepth p) o (4 * n) = .ok →
      memRef s p 1 (w % 2 ^ 19) (4 * n) false = .bound →
      exec (.wRd p) s = .next (noteFetch s p (closeData p (4 * n) (4 * n == 24) w (boundError p s)))) ∧
    (1 ≤ n → n ≤ 16 → AtWire s p f (0x2F + n) → f.touch (s.tunDepth p) o (4 * n) = .ok →
      memRef s p 2 (w % 2 ^ 19) (4 * n) true = .at x → cluBad s x (4 * n) = false →
      exec (.wWr p) s = .next (noteFetch s p (closeData p (4 * n) (4 * n == 16) w (put (cluBytes s x (4 * n)) (cluNote x (4 * n) s))))) ∧
    (1 ≤ n → n ≤ 16 → AtWire s p f (0x2F + n) → f.touch (s.tunDepth p) o (4 * n) = .ok →
      (memRef s p 2 (w % 2 ^ 19) (4 * n) true = .bound → exec (.wWr p) s =
        .next (noteFetch s p (closeData p (4 * n) (4 * n == 16) w (put (List.replicate (4 * n) 0) (boundError p s))))) ∧
      (memRef s p 2 (w % 2 ^ 19) (4 * n) true = .zero → exec (.wWr p) s =
        .next (noteFetch s p (closeData p (4 * n) (4 * n == 16) w (put (List.replicate (4 * n) 0) s))))) ∧
    (∀ i, (AtWire s p f 0x40 ∧ i = .wTsrx p) ∨ (AtWire s p f 0x41 ∧ i = .wTstx p) → w % 4 = 3 →
      exec i s = .next (noteFetch s p (illegalWord (scratch p (jumpU p (s.freeVal 14) s.took)) p f (Reg.WSQ.ERR.ILLUW p)))) ∧
    (∀ tx i, (tx = false ∧ AtWire s p f 0x40 ∧ i = .wTsrx p) ∨ (tx = true ∧ AtWire s p f 0x41 ∧ i = .wTstx p) →
      w % 4 ≠ 3 →
      let st := f.stamps[Fin.ofNat 4 (w / 4)]
      let stamp := if tx then st.txPoint (s.get (Reg.LP.DELAY.PS p)) else st
      let bs := if w % 4 = 0 then bytesBE 6 stamp.hi.toNat ++ bytesBE 4 (stamp.lo.toNat / 2 ^ 18)
        else if w % 4 = 1 then bytesBE 4 stamp.hi.toNat ++ bytesBE 4 (stamp.lo.toNat / 2 ^ 18)
        else bytesBE 6 stamp.lo.toNat
      f.touch (s.tunDepth p) o bs.length = .ok →
      exec i s = .next (noteFetch s p (closeFree p (move bs.length (put bs s))))) ∧
    (AtWire s p f 0x42 → memRef s p 1 (w % 2 ^ 19) 6 false = .at x → cluMerges s x 6 = false →
      exec (.wTsin p) s =
        .next (noteFetch s p (closeFree p (seqStored s p f 1 x (bytesLE 6 (f.stamps[(0 : Fin 4)]).lo.toNat))))) ∧
    (AtWire s p f 0x42 → memRef s p 1 (w % 2 ^ 19) 6 false = .bound →
      exec (.wTsin p) s = .next (noteFetch s p (closeFree p (boundError p s))))

/-- The base ops that wait, queue and handle redundancy (R66, R78, R85). The recovery algorithm `Stream.check` follows the
standard R85 names (log entry 10). -/
def Obligations.WireQueueOps : Prop :=
  ∀ (s : State) (p : Port) (f : Frame),
    let q := (s.port p).seq
    let w := wop s p
    let o := cursor s p
    let n := cluOf p
    let move (k : Nat) (t : State) := t.modSeq p (fun y => y.setReg 0 (y.reg 0 + BitVec.ofNat 48 k))
    let past (k l : Nat) (t : State) := t.modSeq p (fun x => { x with past := f.pastEnd k l })
    (AtWire s p f 0x44 → exec (.wWaitt p) s =
      .next (if (if w.testBit 0 then q.tmr1 else q.tmr0) then noteFetch s p (closeFree p s) else s)) ∧
    (AtWire s p f 0x45 → exec (.wWaitg p) s =
      .next (if gateOpen s p (s.get (Reg.WSQ.CTRL.GCLS p)) then noteFetch s p (closeFree p s) else s)) ∧
    (AtWire s p f 0x46 → exec (.wWaitw p) s =
      .next (if s.lineOpen n (portLine p) then noteFetch s p (closeFree p s) else s)) ∧
    (AtWire s p f 0x48 → exec (.wQueue p) s = .next (noteFetch s p (closeFree p (queFrame p f (BitVec.ofNat 2 w) s)))) ∧
    (AtWire s p f 0x49 → exec (.wQend p) s = .next (noteFetch s p (endProgram (scratch p (queFrame p f (BitVec.ofNat 2 w) s)) p f))) ∧
    (AtWire s p f 0x4A → exec (.wSink p) s = .next (noteFetch s p (discardFrame (scratch p (queFrame p f (BitVec.ofNat 2 w) s)) p f))) ∧
    (AtWire s p f 0x50 → f.touch (s.tunDepth p) o 2 = .ok →
      let r := ((s.clu n).stream (w % 512)).check (BitVec.ofNat 16 (natBE (f.slice o 2)))
      let t := past o 2 (s.modClu n (fun c => c.setStream (w % 512) r.1))
      exec (.wSeqchk p) s = .next (noteFetch s p (if r.2 then closeFree p (move 2 t) else discardFrame (scratch p t) p f))) ∧
    (AtWire s p f 0x51 → f.touch (s.tunDepth p) o 2 = .ok →
      let x := (s.clu n).stream (w % 512)
      exec (.wSeqgen p) s = .next (noteFetch s p (closeFree p (move 2 ((s.modFrame p f.fctr (fun g =>
        g.deposit o (bytesBE 2 x.gen.toNat))).modClu n (fun c => c.setStream (w % 512) { x with gen := x.gen + 1 })))))) ∧
    (AtWire s p f 0x52 → f.touch (s.tunDepth p) 6 6 = .ok → f.touch (s.tunDepth p) o 6 = .ok →
      let src := natBE (f.slice 6 6)
      let seen := (s.clu n).dup src (natBE (f.slice (o + 4) 2))
      let own := entryMatches s p 0 (f.slice 6 6)
      let done (t : State) := Host.Outcome.next (noteFetch s p (noteRead (privAddr s p 0x1A0) 12 t))
      (entryBad s p 0 = true → exec (.wHsrchk p) s = done (abandonFrame (scratch p s) p f)) ∧
      (entryBad s p 0 = false → own = true → exec (.wHsrchk p) s = done (discardFrame (scratch p s) p f)) ∧
      (entryBad s p 0 = false → own = false → (∃ e d, f.egress = some e ∧ seen = some d ∧ d.fwd.contains e = true) →
        exec (.wHsrchk p) s = done (discardFrame (scratch p (s.count (Reg.DUP.STAT.DUPS n))) p f)) ∧
      (entryBad s p 0 = false → own = false → (∀ e d, f.egress = some e → seen = some d → d.fwd.contains e = false) →
        ∃ t, exec (.wHsrchk p) s = done (closeOp p t) ∧ t.mem = s.mem ∧
          (t.port p).tun = (s.port p).tun.map (fun g =>
            if g.fctr = f.fctr then { g with dupKey := some (src, natBE (f.slice (o + 4) 2)) } else g) ∧
          (∀ d, seen = some d → d.queued = true → (t.port p).seq.f0 = true))) ∧
    (AtWire s p f 0x53 → f.eof = false → exec (.wPrpchk p) s = .next s) ∧
    (AtWire s p f 0x53 → f.eof = true → f.touch (s.tunDepth p) (f.bytes.length - 10) 6 ≠ .violation →
      ∃ t, exec (.wPrpchk p) s = .next (noteFetch s p (closeOp p t)) ∧ t.mem = s.mem ∧
        (natBE ((f.bytes.drop (f.bytes.length - 6)).take 2) ≠ 0x88FB → 24 ≤ f.bytes.length →
          (t.port p).seq.f0 = false ∧ t.clusters = s.clusters))

/-- The Tiller wire ops and TWCHK (R131, R133, R137, R148, R152, R153, R171, R174): that each completes at its wire op once the
bytes it works on have arrived, and what it leaves. The ops that work through a slot or a whole frame are stated with `eachPiece`,
which goes as far as the bytes that have arrived allow; what it does where there is nothing left to do, and for a slot without
payload, is stated beside. -/
def Obligations.TillerWireOps : Prop :=
  ∀ (s : State) (p : Port) (f : Frame),
    let q := (s.port p).seq
    let w := wop s p
    let r := cluOf p
    let depth := s.tunDepth p
    let row := slotRow s p w
    let stop := row.off + 8 + row.len
    let start := if q.part = 0 then toPart p 1 row.off s else s
    let behind (o : Nat) (t : State) : State := closeOp p ((scratch p t).modSeq p (fun x => x.setReg 0 (BitVec.ofNat 48 o)))
    let done (t : State) : Host.Outcome State Fault Refusal := .next (noteFetch s p t)
    (AtWire s p f 0x70 → exec (.wTwchk p) s =
      done (closeOp p ((scratch p s).modSeq p (fun x => { x with f1 := q.role.getLsbD 0 })))) ∧
    (AtWire s p f 0x62 → q.role.getLsbD 0 = true → exec (.wTlsum p) s = done (closeFree p s)) ∧
    (AtWire s p f 0x62 → q.role.getLsbD 0 = false → f.touch depth (64 + 8 * (w % 8)) 8 = .ok →
      ∃ bs, bs.length = 8 ∧
        natBE bs = (natBE (f.slice (64 + 8 * (w % 8)) 8) + s.load (privAddr s p (0x3D0 + 8 * (w % 8))) 8) % 2 ^ 64 ∧
        exec (.wTlsum p) s = done (closeFree p (s.modFrame p f.fctr (fun g => g.deposit (64 + 8 * (w % 8)) bs)))) ∧
    (AtWire s p f 0x61 → f.touch depth 24 40 = .ok → Completes (.wTlsync p) s (fun t => t = noteFetch s p (syncRoutine p f s)) ∧
      ∃ u, syncRoutine p f s = closeOp p u ∧ (u.port p).seq.reg 0 = 64 ∧
        (s.on Reg.TIL.TSRC.EN = false → (u.port p).tun = (s.port p).tun.map (fun g => if g.fctr = f.fctr then
          g.deposit 42 (bytesBE 8 (BitVec.ofNat 64 (f.num 42 8) + (BitVec.ofInt 48 (linkReg s p + delayReg s p)).signExtend 64).toNat)
          else g))) ∧
    (AtWire s p f 0x60 → q.part = 0 → f.touch depth 0 32 = .ok →
      let t := if srcInSegment s p f then noteEpoch p (f.num 16 3 % 512) (f.num 22 2) s else s
      (isTiller s f = false → exec (.wTlhdr p) s = done (endProgram (scratch p s) p f)) ∧
      (isTiller s f = true → staleFrame s p f = true → exec (.wTlhdr p) s =
        done (discardFrame (scratch p (opEvent p f 6 (s.count (Reg.TIL.RING.STALECNT.CNT r)))) p f)) ∧
      (isTiller s f = true → staleFrame s p f = false → f.byte 15 = 1 →
        let u := noteSheaf p f (deliverFrame p f t)
        let v := scratch p (if endsHere u p f then sinkFrame p f u else u)
        exec (.wTlhdr p) s = done (if isMaster v p && (f.num 30 2).testBit 15
          then closeOp p (jumpOp p (wop (if endsHere u p f then sinkFrame p f u else u) p) (sinkReturned p f v))
          else closeOp p (v.modSeq p (fun x => x.setReg 0 32)))) ∧
      (isTiller s f = true → staleFrame s p f = false → f.byte 15 = 7 →
        (fromSelf t p f = true → opSby t p = false → exec (.wTlhdr p) s = done (discardFrame (scratch p t) p f)) ∧
        (fromSelf t p f = false → forNode t p f = false → forAll t p f = false →
          exec (.wTlhdr p) s = done (endProgram (scratch p t) p f)))) ∧
    (AtWire s p f 0x63 →
      (let g := eachPiece p stop (readPiece p row) 8192 start
       Completes (.wTlread p) s (fun t => t = noteFetch s p (if g.1 then behind stop g.2 else g.2))) ∧
      (q.part ≠ 0 → stop ≤ q.step → exec (.wTlread p) s = done (behind stop s)) ∧
      (q.part = 0 → row.len = 0 → { f with cur := skipTo f row.off }.touch depth row.off 8 = .ok →
        exec (.wTlread p) s = done (behind stop ((readPiece p row row.off 8 { f with cur := skipTo f row.off }
          (moveTo p f row.off (toPart p 1 row.off s))).modSeq p (fun x => { x with step := stop }))))) ∧
    (AtWire s p f 0x64 →
      (let g := eachPiece p stop (ownPiece p row) 8192 start
       Completes (.wTlslot p) s (fun t => t = noteFetch s p (if g.1 then behind stop g.2 else g.2))) ∧
      (q.part ≠ 0 → stop ≤ q.step → exec (.wTlslot p) s = done (behind stop s)) ∧
      (q.part = 0 → row.len = 0 → q.role.getLsbD 0 = true → { f with cur := skipTo f row.off }.touch depth row.off 8 = .ok →
        exec (.wTlslot p) s = done (behind stop ((moveTo p f row.off (toPart p 1 row.off s)).modSeq p (fun x =>
          { x with step := stop }))))) ∧
    (AtWire s p f 0x65 → q.part = 0 → f.touch depth 0 64 = .ok →
      Completes (.wTlbuild p) s (fun t => t = noteFetch s p (toPart p 1 64 (buildHeader p f s)))) ∧
    (AtWire s p f 0x65 → q.part ≠ 0 →
      let len := sheafLen s r (s.ring r).slots
      let starts := (slotOffsets (firstSlot s r) (s.ring r).slots).map (·.1)
      let g := eachPiece p len (buildPiece p row (carryAge s r) starts) 8192 s
      Completes (.wTlbuild p) s (fun t => t = noteFetch s p (if g.1 then behind len g.2 else g.2)) ∧
      (len ≤ q.step → exec (.wTlbuild p) s = done (behind len s))) ∧
    (AtWire s p f 0x66 →
      let len := if f.eof then f.bytes.length else f.bytes.length / 8 * 8
      let g := eachPiece p len (carryPiece p) 8192 s
      Completes (.wTlcarry p) s (fun t =>
        (g.2.running p = none → t = noteFetch s p g.2) ∧
        (∀ h, g.2.running p = some h → g.1 = true ∧ h.eof = true ∧ h.fate.verdict.isSome = true →
          t = noteFetch s p (closeFree p (carryEnd p h g.2))) ∧
        (∀ h, g.2.running p = some h → g.1 = false ∨ h.eof = false ∨ h.fate.verdict = none → t = noteFetch s p g.2)) ∧
      (len ≤ q.step → f.eof = true → f.fate.verdict.isSome = true →
        exec (.wTlcarry p) s = done (closeFree p (carryEnd p f s))))

/-- A control-store load (R47, R48): GO is refused while a program may run, and otherwise marks the port busy and asks for the
permit; the first pass, with its permit, checks the package; the second pass writes the words and either completes or zeroes
the dispatch table; ABORT ends a load that is not past its first pass. The host's CSLOAD is committed as the second pass begins
(R354). A pass over external memory is done once all its read commands have left, which they do with master credits (R413, R417; log
entry 51); each pass reads the address registers as they stand then (log entry 68). -/
def Obligations.ControlStoreLoad : Prop :=
  ∀ (s : State) (p : Port),
    ((s.port p).csld = none → s.on (Reg.WSQ.STAT.RUNACT p) = true → exec (.csldGo p) s = .next (endLoad p 3 s)) ∧
    ((s.port p).csld = none → s.on (Reg.WSQ.STAT.RUNACT p) = false → exec (.csldGo p) s =
      .next (askPermit p 0 (((s.raise (Reg.WSQ.CSLD.STAT.BUSY p)).raise (Reg.WSQ.STAT.LOADING p)).modPort p
        (fun x => { x with csld := some .first })))) ∧
    ((s.port p).csld ≠ none → exec (.csldGo p) s = .next s) ∧
    (∀ keyHash ext err, (s.port p).csld = some .first → s.holds p = true →
      let b := readPackage s p none ext err
      let r := sourceRead p 17 (packAddr s p) b.1.length b s
      let u := r.2
      (isExternal (packAddr s p) = false ∨ (s.bulk.contains p.val = true ∧ s.unsent 17 false = false) → r.1 = true) ∧
      exec (.csldFirstPassDone p keyHash ext err) s = .next (
        if r.1 = false then u
        else if b.2 then endLoad p 4 u
        else if packResult b.1 keyHash = 0 then
          commitCsload p (u.modPort p (fun x => { x with csld := some (.second (b.1.take 0x50) (packDigest b.1)) }))
        else endLoad p (packResult b.1 keyHash) u)) ∧
    (∀ head digest ext err, (s.port p).csld = some (.second head digest) →
      let b := readPackage s p (some head) ext err
      let r := sourceRead p 17 (packAddr s p) b.1.length b s
      let u := writePackage p head b.1 r.2
      (isExternal (packAddr s p) = false ∨ (s.bulk.contains p.val = true ∧ s.unsent 17 false = false) → r.1 = true) ∧
      exec (.csldSecondPassDone p ext err) s = .next (
        if r.1 = false then r.2
        else if b.2 then endLoad p 4 (zeroDispatch p u)
        else if sha256 (b.1.take (packLength head - 64)) = digest then endLoad p 0 u
        else endLoad p 2 (zeroDispatch p u))) ∧
    ((s.port p).csld = some .first → exec (.csldAbort p) s = .next (endLoad p 5 s)) ∧
    (∀ r, r < 8 → Completes (.csldAbort p) (endLoad p r s) (fun t => t = endLoad p r s ∧ (t.port p).csld = none ∧ (t.port p).csldAt = none ∧
      t.get (Reg.WSQ.CSLD.STAT.RESULT p) = r ∧ t.get (Reg.WSQ.CSLD.STAT.BUSY p) = 0 ∧
      t.get (Reg.WSQ.CSLD.STAT.DONE p) = 1 ∧ t.get (Reg.WSQ.STAT.LOADING p) = 0 ∧ t.mem = s.mem ∧
      (r ≠ 0 → t.get (Reg.WSQ.ERR.LOADFAIL p) = 1)))

/-- The transmit MAC, gate lists, preemption and redundancy timers (R29, R81-R86, R100, R105, R107): a frame of the Tiller firmware
that waits for a guarded span goes first, then the highest class that can act, whatever the kinds of the heads; what selecting one
class does (`classStart`, `tryThru`), and what each command does with it. The reads of the heads record their errors (R298). A head that
cannot be read holds its queue (log entry 75). The model's readings too: the stamp of a THRU frame and when it is written (log entry 28);
when a launch time is due (log entry 64). -/
def Obligations.TransmitCommands : Prop :=
  ∀ (s : State) (p : Port),
    let x := s.port p
    let n := noteHeads p s
    let first (tap : Nat) := firstClass (classStart p tap n)
    let held : Bool := x.gate.hold && preemptActive s p
    (∀ tap b rest, macIdle s p = true → x.ringWait = b :: rest → frameCheck s p (s.get (Reg.LP.STAT.RATE p)) (b.length - 4) tap 0 = .ok →
      exec (.txDescriptorStart p tap) s = .next ((s.modPort p (fun y => { y with ringWait := rest })).emit (.frame p.val b))) ∧
    (∀ tap t, macFree s p = true → sendWaiting p tap s = none → first tap = some (.queued, t) →
      exec (.txDescriptorStart p tap) s = .next t) ∧
    (∀ tap h, macIdle s p = true → sendWaiting p tap s = none → first tap = none ∨ s.on (Reg.PX.STAT.DRAIN p) = true →
      x.txHeld = some h → held = false →
      exec (.txDescriptorStart p tap) s = .next (n.modPort p (fun y => { y with tx := some h, txHeld := none }))) ∧
    (∀ tap h, macIdle s p = true → sendWaiting p tap s = none → first tap = none ∨ s.on (Reg.PX.STAT.DRAIN p) = true →
      x.txHeld = some h → held = true → exec (.txDescriptorStart p tap) s = .next n) ∧
    (∀ tap, macIdle s p = false → exec (.txDescriptorStart p tap) s = .next s) ∧
    (∀ tap t, macFree s p = true → first tap = some (.launched, t) → exec (.txLaunch p tap) s = .next t) ∧
    (∀ tap, macFree s p = false → exec (.txLaunch p tap) s = .next s) ∧
    (n.mem = s.mem ∧ n.ports = s.ports ∧ n.out = s.out ∧
      ((∀ c : Fin 8, s.get (Reg.PQ.TX.CFG.COUNT p c) = 0 ∨ s.get (Reg.PQ.TX.HEAD.HEAD p c) = s.get (Reg.PQ.TX.TAIL.TAIL p c)) → n = s)) ∧
    (∀ (c : Fin 8) tap t, headStarted s p c = false → headDesc s p c = some t → t.good = true → t.isThru = false →
      enough (longestOpen s p c) (frameNs s p t.len) = true → enough (openFor s p c) (frameNs s p t.len) = true →
      heldBack s p c = false →
      let ready : Prop := frameCheck s p (s.get (Reg.LP.STAT.RATE p)) t.len tap 0 = .ok ∧ s.readable t.addr 1 = true
      (t.launch = false → ready → classStart p tap s c = some (.queued, startTx p t tap s)) ∧
      (t.launch = false → frameCheck s p (s.get (Reg.LP.STAT.RATE p)) t.len tap 0 = .ok → s.readable t.addr 1 = false →
        classStart p tap s c = some (.queued, completeDesc p t 6 (noteRead t.addr 1 s))) ∧
      (t.launch = true → launchDue s p t tap = true → ready → classStart p tap s c = some (.launched, startTx p t tap s)) ∧
      (t.launch = true → launchDue s p t tap = true → frameCheck s p (s.get (Reg.LP.STAT.RATE p)) t.len tap 0 ≠ .ok →
        classStart p tap s c = some (.launched,
          completeDesc p t 3 (s.count (Reg.TTW.LATE.CNT (cluOf p) (portLine p)))))) ∧
    (∀ (c : Fin 8) tap t, headStarted s p c = false → headDesc s p c = some t →
      (t.good = false → classStart p tap s c = some (.queued, completeDesc p t 4 s)) ∧
      (t.good = true → t.launch = true → launchDue s p t tap = false → classStart p tap s c = none) ∧
      (t.good = true → t.launch = false → t.isThru = false → enough (longestOpen s p c) (frameNs s p t.len) = false →
        classStart p tap s c = some (.queued, completeDesc p t 5 s))) ∧
    (∀ tap t, s.on (Reg.PX.STAT.ENACT p) = true → s.on (Reg.PX.STAT.DRAIN p) = false →
      (firstClass (tryThru p tap n) = some t → exec (.thruLaunch ⟨p, tap⟩) s = .next t) ∧
      (firstClass (tryThru p tap n) = none → first tap = some (.thru, t) → exec (.thruLaunch ⟨p, tap⟩) s = .next t)) ∧
    (∀ (c : Fin 8) tap t, headDesc s p c = some t → t.isThru = true → t.good = true → t.launch = true →
      launchDue s p t tap = true → x.thru = none → s.arriving p = none → s.get (Reg.WSQ.CTRL.EGR p) % 4 = 0 →
      s.readable t.addr 1 = true →
      tryThru p tap s c = some ((noteRead (descAddr s p t.cls t.idx) 16 s).modPort p (fun y =>
        { y with thru := some t, launched := s.stamps 0 tap, launchAge := 0 - tap }))) ∧
    (∀ t, x.tx = some t → s.readable t.addr t.len = true → t.ended = none → s.bit Reg.GLB.MI.LINK.LINK p.val = true →
      Completes (.txComplete p) s (fun u => u = noteEcho p t (completeDesc p t 0
        (((noteRead t.addr t.len s).modPort p (fun y => { y with tx := none })).emit
          (.frame p.val (thruBytes ((noteRead t.addr t.len s).modPort p (fun y => { y with tx := none })) t)))))) ∧
    (∀ t, x.tx = some t → s.readable t.addr t.len = false → s.bit Reg.GLB.MI.LINK.LINK p.val = true →
      Completes (.txComplete p) s (fun u =>
        ∃ (bs : List Byte) (v : State), u = noteEcho p t (completeDesc p t 6 ((v.emit (.frame p.val bs)).count (Reg.WSQ.CHAFF.CNT p))) ∧
          v.mem = s.mem ∧ v.out = s.out ∧ (v.port p).tx = none ∧ 4 ≤ bs.length ∧
          (∀ k, (List.range t.len).find? (fun j => !s.readable (t.addr + j) 1) = some (k + 1) → t.sent ≤ k + 1 →
            bs = s.bytes t.addr (k + 1) ++ bytesLE 4 (~~~ (fcs (s.bytes t.addr (k + 1)))).toNat))) ∧
    (∀ t st, x.tx = none → x.thru = some t → t.ended = some st → exec (.txComplete p) s =
      .next (completeDesc p { t with stamp := thruStamp s p } st (s.modPort p (fun y => { y with thru := none })))) ∧
    (∀ t sent fwd, x.tx = some t → t.ended = none → preemptActive s p = true → preemptable s p t.cls = true →
      x.txHeld = none → t.sent + 64 * (1 + s.get (Reg.GCL.CTRL.FRAG p)) ≤ sent → sent + 64 ≤ t.len + 4 →
      exec (.txPreempt p sent fwd) s =
        .next (s.modPort p (fun y => { y with tx := none, txHeld := some { t with sent := sent } }))) ∧
    (∀ t sent, x.tx = some t → t.ended = none → preemptActive s p = false → exec (.txPreempt p sent true) s =
      .next (s.modPort p (fun y => { y with tx := some { t with ended := some 2, sent := sent } }))) ∧
    (s.get (Reg.GCL.LEN.LEN p) = 0 ∨ 1024 < s.get (Reg.GCL.LEN.LEN p) ∨ s.get (Reg.GCL.CYCLE.NS p) = 0 →
      exec (.gclChange p) s = .next (s.raise (Reg.GCL.STAT.CFGERR p))) ∧
    (s.get (Reg.GCL.LEN.LEN p) ≠ 0 → s.get (Reg.GCL.LEN.LEN p) ≤ 1024 → s.get (Reg.GCL.CYCLE.NS p) ≠ 0 →
      Completes (.gclChange p) s (fun t => t.get (Reg.GCL.STAT.PENDING p) = 1 ∧ t.mem = s.mem ∧
        ∃ start, (t.port p).gate = { x.gate with pend := some (s.get (Reg.GCL.CYCLE.NS p), s.get (Reg.GCL.EXT.NS p), start,
          s.get (Reg.GCL.LEN.LEN p), Fin.ofNat 4 (s.get (Reg.GCL.CTRL.TDOM p))) })) ∧
    (∀ cycle ext start len d, x.gate.pend = some (cycle, ext, start, len, d) → start ≤ (s.dom d).absNs →
      Completes (.gclActivate p) s (fun t => t.get (Reg.GCL.STAT.PENDING p) = 0 ∧
        t.get (Reg.GCL.STAT.OPERBANK p) = (1 - s.get (Reg.GCL.STAT.OPERBANK p)) % 2 ∧ (t.port p).gate.valid = true ∧
        (t.port p).gate.pend = none ∧ (t.port p).gate.idx = 0 ∧ (t.port p).gate.since = start ∧
        (t.port p).gate.cycle = cycle ∧ (t.port p).gate.len = len)) ∧
    (x.gate.valid = true → x.gate.since + (entrySpan s p x.gate.idx).2 ≤ (s.dom x.gate.dom).absNs →
      x.gate.idx + 1 < x.gate.len → (entrySpan s p x.gate.idx).1 + (entrySpan s p x.gate.idx).2 < x.gate.cycle →
      exec (.gateIntervalEnd p) s =
        .next (enterEntry p (x.gate.idx + 1) (x.gate.since + (entrySpan s p x.gate.idx).2) s)) ∧
    (∀ n i v, s.get (Reg.FRER.CFG.RESETMS n.val) ≠ 0 → lookup i.val (s.clu n).streams = some v →
      exec (.streamResetTimer n i) s = .next (s.modClu n (fun c =>
        { c with streams := insertAt i.val { v with takeAny := true } c.streams }))) ∧
    (∀ n, exec (.dupForget n) s = .next (s.modClu n (fun c => { c with dups := c.dups.drop 1 })))

/-- The time domains (R91-R94, R120): SET, STEP, the rate word, one clock cycle, and the make-up after a sleep. Time is counted
in units of 2^-50 ns, TIME with its hidden extension. The stamp of an edge before a change keeps the time and the rate of its edge. That a step
with no command waiting is one clock cycle is the model's choice (log entry 1). -/
def Obligations.TimeDomains : Prop :=
  (∀ (s : State) (d : Fin 4),
    let old := s.dom d
    let lo := s.get48 (Reg.TU.D.SETL_L.LO d) (Reg.TU.D.SETL_H.LO d)
    let step := (s.get48 (Reg.TU.D.STEP_L.STEP d) (Reg.TU.D.STEP_H.STEP d)).toInt
    let others (t : State) : Prop := (∀ k : Fin 4, k ≠ d → t.dom k = s.dom k) ∧ t.mem = s.mem ∧ t.eng = s.eng ∧
      (t.dom d).held = old.held ∧
      ∀ age tap, 1 ≤ age → age ≤ old.since → stampIn t (t.dom d) age tap = stampIn s old age tap
    (1000000000 ≤ lo.toNat / 2 ^ 18 → exec (.timeSet d) s = .next (s.raise (Reg.TU.D.STAT.SETERR d))) ∧
    (lo.toNat / 2 ^ 18 < 1000000000 → Completes (.timeSet d) s (fun t =>
      (t.dom d).hi = s.get48 (Reg.TU.D.SETS_L.SEC d) (Reg.TU.D.SETS_H.SEC d) ∧ (t.dom d).lo = lo ∧ (t.dom d).ext = 0 ∧
      (t.dom d).adj = old.adj ∧
      t.get (Reg.TU.D.STAT.STEPPED d) = 1 ∧ others t)) ∧
    Completes (.timeStep d) s (fun t =>
      ((t.dom d).total : Int) = (old.total + step * 2 ^ 32) % (2 ^ 48 * secUnits : Nat) ∧ (t.dom d).ns < 1000000000 ∧
      (t.dom d).adj = old.adj ∧ t.get (Reg.TU.D.STAT.STEPPED d) = 1 ∧ others t) ∧
    (∀ v : BitVec 16, let w : Word := v ++ old.held
      Completes (.adjWrite d v) s (fun t =>
        (t.dom d).adj.toInt = max (-2 ^ 39) (min (2 ^ 39) w.toInt) ∧
        (t.dom d).total = old.total ∧
        t.get48 (Reg.TU.D.ADJ_L.ADJ d) (Reg.TU.D.ADJ_H.ADJ d) = (t.dom d).adj ∧ others t ∧
        (2 ^ 39 < w.toInt ∨ w.toInt < -2 ^ 39 → t.get (Reg.TU.D.STAT.RATECLAMP d) = 1) ∧
        (-2 ^ 39 ≤ w.toInt → w.toInt ≤ 2 ^ 39 → t.get (Reg.TU.D.STAT.RATECLAMP d) = s.get (Reg.TU.D.STAT.RATECLAMP d))))) ∧
  (∀ (s : State), s.pending = [] → s.boot.inReset = false → s.up 0 = true → s.stopped = [] → s.tap.edges = [] → s.hgDue = [] →
    (∀ e : Eng, (s.engine e).moves = []) → ∃ t, step s = .next t ∧
    (∀ d : Fin 4, ((t.dom d).total : Int) =
      ((s.dom d).total + 5 * (2 ^ 48 + (s.dom d).adj.toInt)) % (2 ^ 48 * secUnits : Nat) ∧ (t.dom d).ns < 1000000000) ∧
    (∀ n : Clu, s.cluUp n = true → (t.clu n).cnt = (s.clu n).cnt + 1) ∧
    (∀ e : Eng, let runs : Prop := s.engRuns e = true ∧ s.up (engDom e) = true ∧ (s.parked e = false ∨ s.midBundle e = true)
      (runs → (t.engine e).exc.cyc = (s.engine e).exc.cyc + 1) ∧ (¬ runs → (t.engine e).exc.cyc = (s.engine e).exc.cyc)) ∧
    t.mem = s.mem ∧ t.pending = []) ∧
  (∀ (s : State) (k : Fin 5) (n : BitVec 32),
    (k.val ∉ s.stopped → exec (.domainRestart k n) s = .next s) ∧
    (s.boot.inReset = true → exec (.domainRestart k n) s = .next s) ∧
    (s.boot.inReset = false → 0 ∈ s.stopped → s.up 0 = true → Completes (.domainRestart 0 n) s (fun t =>
      0 ∉ t.stopped ∧ t.get Reg.TU.SLEEP.TICKS = n.toNat ∧ t.mem = s.mem ∧
      ∀ d : Fin 4, t.get (Reg.TU.D.STAT.UNSYNC d) = 1 ∧
        (t.dom d).total = ((s.dom d).total + n.toNat * 8000000000 * 2 ^ 32) % (2 ^ 48 * secUnits))) ∧
    (∀ c : Clu, k.val = c.val + 1 → s.boot.inReset = false → k.val ∈ s.stopped → s.up k.val = true → Completes (.domainRestart k n) s (fun t =>
      k.val ∉ t.stopped ∧ (t.clu c).cnt = (s.clu c).cnt + BitVec.ofNat 48 ((n.toNat * 390625 + 8) / 16) ∧
      t.get (Reg.TMR.SLEEP.TICKS c) = n.toNat ∧ t.get (Reg.TMR.STAT.MAKEUP c) = 1)))

/-- Calibration, PPS outputs, timer pins and window tables (R102, R106, R110, R115). A software toggle stands behind the 36
hardware sources of a pin's actions in its cycle, and a set that meets one leaves the pin set (R7; that commands of one cycle meet is
log entry 8). That a pulse's width counts ENG_CLK time is the model's choice (log entry 69), and so is that an unused window takes no
part in a table's validity (log entry 76). -/
def Obligations.TimeOutputs : Prop :=
  ∀ (s : State),
    let cal : Prop := s.on Reg.TU.CTRL.CALEN = true ∧ s.on Reg.TU.CTRL.FINE = true
    (cal → s.calib.next = none → exec .calibrationRound s = .next (askPermit 9 0 { s with calib := { s.calib with next := some 0 } })) ∧
    (¬ cal ∨ s.calib.next ≠ none → exec .calibrationRound s = .next s) ∧
    (∀ p : Fin 9, let late : Prop := 4 * (max 1 (s.get Reg.TU.CTRL.CALPER)) * 4000000000 ≤ 5 * s.calib.counts[p]
      (late → exec (.calstale p) s = .next (s.raiseBit Reg.TU.STAT.CALSTALE p)) ∧
      (¬ late → exec (.calstale p) s = .next s) ∧
      let turn : Prop := cal ∧ s.holds 9 = true ∧ s.calib.next = some p.val
      (¬ turn → exec (.portCalibrated p) s = .next s) ∧
      (turn → Completes (.portCalibrated p) s (fun t => t.bit Reg.TU.STAT.CALOK p = true ∧ t.calib.counts = s.calib.counts.set p 0 ∧
        (p = 8 → t.holds 9 = false ∧ t.calib.next = none) ∧
        (p ≠ 8 → t.permit = s.permit ∧ t.calib.next = some (p.val + 1)) ∧ t.mem = s.mem ∧ t.time = s.time))) ∧
    (∀ k : Fin 4, let t := s.dom (Fin.ofNat 4 (s.get (Reg.TU.PPS.CTRL.DOM k)))
      let held : Prop := s.on (Reg.TU.PPS.CTRL.GATEU k) = true ∧ s.on (Reg.TU.D.STAT.UNSYNC (s.get (Reg.TU.PPS.CTRL.DOM k))) = true
      let width := if s.get (Reg.TU.PPS.WIDTH.NS k) < 10 ∨ 1000000000 ≤ s.get (Reg.TU.PPS.WIDTH.NS k) then 100000000
        else s.get (Reg.TU.PPS.WIDTH.NS k)
      let offs := s.get (Reg.TU.PPS.OFFS.NS k)
      let reaches (sec : Nat) : Prop := offs < 1000000000 ∧ (t.ago 1).total < sec * secUnits + offs * 2 ^ 50 ∧
        sec * secUnits + offs * 2 ^ 50 ≤ t.total
      (∀ sec, t.ns < 1000000000 → reaches sec → ¬ reaches (sec + 1) → s.on (Reg.TU.PPS.CTRL.EN k) = true → ¬ held → sec ∉ s.pps[k].pulsed →
        exec (.ppsPulse k) s = .next { s with pps := s.pps.set k ⟨true, 0, sec :: s.pps[k].pulsed⟩ }) ∧
      (∀ sec, t.ns < 1000000000 → reaches sec → ¬ reaches (sec + 1) → sec ∈ s.pps[k].pulsed → exec (.ppsPulse k) s = .next s) ∧
      (s.on (Reg.TU.PPS.CTRL.EN k) = false ∨ held ∨ (∀ sec, ¬ reaches sec) → exec (.ppsPulse k) s = .next s) ∧
      (4 * width ≤ 5 * s.pps[k].age → exec (.ppsPulseEnd k) s = .next { s with pps := s.pps.set k { s.pps[k] with active := false } }) ∧
      (5 * s.pps[k].age < 4 * width → exec (.ppsPulseEnd k) s = .next s)) ∧
    (∀ v : BitVec 32, let old (i : Nat) := (s.get Reg.TU.TMO.SET.LVL).testBit i
      let keeps (t : State) : Prop := t.mem = s.mem ∧ t.eng = s.eng ∧ t.clusters = s.clusters
      let hw (i : Nat) : Bool := (s.pinActs.find? (fun e => e.1 == i)).any (fun e => decide (e.2.1 < 36))
      (s.boot.inReset = true → exec (.tmoSet v) s = .next s ∧ exec (.tmoClear v) s = .next s ∧ exec (.tmoToggle v) s = .next s) ∧
      (s.boot.inReset = false → Completes (.tmoSet v) s (fun t => keeps t ∧ ∀ i < 32, (t.get Reg.TU.TMO.SET.LVL).testBit i = (old i || v.getLsbD i))) ∧
      (s.boot.inReset = false → Completes (.tmoClear v) s (fun t => keeps t ∧
        ∀ i < 32, (t.get Reg.TU.TMO.SET.LVL).testBit i = (old i && !(v.getLsbD i && !hw i)))) ∧
      (s.boot.inReset = false → Completes (.tmoToggle v) s (fun t => keeps t ∧
        ∀ i < 32, (t.get Reg.TU.TMO.SET.LVL).testBit i = (old i ^^ (v.getLsbD i && !hw i))))) ∧
    (∀ (n : Clu) (l : Fin 4), let ws := windowList s n l
      let period := s.get (Reg.TTW.PERIOD.NS n l)
      let phase := s.get (Reg.TTW.PHASE.NS n l)
      let guard := s.get (Reg.TTW.GUARD.NS n l)
      let valid : Prop := 1000 ≤ period ∧ 1000000000 % period = 0 ∧ phase < period ∧
        (∀ w ∈ ws, w.1 + w.2 ≤ period ∧ 2 * guard < w.2) ∧ ws.Pairwise (fun w v => w.1 + w.2 ≤ v.1 ∨ v.1 + v.2 ≤ w.1)
      let g := lineTiming s n l
      let start := periodStart (s.dom g.1) g.2.1 g.2.2
      let set (x : Option WinTab) : State := s.setClu n { s.clu n with
        win := (s.clu n).win.set l x, seen := (s.clu n).seen.set l (seeStart g.1 start (s.clu n).seen[l]) }
      (s.on (Reg.TTW.CTRL.EN n l) = false ∨ startSeen s n l g.1 start = true → exec (.windowPeriodStart n l) s = .next s) ∧
      (s.on (Reg.TTW.CTRL.EN n l) = true → startSeen s n l g.1 start = false → valid → exec (.windowPeriodStart n l) s =
        .next (set (some ⟨Fin.ofNat 4 (s.get (Reg.TTW.CTRL.DOM n l)), period, phase, guard, ws⟩))) ∧
      (s.on (Reg.TTW.CTRL.EN n l) = true → startSeen s n l g.1 start = false → ¬ valid →
        exec (.windowPeriodStart n l) s = .next ((set none).raise (Reg.TTW.STAT.CFGERR n l))))

/-- Compare and capture channels and the counter's wrap (R111-R117). A pin that software sets in the cycle of a pin action ends set (R7;
that commands of one cycle meet is log entry 8). -/
def Obligations.TimerChannels : Prop :=
  ∀ (s : State) (n : Clu),
    (∀ (c : Fin 8) (v : BitVec 16), Completes (.compareWrite n c v) s (fun t =>
      (t.clu n).cmp = (s.clu n).cmp.set c (v ++ (s.clu n).held[c]) ∧
      t.get (Reg.TMR.CH.CTRL.ARMED n c) = 1 ∧ (t.clu n).cnt = (s.clu n).cnt ∧ t.mem = s.mem ∧ t.eng = s.eng ∧
      (∀ m : Clu, m ≠ n → t.clu m = s.clu m))) ∧
    (∀ c, exec (.disarm n c) s = .next (s.lower (Reg.TMR.CH.CTRL.ARMED n c))) ∧
    (∀ c : Fin 8,
      let cmp := (s.clu n).cmp[c]
      let per := s.get (Reg.TMR.CH.PER.PER n c)
      let fires : Prop := s.cluUp n = true ∧ s.on (Reg.TMR.CH.CTRL.ARMED n c) = true ∧ ((s.clu n).cnt - cmp).toNat < 2 ^ 47
      (¬ fires → exec (.compareMatch n c) s = .next s) ∧
      (fires → per < 2 ^ 32 → Completes (.compareMatch n c) s (fun t =>
        t.bit (Reg.TMR.CSTAT.MATCH n) c = true ∧ (t.clu n).cnt = (s.clu n).cnt ∧
        (per = 0 → t.get (Reg.TMR.CH.CTRL.ARMED n c) = 0 ∧ (t.clu n).cmp = (s.clu n).cmp) ∧
        (per ≠ 0 → t.on (Reg.TMR.CH.CTRL.ARMED n c) = true ∧ ∃ k, 1 ≤ k ∧
          (t.clu n).cmp = (s.clu n).cmp.set c (cmp + BitVec.ofNat 48 (k * per)) ∧
          2 ^ 47 ≤ ((s.clu n).cnt - (cmp + BitVec.ofNat 48 (k * per))).toNat ∧
          (∀ j, 1 ≤ j → j < k → ((s.clu n).cnt - (cmp + BitVec.ofNat 48 (j * per))).toNat < 2 ^ 47) ∧
          (1 < k → t.bit (Reg.TMR.CSTAT.LAG n) c = true)) ∧
        (∀ p : Port, p.val / 2 = n.val →
          (t.port p).seq.tmr0 = ((s.port p).seq.tmr0 || decide (s.get (Reg.WSQ.CTRL.TSEL0 p) = c)) ∧
          (t.port p).seq.tmr1 = ((s.port p).seq.tmr1 || decide (s.get (Reg.WSQ.CTRL.TSEL1 p) = c)) ∧
          (t.port p).latchDue = ((s.port p).latchDue || decide (s.get (Reg.PI.CFG.OTICK p) = c))) ∧
        (∀ p : Port, p.val / 2 ≠ n.val → t.port p = s.port p) ∧
        (let pin := s.get (Reg.TMR.CH.CTRL.PIN n c)
          let prior := s.pinActs.find? (fun e => e.1 == pin)
          let old := match prior with
            | none => s.bit Reg.TU.TMO.SET.LVL pin
            | some e => e.2.2
          pin < 32 → s.get (Reg.TMR.CH.CTRL.ACT n c) ≠ 0 → (∀ e, prior = some e → 9 * n.val + c.val < e.2.1) →
          t.bit Reg.TU.TMO.SET.LVL pin = ((match s.get (Reg.TMR.CH.CTRL.ACT n c) with
            | 1 => true
            | 2 => false
            | 3 => !old
            | _ => old) || (prior.isSome && s.pinSets.contains pin)))))) ∧
    (s.cluUp n = true → (s.clu n).cnt = BitVec.allOnes 48 → Completes (.counterWrap n) s (fun t =>
      (t.clu n).cnt = 0 ∧ (t.clu n).cmp = (s.clu n).cmp ∧ t.get (Reg.TMR.STAT.OVF n) = 1 ∧ t.mem = s.mem ∧ t.eng = s.eng)) ∧
    (s.cluUp n = false ∨ (s.clu n).cnt ≠ BitVec.allOnes 48 → exec (.counterWrap n) s = .next s) ∧
    (∀ (i : Fin 4) (src : Nat) (rising : Bool) (age : Nat),
      let edge := s.get (Reg.TMR.CAP.CTRL.EDGE n i)
      let sees : Prop := s.cluUp n = true ∧ s.get (Reg.TMR.CAP.CTRL.SRC n i) = src ∧
        if src = 0 then edge.testBit (if rising then 0 else 1) = true else edge ≠ 0
      (¬ sees → exec (.capture n i src rising age) s = .next s) ∧
      (sees → Completes (.capture n i src rising age) s (fun t =>
        t.get48 (Reg.TMR.CAP.CAP_L.VAL n i) (Reg.TMR.CAP.CAP_H.VAL n i) = (s.clu n).cnt - BitVec.ofNat 48 age ∧
        t.get (Reg.TMR.CAP.CAP_H.SEQ n i) = (s.get (Reg.TMR.CAP.CAP_H.SEQ n i) + 1) % 16 ∧
        t.get (Reg.TMR.CAP.CAP_H.FULL n i) = 1 ∧ t.clusters = s.clusters ∧ t.mem = s.mem ∧ t.eng = s.eng ∧
        (s.on (Reg.TMR.CAP.CAP_H.FULL n i) = true → t.bit (Reg.TMR.CSTAT.CAPOVR n) i = true) ∧
        (s.on (Reg.TMR.CAP.CAP_H.FULL n i) = false → t.get (Reg.TMR.CSTAT.CAPOVR n) = s.get (Reg.TMR.CSTAT.CAPOVR n))))) ∧
    (∀ i : Fin 4, Completes (.captureRead n i) s (fun t =>
      t = { s.lower (Reg.TMR.CAP.CAP_H.FULL n i) with ans := t.ans } ∧ t.ans.status = 0 ∧
      t.ans.data % 2 ^ 16 = s.get (Reg.TMR.CAP.CAP_H.VAL n i) % 2 ^ 16))

/-- The rings of Tiller outside the frame path (R128, R139-R142, R145, R147, R149, R151, R155, R161, R163): service and
numbering given up, claims, scouts, loss, the launch of a cycle, echo requests, an abandoned layout and routed frames. That the
firmware's frames leave at once, and the ports they leave on where the manual names none, are the model's choices (log entry 22), and
so are their DST and SRC where the manual names none, the fields of a firmware event's record beside its code and port, and that every
ring in service counts a launch (log entry 70), and that a frame which the window check refuses waits (log entry 76). -/
def Obligations.TillerRows : Prop :=
  ∀ (s : State) (r : Clu),
    let st := ringState s r
    let a := ringPort r false
    let b := ringPort r true
    let state (t : State) : Nat := t.get (Reg.TIL.RING.STAT.STATE r)
    let apart : Prop := s.answers (privAddr s a 0) = true ∧ (∀ p ∈ ringPorts r, 16 * s.get (Reg.PX.PRIVBASE.BASE p) + 0x1000 ≤ 0x80000) ∧
      (∀ o < 0x1000, ∀ o' < 0x1000, privAddr s a o ≠ privAddr s b o')
    let quiet (t : State) : Prop := (∀ q : Clu, q ≠ r → t.get (Reg.TIL.RING.STAT.STATE q) = s.get (Reg.TIL.RING.STAT.STATE q)) ∧
      t.ports = s.ports ∧ t.chans = s.chans ∧ (twinned s r = false ∨ streams s = false → t.out = s.out) ∧
      (apart → ∀ x, (∀ o < 0x420, x ≠ privAddr s a o ∧ x ≠ privAddr s b o) → t.byte x = s.byte x)
    let unnumbered (t : State) : Prop := t.get (Reg.TIL.RING.STAT.NODE r) = 0 ∧
      (apart → ∀ p ∈ ringPorts r, numbered t p = false ∧ ownAddr t p = 0 ∧ t.load (privAddr s p 0x3D0) 8 = 0 ∧ t.load (privAddr s p 0x3D8) 8 = 0)
    let sends (p : Port) (l : List Byte) (u : State) : State :=
      let f := withFcs (padTo 60 l)
      if s.on (Reg.PX.STAT.ENACT p) && s.bit Reg.GLB.MI.LINK.LINK p.val then
        match frameCheck s p (s.get (Reg.LP.STAT.RATE p)) (f.length - 4) 0 0 with
        | .ok => u.emit (.frame p.val f)
        | .wait => u.modPort p (fun x => { x with ringWait := x.ringWait ++ [f] })
        | .never => u
      else u
    let scout (flags : Nat) : List Byte := padTo 8224 (ringFrame s r b 3 (ownAddr s b) 511 flags (scoutBody s r a))
    let left (t : State) : Prop := t.ring r = { s.ring r with seg := 0 } ∧ ∀ q : Clu, q ≠ r → t.ring q = s.ring q
    (∀ b < 14, let t := ringEvent r b s
      let wr := s.load (privAddr s a 0x94) 4 % 16
      t.bit (Reg.TIL.RING.EVT.EVT r) b = true ∧ t.rings = s.rings ∧ t.ports = s.ports ∧ t.out = s.out ∧
      (apart → ringReads s a = true → (wr + 1) % 16 ≠ s.load (privAddr s a 0x90) 4 % 16 → t.load (privAddr s a 0x94) 4 = (wr + 1) % 16 ∧
        t.byte (privAddr s a (0xA0 + 16 * wr)) = BitVec.ofNat 8 (0x41 + b) ∧
        t.byte (privAddr s a (0xA0 + 16 * wr + 1)) = BitVec.ofNat 8 a.val)) ∧
    Completes (.ringEnable r true) s (fun t => quiet t ∧ t.get (Reg.TIL.RING.CTRL.EN r) = 1 ∧
      (s.on (Reg.TIL.RING.CTRL.EN r) = true → state t = st ∧ t.get (Reg.TIL.RING.STAT.NODE r) = s.get (Reg.TIL.RING.STAT.NODE r) ∧ t.rings = s.rings) ∧
      (s.on (Reg.TIL.RING.CTRL.EN r) = false → state t = 1 ∧ unnumbered t ∧ left t) ∧
      (apart → ∀ p ∈ ringPorts r, t.load (privAddr s p 0x3A4) 2 = s.get (Reg.TIL.RING.EPOCH.EPOCH r) % 2 ^ 16 ∧
        t.load (privAddr s p 0x3A6) 2 = s.get Reg.TIL.ETYPE.TYPE % 2 ^ 16 ∧ t.load (privAddr s p 0x410) 8 = s.fid % 2 ^ 64)) ∧
    Completes (.ringEnable r false) s (fun t => quiet t ∧ t.get (Reg.TIL.RING.CTRL.EN r) = 0 ∧ state t = 0 ∧ unnumbered t ∧
      t.rings = s.rings) ∧
    (st = 0 → exec (.relisten r) s = .next s) ∧
    (st ≠ 0 → Completes (.relisten r) s (fun t => quiet t ∧ state t = 1 ∧ unnumbered t ∧ left t)) ∧
    (st = 4 ∨ st = 5 → Completes (.sheafLoss r) s (fun t => quiet t ∧ state t = 1 ∧ unnumbered t ∧
      t.bit (Reg.TIL.RING.EVT.EVT r) 4 = true ∧ left t)) ∧
    (st = 3 → exec (.sheafLoss r) s = .next (ringEvent r 4 s)) ∧
    (st < 3 ∨ 5 < st → exec (.sheafLoss r) s = .next s) ∧
    (let claim := padTo 8224 (ringFrame s r b 2 0 511 0
       (bytesBE 8 s.fid ++ bytesBE 2 (s.get (Reg.TIL.RING.CFG.SEG r)) ++ bytesBE 4 (s.get (Reg.TIL.RING.PERIOD.NS r))))
     (ringSby s r = false → st = 1 → s.on (Reg.TIL.RING.CTRL.MCAP r) = true →
       exec (.listenExpiry r) s = .next (sends b claim (s.put (Reg.TIL.RING.STAT.STATE r) 2))) ∧
     (ringSby s r = false → st = 2 → exec (.listenExpiry r) s = .next (sends b claim s)) ∧
     (ringSby s r = true ∨ (st = 1 ∧ s.on (Reg.TIL.RING.CTRL.MCAP r) = false) ∨ (st ≠ 1 ∧ st ≠ 2) →
       exec (.listenExpiry r) s = .next s)) ∧
    (st = 3 → ringSby s r = false → exec (.renum r) s = .next (sends b (scout 4) s) ∧ exec (.check r) s = .next (sends b (scout 0) s) ∧
      exec (.checkScoutTimer r) s = .next (sends b (scout 0) s)) ∧
    (st ≠ 3 ∨ ringSby s r = true → exec (.renum r) s = .next s ∧ exec (.check r) s = .next s ∧
      exec (.checkScoutTimer r) s = .next s) ∧
    (∀ v slots, (s.ring r).change = some (v, slots, false) → exec (.layoutTimeout r) s =
      .next (ringEvent r 13 (s.modRing r (fun x => { x with change := none, next := false, sent := false })))) ∧
    ((∀ v slots, (s.ring r).change ≠ some (v, slots, false)) → exec (.layoutTimeout r) s = .next s) ∧
    (st = 0 → exec (.sheafLaunch r) s = .next s) ∧
    (st ≠ 0 → st ≠ 3 ∨ ringSby s r = true → exec (.sheafLaunch r) s = .next (s.modRing r (fun x => { x with cycle := x.cycle + 1 }))) ∧
    (st = 3 → ringSby s r = false → Completes (.sheafLaunch r) s (fun t =>
      let period := max 1 (s.get (Reg.TIL.RING.PERIOD.NS r))
      (t.ring r).cycle = (s.ring r).cycle + 1 ∧ (t.ring r).launch = (s.dom 0).ns / period * period * 2 ^ 18 ∧ (t.ring r).prior = (s.ring r).launch ∧
      (t.ring r).built = true ∧ state t = 3 ∧
      (∀ q : Clu, q ≠ r → t.ring q = s.ring q) ∧
      (let count := s.get (Reg.PQ.TX.CFG.COUNT a 7)
       let tail := s.get (Reg.PQ.TX.TAIL.TAIL a 7)
       (count ≠ 0 → count ≤ 2 ^ (Reg.PQ.TX.TAIL.TAIL a 7).w → (tail + 1) % count ≠ s.get (Reg.PQ.TX.HEAD.HEAD a 7) →
         t.get (Reg.PQ.TX.TAIL.TAIL a 7) = (tail + 1) % count) ∧
       (count = 0 ∨ (tail + 1) % count = s.get (Reg.PQ.TX.HEAD.HEAD a 7) → t.get (Reg.PQ.TX.TAIL.TAIL a 7) = tail)))) ∧
    ((st = 3 ∨ st = 5) → numbered s a = true →
      let n := ((s.ring r).echoSeq + 1) % 65536
      let own := ownAddr s a
      let ends := if belowPartner s r then (own / 512 * 512, own) else (own, upstream s r)
      let x := { s.ring r with echoSeq := n, exchanges := ((n, none, none) :: (s.ring r).exchanges).take 4 }
      let count := s.get (Reg.PQ.TX.CFG.COUNT a 7)
      let tail := s.get (Reg.PQ.TX.TAIL.TAIL a 7)
      let room : Prop := count ≠ 0 ∧ (tail + 1) % count ≠ s.get (Reg.PQ.TX.HEAD.HEAD a 7)
      let desc := descAddr s a 7 tail
      let buf := cluAddr r (s.ring r).echoBuf
      (¬ room → exec (.echoreq r) s = .next (s.modRing r (fun _ => x))) ∧
      (room → Completes (.echoreq r) s (fun t => t.ring r = { x with echoTx := some (n, tail) } ∧ t.out = s.out ∧ t.ports = s.ports ∧
        (count ≤ 2 ^ (Reg.PQ.TX.TAIL.TAIL a 7).w → t.get (Reg.PQ.TX.TAIL.TAIL a 7) = (tail + 1) % count) ∧
        (s.answers buf = true → t.bytes buf 60 = padTo 60 (ringFrame s r a 5 ends.1 ends.2 0 (bytesBE 2 n))) ∧
        (s.answers desc = true → (∀ i < 16, ∀ j < 60, desc + i ≠ buf + j) →
          t.bytes desc 16 = bytesLE 4 buf ++ bytesLE 2 60 ++ [0x80, 0] ++ List.replicate 8 0) ∧
        ∀ k, (∀ i < 16, k ≠ desc + i) → (∀ j < 60, k ≠ buf + j) → t.byte k = s.byte k))) ∧
    ((st ≠ 3 ∧ st ≠ 5) ∨ numbered s a = false → exec (.echoreq r) s = .next s) ∧
    (∀ body : List Byte,
      let final := natBE (body.take 3) % 2 ^ 18
      let seg := final / 512
      let mine : Prop := ∃ q : Clu, ownAddr s (ringPort q false) = final ∧ numbered s (ringPort q false) = true
      let hops := (body.getD 6 0).toNat
      let routed : Prop := isRouter s = true ∧ ¬ mine
      let body' := body.take 6 ++ [BitVec.ofNat 8 (hops - 1)] ++ body.drop 7
      (¬ routed → exec (.routedForward r body) s = .next s) ∧
      (routed → hops ≤ 1 → exec (.routedForward r body) s = .next (ringEvent r 11 s)) ∧
      (routed → 1 < hops → seg ≠ 511 → s.on (Reg.TIL.RT.VALID seg) = false ∨ seg = 0 →
        exec (.routedForward r body) s = .next (ringEvent r 11 s)) ∧
      (∀ q : Clu, routed → 1 < hops → seg ≠ 511 → s.on (Reg.TIL.RT.VALID seg) = true → seg ≠ 0 → s.get (Reg.TIL.RT.RING seg) = q.val →
        exec (.routedForward r body) s = .next (sends (ringPort q true) (ringFrame s q (ringPort q true) 7 (ownAddr s (ringPort q true))
          (if s.on (Reg.TIL.RT.LOCAL seg) then final else
            ownAddr s (ringPort q false) / 512 * 512 + s.get (Reg.TIL.RT.NEXT seg)) 0 body') s)) ∧
      (routed → 1 < hops → seg = 511 → Completes (.routedForward r body) s (fun t =>
        let frame (q : Clu) : List Byte := withFcs (padTo 60 (ringFrame s q (ringPort q true) 7 (ownAddr s (ringPort q true))
          (ownAddr s (ringPort q false) / 512 * 512 + final % 512) 0 body'))
        let goes (q : Clu) : Bool := decide (q ≠ r) && inSegment s q && s.on (Reg.PX.STAT.ENACT (ringPort q true)) &&
          s.bit Reg.GLB.MI.LINK.LINK (ringPort q true).val
        let fits (q : Clu) : WinCheck := frameCheck s (ringPort q true) (s.get (Reg.LP.STAT.RATE (ringPort q true))) ((frame q).length - 4) 0 0
        t = { s with out := t.out, ports := t.ports } ∧
        (∀ q : Clu, t.port (ringPort q false) = s.port (ringPort q false) ∧ t.port (ringPort q true) =
          (if goes q = true ∧ fits q = .wait then
            { s.port (ringPort q true) with ringWait := (s.port (ringPort q true)).ringWait ++ [frame q] } else s.port (ringPort q true))) ∧
        ∃ l, t.out = l ++ s.out ∧ (∀ o, o ∈ l ↔ ∃ q : Clu, goes q = true ∧ fits q = .ok ∧ o = .frame (ringPort q true).val (frame q)) ∧
          l.length = ((List.finRange 4).filter (fun q : Clu => goes q && decide (fits q = .ok))).length)))

/-- The roles of a twin unit (R166, R168-R170, R178-R181, R183-R187, R191): pairing by HELLO, heartbeats, failure and takeover,
fencing, handover orders and forced resynchronization. `failsTo` is the table of R180. That a SOLO unit sends HELLO, and what a
frame out of sequence does before it acts, are the model's readings (log entry 23). So are that a unit pushes to a partner that
pulls only once that partner has passed the checks of R170, that a fenced unit takes any successor that has passed them, and that a
third fault stops the heartbeats for good (log entry 71). A role byte is written where the port's cluster memory answers. -/
def Obligations.TwinRoles : Prop :=
  ∀ s : State,
    let st := twinState s
    let link : Bool := s.bit Reg.GLB.MI.LINK.LINK 8
    let sends : Bool := link && s.up 0
    let answers (u : State) (p : Port) : Prop := u.answers (privAddr u p 0xC20) = true
    let sent (ty : Nat) (body : List Byte) (u : State) : State :=
      if sends then { u with free := u.free + 1, twin := { u.twin with sent := u.twin.sent + 1 },
                             out := .frame 8 (withFcs (padTo 60 (ptHeader u ty ++ body))) :: u.out } else u
    let failsTo (k : Nat) : Nat := if k = 6 ∨ k = 4 ∨ k = 2 then 5 else if k = 3 then 1 else k
    let declared (u t : State) : Prop := twinState t = failsTo (twinState u) ∧ t.out = u.out ∧ t.time = u.time ∧
      (twinState u = 6 → t.get Reg.TWN.EVT.TAKEOVER = 1 ∧ t.twin.batch = [] ∧ t.twin.part = none ∧ t.twin.handover = none ∧
        t.get Reg.TWN.EPOCH.EPOCH = (match u.twin.handover with | some (_, e, _) => e | none => u.get Reg.TWN.EPOCH.EPOCH + 1) % 2 ^ 16 ∧
        (∀ p ∈ twinPorts u, answers u p → (roleByte t p).getLsbD 0 = false)) ∧
      (twinState u = 4 ∨ twinState u = 2 → t.get Reg.TWN.EVT.SBYLOST = 1 ∧ t.twin.handover = none ∧ t.twin.ordered = false ∧
        (u.twin.ordered = true ∨ u.twin.handover ≠ none → t.get Reg.TWN.EVT.HOFAIL = 1) ∧ t.twin.pushing = false ∧ t.capture = [] ∧
        t.get Reg.TWN.EPOCH.EPOCH = u.get Reg.TWN.EPOCH.EPOCH ∧ t.mem = u.mem) ∧
      (twinState u = 3 → t.get Reg.TWN.EVT.RESYNCFAIL = 1 ∧ t.mem = u.mem) ∧
      (twinState u < 2 ∨ twinState u = 5 ∨ 6 < twinState u → t = u)
    let pushes (u t : State) : Prop := twinState t = 2 ∧ t.twin.pushing = false ∧ t.twin.page = 0 ∧
      t.twin.handover = none ∧ t.twin.ordered = false ∧
      (u.twin.ordered = true ∨ u.twin.handover ≠ none → t.get Reg.TWN.EVT.HOFAIL = 1) ∧
      t.get Reg.TWN.EPOCH.EPOCH = u.get Reg.TWN.EPOCH.EPOCH
    let pulls (u t : State) : Prop := twinState t = 3 ∧ t.twin.batch = [] ∧ t.twin.page = 0 ∧ t.twin.part = none ∧ t.twin.handover = none ∧
      t.twin.began = none ∧
      t.get Reg.TWN.EPOCH.EPOCH = u.get Reg.TWN.EPOCH.EPOCH
    exec (.twinLevelWrite 3) s = .next s ∧
    Completes (.twinLevelWrite 0) s (fun t => t.get Reg.TWN.CTRL.LEVEL = 0 ∧ twinState t = 0 ∧ t.capture = []) ∧
    (∀ v : BitVec 2, v = 1 ∨ v = 2 → Completes (.twinLevelWrite v) s (fun t =>
      t.get Reg.TWN.CTRL.LEVEL = v.toNat ∧ twinState t = (if st = 0 then 1 else st) ∧ t.twin.handover = s.twin.handover)) ∧
    (exec .helloSend s = .next (if st = 1 ∨ st = 5 then sent 0x10 (bytesBE 1 st ++
      bytesBE 1 (s.get Reg.TWN.STAT.DBGOPEN + 2 * s.get Reg.TWN.CTRL.SOLOOK) ++ bytesBE 1 (s.get Reg.TWN.CTRL.RINGS) ++ [0] ++
      bytesBE 4 (s.get Reg.GLB.BOOT.IMGVER.VER)) s else s)) ∧
    (∀ f : List Byte, (ptGood s 0x10 f = false → exec (.helloReceive f) s = .next s) ∧
      (ptGood s 0x10 f = true →
        let u := { s with twin := { s.twin with expect := some (BitVec.ofNat 32 (ptNum f 28 4 + 1)) } }
        let peer := ptNum f 32 1
        let known (t : State) : Prop := t.get Reg.TWN.PEERFID_H.FID = ptNum f 20 4 % 2 ^ 32 ∧
          t.get Reg.TWN.PEERFID_L.FID = ptNum f 24 4 % 2 ^ 32 ∧ t.twin.agreed = true
        let pair : Prop := st ≠ 0 ∧ helloAccepted s f = true
        (st = 0 → exec (.helloReceive f) s = .next u) ∧
        (st ≠ 0 → helloAccepted s f = false → exec (.helloReceive f) s = .next
          (({ u with twin := { u.twin with agreed := s.twin.agreed && !fromPeer s f } } : State).raise Reg.TWN.EVT.PAIRREF)) ∧
        (pair → st = 1 → peer = 2 ∨ peer = 4 ∨ peer = 5 ∨ (peer = 1 ∧ ptNum f 20 8 ≤ s.fid) →
          Completes (.helloReceive f) s (fun t => pulls s t ∧ known t ∧ t.out = s.out)) ∧
        (pair → st = 1 → peer = 1 → s.fid < ptNum f 20 8 → Completes (.helloReceive f) s (fun t =>
          pushes s t ∧ known t ∧ t.out = s.out ∧ ∀ p ∈ twinPorts s, answers s p → (roleByte t p).getLsbD 1 = true)) ∧
        (pair → st = 1 → peer ≠ 1 → peer ≠ 2 → peer ≠ 4 → peer ≠ 5 → exec (.helloReceive f) s = .next u) ∧
        (pair → st = 2 ∨ st = 4 ∨ st = 5 → peer = 1 → Completes (.helloReceive f) s (fun t => pushes s t ∧ known t ∧ t.capture = [] ∧
          (sends = true → ∃ body, t.out = .frame 8 body :: s.out))) ∧
        (pair → st = 7 → (peer = 2 ∨ peer = 4 ∨ peer = 5) →
          Completes (.helloReceive f) s (fun t => pulls s t ∧ known t ∧ t.out = s.out)) ∧
        (pair → (st = 3 ∨ st = 6) ∨ (st = 2 ∨ st = 4 ∨ st = 5) ∧ peer ≠ 1 ∨
            st = 7 ∧ (peer ≠ 2 ∧ peer ≠ 4 ∧ peer ≠ 5) →
          exec (.helloReceive f) s = .next u))) ∧
    (st ≠ 1 → exec .seekTimeout s = .next s) ∧
    (st = 1 → Completes .seekTimeout s (fun t => t.get Reg.TWN.EVT.SEEKTO = 1 ∧ t.out = s.out ∧
      twinState t = (if s.on Reg.TWN.CTRL.SOLOOK then 5 else 1) ∧
      (s.on Reg.TWN.CTRL.SOLOOK = true → ∀ p ∈ twinPorts s, answers s p → (roleByte t p).getLsbD 1 = true))) ∧
    (exec .heartbeatSend s = .next (if 2 ≤ st ∧ (s.alive = true ∨ debugHold s = true) ∧ s.twin.spent = false then
      sent 0x11 (bytesBE 1 st ++ bytesBE 1 (debugHold s).toNat ++ [0, 0] ++ bytesBE 6 s.twin.cuts.toNat ++
        List.replicate 6 0) s else s)) ∧
    (∀ f : List Byte, (ptGood s 0x11 f = false ∨ ptNum f 16 2 ≠ s.get Reg.TWN.PAIRID.ID → exec (.heartbeatReceive f) s = .next s) ∧
      (ptGood s 0x11 f = true → ptNum f 16 2 = s.get Reg.TWN.PAIRID.ID →
        let u := ptSequence f s
        let own := s.get Reg.TWN.EPOCH.EPOCH
        let their := ptNum f 18 2
        let peer := ptNum f 32 1
        let rival : Prop := epochNewer their own = true ∧ (peer = 4 ∨ peer = 5) ∧ (twinState u = 2 ∨ twinState u = 4 ∨ twinState u = 5)
        (rival → Completes (.heartbeatReceive f) s (fun t => twinState t = 7 ∧ t.get Reg.TWN.EVT.FENCED = 1 ∧ t.capture = [] ∧
          (noPeer u = true → t.get Reg.TWN.PEERFID_H.FID = ptNum f 20 4 % 2 ^ 32 ∧ t.get Reg.TWN.PEERFID_L.FID = ptNum f 24 4 % 2 ^ 32))) ∧
        (¬ rival → fromPeer s f = false ∨ epochOlder their own = true → exec (.heartbeatReceive f) s = .next u) ∧
        (¬ rival → fromPeer s f = true → epochOlder their own = false → ptNum f 33 1 % 2 = 1 → s.on Reg.TWN.CTRL.HOLDTAKE = false →
          Completes (.heartbeatReceive f) s (fun t => t.twin.peerHold = true ∧ t.get Reg.TWN.EVT.PEERHOLD = 1)) ∧
        (¬ rival → fromPeer s f = true → epochOlder their own = false → ptNum f 33 1 % 2 = 1 → s.on Reg.TWN.CTRL.HOLDTAKE = true →
          Completes (.heartbeatReceive f) s (fun t => t.get Reg.TWN.EVT.PEERHOLD = 1 ∧ twinState t = failsTo (twinState u))) ∧
        (¬ rival → fromPeer s f = true → epochOlder their own = false → ptNum f 33 1 % 2 = 0 →
          Completes (.heartbeatReceive f) s (fun t => t.twin.peerHold = false ∧
            (twinState u = 3 ∨ twinState u = 6 → twinState t = twinState u ∧ t.get Reg.TWN.EPOCH.EPOCH = their % 2 ^ 16) ∧
            (twinState u = 5 → peer = 3 → u.twin.agreed = true → pushes u t ∧ t.capture = []) ∧
            (twinState u = 5 → peer ≠ 3 ∨ u.twin.agreed = false → twinState t = 5))))) ∧
    exec .aliveKick s = .next { s with alive := true } ∧
    exec .aliveExpiry s = .next (if debugHold s then s else { s with alive := false }) ∧
    Completes .partnerTimeout s (fun t => (st = 2 ∨ st = 3 ∨ st = 4 ∨ st = 6 → declared
      (let u := s.count Reg.TWN.HBMISS.CNT (3 - s.twin.missed)
       { u with twin := { u.twin with missed := 3 } }) t) ∧
      (¬ (st = 2 ∨ st = 3 ∨ st = 4 ∨ st = 6) → t = s)) ∧
    Completes .ptLinkDownTimeout s (fun t => (link = true → t = s) ∧ (link = false → declared s t)) ∧
    (∀ f : List Byte, Completes (.goneReceive f) s (fun t =>
      (ptGood s 0x17 f = true ∧ fromPeer s f = true → declared
        (let u := ptSequence f s
         if f.getD 32 0 = 2 then { u with twin := { u.twin with agreed := false } } else u) t) ∧
      (¬ (ptGood s 0x17 f = true ∧ fromPeer s f = true) → t = s))) ∧
    (st = 4 → s.get Reg.TWN.CTRL.LEVEL ≠ 0 → exec .twnHandover s = .next { s with twin := { s.twin with ordered := true } }) ∧
    (st ≠ 4 ∨ s.get Reg.TWN.CTRL.LEVEL = 0 → exec .twnHandover s = .next (s.raise Reg.TWN.EVT.HOFAIL)) ∧
    (∀ f : List Byte,
      let u := ptSequence f s
      let good (ty : Nat) : Prop := ptGood s ty f = true ∧ fromPeer s f = true
      let c := ptNum f 32 6
      (¬ good 0x16 → exec (.handoverFrame f) s = .next s) ∧
      (good 0x16 → twinState u ≠ 6 → exec (.handoverFrame f) s = .next u) ∧
      (good 0x16 → twinState u = 6 → exec (.handoverFrame f) s = .next (sent 0x18 ([0x16, 0] ++ bytesBE 6 c)
        { u with twin := { u.twin with handover := some (c, ptNum f 38 2, false) } })) ∧
      (¬ good 0x18 → exec (.ackReceive f) s = .next s) ∧
      (∀ n e k, good 0x18 → u.twin.handover = some (n, e, k) → twinState u = 4 → f.getD 32 0 = 0x16 → ptNum f 34 6 = n →
        exec (.ackReceive f) s = .next { u with twin := { u.twin with handover := some (n, e, true) } }) ∧
      (good 0x18 → u.twin.handover = none → exec (.ackReceive f) s = .next u)) ∧
    (∀ n e, s.twin.handover = some (n, e, false) → exec .handoverAckTimeout s = .next
      ({ s with twin := { s.twin with handover := none } }.raise Reg.TWN.EVT.HOFAIL)) ∧
    ((∀ n e, s.twin.handover ≠ some (n, e, false)) → exec .handoverAckTimeout s = .next s) ∧
    (st ≠ 4 → exec .twnResync s = .next s) ∧
    (st = 4 → Completes .twnResync s (fun t => pushes s t ∧ t.capture = [] ∧ t.mem = s.mem ∧ t.out = (sent 0x19 [] s).out)) ∧
    (let full : Prop := (st = 4 ∨ st = 2) ∧ 65536 < (s.capture.map (fun w => w.2.length)).sum
     (¬ full → exec .deltaovf s = .next s) ∧
     (full → Completes .deltaovf s (fun t => pushes s t ∧ t.capture = [] ∧ t.get Reg.TWN.EVT.DELTAOVF = 1 ∧ t.mem = s.mem)))

/-- The twin stream (R176, R177, R183, R186, R187, R191, R192): cuts on both sides, publications, region writes, the image and
its resends, DESYNC and lost frames. A received frame is acted on if it is well formed and from the partner, after its own
sequence check (`u`; log entry 23). How the puller tells the last cut is a free value (log entry 48), as is what a CUT drains of the
capture (log entry 48). The snapshot at image offset 0xA00000, its tables and addresses, that a standby takes it, and the zeros in
place of what a page leaves out are the model's (log entry 71). A puller that has no page yet, or has lost a frame, takes no page but
the first. -/
def Obligations.TwinFrames : Prop :=
  (∀ (s : State) (a n : Nat), s.answers a = true → s.memBad a n = false → (twinRead a n s).1 = s.bytes a n) ∧
  (∀ (s : State) (a : Nat) (d : List Byte) (x : Nat), let room := 0x80000 - a % 0x80000
    (twinWrite a d s).byte x = if a ≤ x ∧ x < a + d.length ∧ s.answers (if x < a + room then a else a + room) = true
      then d.getD (x - a) 0 else s.byte x) ∧
  (∀ (s : State) (a : Nat) (d : List Byte) (x : Nat), a % 8 = 0 → (storeImage s a d).byte x =
    if a ≤ x ∧ x < a + d.length / 8 * 8 ∧ leftOut s (x / 8 * 8) 8 = false ∧ s.answers (x / 8 * 8) = true
      then d.getD (x - a) 0 else s.byte x) ∧
  (∀ (s : State) (a : Nat) (d : List Byte) (x : Nat), d.length = 8192 → x < 8192 →
    (imageBytes s a d).getD x 0 = if leftOut s (a + x / 8 * 8) 8 = true then 0 else d.getD x 0) ∧
  ∀ s : State,
    let st := twinState s
    let link : Bool := s.bit Reg.GLB.MI.LINK.LINK 8 && s.up 0
    let sends (ty : Nat) (body : List Byte) (u t : State) : Prop :=
      t.out = if link then .frame 8 (withFcs (padTo 60 (ptHeader u ty ++ body))) :: u.out else u.out
    let busy : Prop := (st = 4 ∨ st = 2 ∧ s.twin.pushing = true) ∧ s.get Reg.TWN.CTRL.LEVEL ≠ 0
    (¬ busy → exec .cut s = .next s) ∧
    (busy → Completes .cut s (fun t =>
      let c := s.twin.cuts + 1
      t.twin.cuts = c ∧ t.get Reg.TWN.CUTCNT.CNT = c.toNat % 2 ^ 32 ∧
      (st = 2 → imageSent s = true → twinState t = 4 ∧ t.get Reg.TWN.EVT.PAIRED = 1 ∧ t.twin.pushing = false ∧ t.capture = []) ∧
      (st = 4 ∨ imageSent s = false → s.twin.ordered = false → s.twin.handover = none →
        twinState t = st ∧ t.mem = s.mem ∧ t.capture = [] ∧ (s.capture = [] → sends 0x14 (bytesBE 6 c.toNat) s t)) ∧
      (∀ n e k, st = 4 → s.twin.ordered = false → s.twin.handover = some (n, e, k) → n ≠ c.toNat →
        twinState t = 4 ∧ t.twin.handover = some (n, e, k) ∧ t.mem = s.mem) ∧
      (∀ e, st = 4 → s.twin.handover = some (c.toNat, e, true) →
        twinState t = 6 ∧ t.get Reg.TWN.EPOCH.EPOCH = e % 2 ^ 16 ∧ t.twin.handover = none ∧ t.twin.ordered = false ∧ t.capture = []) ∧
      (∀ e, st = 4 → s.twin.ordered = false → s.twin.handover = some (c.toNat, e, false) →
        twinState t = 4 ∧ t.get Reg.TWN.EVT.HOFAIL = 1 ∧ t.twin.handover = none ∧ t.mem = s.mem) ∧
      (st = 4 → s.twin.ordered = true → s.twin.handover = none → t.twin.ordered = false ∧ twinState t = 4 ∧
        t.twin.handover = some ((c.toNat + 1) % 2 ^ 48, (s.get Reg.TWN.EPOCH.EPOCH + 1) % 65536, false)))) ∧
    (∀ f : List Byte,
      let u := ptSequence f s
      let good (ty : Nat) : Prop := ptGood s ty f = true ∧ fromPeer s f = true
      (¬ good 0x14 → exec (.cutReceive f) s = .next s) ∧
      (good 0x14 → Completes (.cutReceive f) s (fun t =>
        let c := ptNum f 32 6
        let done := u.twin.batch.foldl (fun t w => twinWrite w.1 w.2 t) u
        (twinState u ≠ 3 → twinState u ≠ 6 → t = u) ∧
        (twinState u = 3 ∨ twinState u = 6 → t.twin.cuts.toNat = c ∧ t.get Reg.TWN.CUTCNT.CNT = c % 2 ^ 32 ∧ t.twin.batch = []) ∧
        (twinState u = 6 → (∀ e k, u.twin.handover ≠ some (c, e, k)) → t.mem = done.mem ∧ twinState t = 6 ∧
          t.twin.handover = u.twin.handover) ∧
        (∀ e k, twinState u = 6 → u.twin.handover = some (c, e, k) → twinState t = 4 ∧ t.twin.handover = none ∧
          t.get Reg.TWN.EPOCH.EPOCH = e % 2 ^ 16 ∧ t.get Reg.TWN.EVT.HANDOVER = 1) ∧
        (twinState u = 3 → u.twin.page < 1281 → t.mem = done.mem ∧ twinState t = 3) ∧
        (twinState u = 3 → 1281 ≤ u.twin.page → t.mem = done.mem ∧
          twinState t = if (done.freeVal 1 : BitVec 1) = 1 then 6 else 3))) ∧
      (let port := ptNum f 32 1
       let p := portOf port
       let seqn := ptNum f 34 6
       let off := ptNum f 40 4
       let d := (f.drop 48).take (min (s.get (Reg.PI.OUTSIZE.SIZE p) - off) (f.length - 52))
       let first : Option (List Byte) := if off = 0 then some [] else none
       let old : Option (List Byte) := match u.twin.part with
         | some (q, n, b) => if q = port ∧ n = seqn ∧ off = b.length then some b else first
         | none => first
       let part (x : Option (Nat × Nat × List Byte)) : State := { u with twin := { u.twin with part := x } }
       (¬ good 0x12 → exec (.publishFrame f) s = .next s) ∧
       (good 0x12 → Completes (.publishFrame f) s (fun t =>
         (twinState u ≠ 3 → twinState u ≠ 6 → t = u) ∧
         (twinState u = 3 ∨ twinState u = 6 →
           (old = none → t = part none) ∧
           (∀ b, old = some b → ptNum f 33 1 % 2 = 0 → t = part (some (port, seqn, b ++ d))) ∧
           (∀ b, old = some b → ptNum f 33 1 % 2 = 1 → t = publishImage (twinWrite (outBuf u p (u.get (Reg.PI.OUTROLE.FILL p)) + 16)
             ((b ++ d).take (u.get (Reg.PI.OUTSIZE.SIZE p))) (part none)) p))))) ∧
      (¬ good 0x13 → exec (.writeFrame f) s = .next s) ∧
      (good 0x13 → exec (.writeFrame f) s = .next (if twinState u = 3 ∨ twinState u = 6 then { u with twin := { u.twin with
        batch := u.twin.batch ++ [(ptNum f 32 4, (f.drop 40).take (ptNum f 36 2))] } } else u)) ∧
      (¬ good 0x15 → exec (.imageFrame f) s = .next s) ∧
      (good 0x15 → Completes (.imageFrame f) s (fun t =>
        let o := ptNum f 32 4
        let d := (f.drop 36).take 8192
        let v := setEpoch (ptNum f 18 2) u
        (twinState u ≠ 3 → twinState u ≠ 6 ∨ o < 0xA00000 → t = u) ∧
        (twinState u = 3 → u.twin.page = 0 → o ≠ 0 → t = v) ∧
        (twinState u = 3 → u.twin.page ≠ 0 ∨ o = 0 →
          t.get Reg.TWN.EPOCH.EPOCH = ptNum f 18 2 % 2 ^ 16 ∧ t.twin.page = max u.twin.page (o / 8192 + 1) ∧
          twinState t = 3 ∧ (o < 0xA00000 → t.mem = (storeImage v (imageAddr o) d).mem)) ∧
        (twinState u = 3 ∧ u.twin.page ≠ 0 ∨ twinState u = 6 → 0xA00000 ≤ o →
          (∀ i, 1 ≤ i → i < 511 → t.get (Reg.TIL.RT.NEXT i) = natLE ((d.drop (16 + 4 * i)).take 4) / 16 % 2 ^ 9) ∧
          (∀ r : Clu, twinned u r = true → let a := natLE ((d.drop (4 * r.val)).take 4)
            t.get (Reg.TIL.RING.STAT.NODE r) = if a.testBit 31 then a % 2 ^ 18 else 0)))) ∧
      (¬ good 0x19 → exec (.desyncReceive f) s = .next s) ∧
      (good 0x19 → Completes (.desyncReceive f) s (fun t =>
        (twinState u = 4 → twinState t = 2 ∧ t.capture = [] ∧ t.twin.page = 0 ∧ t.twin.pushing = false ∧ t.mem = u.mem) ∧
        (twinState u = 2 → t = { u with twin := { u.twin with page := 0, marked := [] } }) ∧
        (twinState u = 6 → twinState t = 3 ∧ t.twin.page = 0 ∧ t.twin.batch = [] ∧ t.mem = u.mem) ∧
        (twinState u ≠ 2 → twinState u ≠ 4 → twinState u ≠ 6 → t = u))) ∧
      (let ty := ptNum f 15 1
       let lost : Prop := natLE (f.drop (f.length - 4)) ≠ (fcs (f.take (f.length - 4))).toNat ∧ 0x12 ≤ ty ∧ ty ≤ 0x15
       (¬ lost → exec (.ptFrameLoss f) s = .next s) ∧
       (lost → Completes (.ptFrameLoss f) s (fun t => t.twin.expect = none ∧ t.twin.part = none ∧ t.mem = s.mem ∧
         (st = 6 → twinState t = 3 ∧ t.twin.batch = [] ∧ t.twin.handover = none ∧ t.twin.page = 0 ∧ sends 0x19 [] s t) ∧
         (st = 3 → twinState t = 3 ∧ t.twin.batch = [] ∧ t.twin.page = 0 ∧ sends 0x19 [] s t) ∧
         (st ≠ 3 → st ≠ 6 → t = { s with twin := { s.twin with expect := none, part := none } }))))) ∧
    (st ≠ 2 → exec .resyncSend s = .next s) ∧
    (st = 2 → s.twin.pushing = false → s.holds 10 = true → exec .resyncSend s = .next { s with twin := { s.twin with
      pushing := true, page := 0, marked := [], began := some (s.dom 0).absNs } }) ∧
    (st = 2 → s.twin.pushing = false → s.holds 10 = false → exec .resyncSend s = .next (askPermit 10 0 s)) ∧
    (st = 2 → s.twin.pushing = true →
      (s.twin.page < 1280 → Completes .resyncSend s (fun t => t.twin.page = s.twin.page + 1 ∧ t.mem = s.mem ∧ twinState t = 2 ∧
        (let a := imageAddr (8192 * s.twin.page)
         let r := twinRead a 8192 s
         (leftOut s a 8192 = true → t.out = s.out) ∧
         (leftOut s a 8192 = false → sends 0x15 (bytesBE 4 (8192 * s.twin.page) ++ imageBytes s a r.1) r.2 t)))) ∧
      (s.twin.page = 1280 → Completes .resyncSend s (fun t => t.twin.page = 1281 ∧ t.mem = s.mem ∧ twinState t = 2 ∧
        sends 0x15 (bytesBE 4 0xA00000 ++ padTo 8192 (snapshot s)) s t)) ∧
      (∀ m rest, 1281 ≤ s.twin.page → s.twin.marked = m :: rest → Completes .resyncSend s (fun t =>
        t.twin.page = s.twin.page ∧ (∀ j, j ∈ t.twin.marked ↔ j ∈ s.twin.marked ∧ j / 2 ≠ m / 2) ∧
        (m / 2 ≠ 1280 → let a := imageAddr (8192 * (m / 2))
          let r := twinRead a 8192 s
          (leftOut s a 8192 = true → t.out = s.out) ∧
          (leftOut s a 8192 = false → sends 0x15 (bytesBE 4 (8192 * (m / 2)) ++ imageBytes s a r.1) r.2 t)))) ∧
      (1281 ≤ s.twin.page → s.twin.marked = [] → exec .resyncSend s = .next s))

/-- The bundle formats (R198-R208, R212, R217, R218, R233): what a bundle that stands next does, for moves among general
registers and immediates. Both moves read before either writes. A bundle of another format is left to its own row, and an
illegal bundle enters vector 3 whatever its row. An engine that may not issue does nothing. -/
def Obligations.BundleIssue : Prop :=
  ∀ (s : State) (e : Eng) (v : Word), Ready s e v →
    let x := s.engine e
    (∀ a b x0 x1, decodeBundle v = .dual a b → Plain s e → a.dst.toNat < 64 → b.dst.toNat < 64 → a.dst ≠ b.dst →
      a.width.toNat ≤ 8 → b.width.toNat ≤ 8 → sourceValue x a.src = some x0 → sourceValue x b.src = some x1 →
      exec (.dualMove e) s = .next (retired s e (fun y => { y with
        g := (y.g.setIfInBounds a.dst.toNat (widen a.width.toNat x0)).setIfInBounds b.dst.toNat (widen b.width.toNat x1) }))) ∧
    (∀ dst imm, decodeBundle v = .long dst imm → Plain s e → dst.toNat < 64 →
      exec (.longImmediate e) s = .next (retired s e (fun y => { y with
        g := y.g.setIfInBounds dst.toNat (imm.signExtend 48) }))) ∧
    (∀ c a b d x0 x1, decodeBundle v = .branch c a b d → Plain s e → c.toNat ≤ 11 → sourceValue x a = some x0 →
      sourceValue x b = some x1 → ∃ taken : Bool,
      (taken = true ↔
        (c = 0 ∧ x0 = x1) ∨ (c = 1 ∧ x0 ≠ x1) ∨ (c = 2 ∧ x0.toInt < x1.toInt) ∨ (c = 3 ∧ x1.toInt ≤ x0.toInt) ∨
        (c = 4 ∧ x0 < x1) ∨ (c = 5 ∧ x1 ≤ x0) ∨ (c = 6 ∧ x0 &&& x1 = x1) ∨ (c = 7 ∧ x0 &&& x1 ≠ 0) ∨
        (c = 8 ∧ x0 &&& x1 = 0) ∨ (c = 9 ∧ x0.getLsbD (x1.toNat % 64) = true) ∨
        (c = 10 ∧ x0.getLsbD (x1.toNat % 64) = false) ∨ c = 11) ∧
      exec (.compareAndBranch e) s = .next (retired s e (fun y => { y with flow := { y.flow with
        xfer := some (taken, if taken then x.flow.pc + 6 * d.signExtend 48 else x.flow.pc + 12) } }))) ∧
    (∀ src int count w, decodeBundle v = .repeat src int count → Plain s e → peekNext e s = (.bundle w, s) →
      let c := if src then x.flow.rptCnt else count
      ((decodeBundle w).repeatable = true → (int = true ∨ c.toNat ≤ 4095) →
        exec (.repeatPrefix e) s = .next (s.setEng e { x with
          stalled := false, held := none, fresh := false
          flow := { x.flow with rptCnt := c, pc := if c = 0 then x.flow.pc + 12 else x.flow.pc + 6 }
          exc := { x.exc with sr := { x.exc.sr with ra := decide (c ≠ 0), rint := decide (c ≠ 0) && int } } })) ∧
      ((decodeBundle w).repeatable = false ∨ (int = false ∧ 4095 < c.toNat) →
        exec (.repeatPrefix e) s = .next (faultOut e (preciseEvent s e 3) s))) ∧
    (∀ n, decodeBundle v = .trap n → Plain s e →
      let t := s.setEng e { x with stalled := false, held := none, fresh := false, xl := { x.xl with ahead := none, patch := none } }
      exec (.trap e) s = .next (takeException e { boundaryEvent s e (32 + n.toNat) with
        epc := x.flow.pc + 6, enpc := x.flow.pc + 12 } t)) ∧
    let rows : List (Instr × Bool) := [(.dualMove e, match decodeBundle v with | .dual .. => true | _ => false),
      (.longImmediate e, match decodeBundle v with | .long .. => true | _ => false),
      (.compareAndBranch e, match decodeBundle v with | .branch .. => true | _ => false),
      (.repeatPrefix e, match decodeBundle v with | .repeat .. => true | .bad w => decide (w.extractLsb' 42 4 ≠ 8#4) | _ => false),
      (.trap e, match decodeBundle v with | .trap _ => true | .bad w => decide (w.extractLsb' 42 4 = 8#4) | _ => false)]
    (∀ i, (i, false) ∈ rows → exec i s = .next s) ∧
    (∀ i, (i, true) ∈ rows → illegalHere s e (decodeBundle v) = true → exec i s = .next (faultOut e (preciseEvent s e 3) s)) ∧
    (∀ i ∈ rows.map (·.1), ∀ u : State, u.issues e = false → exec i u = .next u)

/-- The 21 ALU triggers (R234, R235, R276): R, the carry, and what an overflow does. The carry changes at ADD, ADDC, SUB, SUBC
and RSUB alone. An overflow of an arithmetic trigger counts only while EXC.AEN.OV is set: with PREC clear it is reported and
R takes the wrapped result; with PREC set the unit does not start and vector 10 is taken. A command of a unit acts only while its
engine issues (R452). -/
def Obligations.EngineAluOps : Prop :=
  ∀ (s : State) (e : Eng) (u : Fin 2) (b : Word),
    let x := s.engine e
    let a := x.alu[u].a
    let c := x.alu[u].c
    let k : Word := if c then 1 else 0
    let one (i : Instr) (r : Word) (c' : Bool) (ovf : Prop) : Prop :=
      let t := s.setEng e { x with alu := x.alu.set u { x.alu[u] with r := r, c := c' } }
      (s.issues e = false → exec i s = .next s) ∧
      (s.issues e = true → ¬ ovf ∨ x.exc.ov = false → exec i s = .next t) ∧
      (s.issues e = true → ovf → x.exc.ov = true → s.bit Reg.GRIST.PREC.PREC e = false → exec i s = .next (reportArith e 10 x.flow.pc false x.seqn t)) ∧
      (s.issues e = true → ovf → x.exc.ov = true → s.bit Reg.GRIST.PREC.PREC e = true →
        exec i s = .next (faultOut e { preciseEvent s e 10 with aepc := some x.flow.pc } s))
    let outside (v : Int) : Prop := v < -2 ^ 47 ∨ 2 ^ 47 - 1 < v
    one (.aluAdd e u b) (a + b) (decide (2 ^ 48 ≤ a.toNat + b.toNat)) (outside (a.toInt + b.toInt)) ∧
    one (.aluAddc e u b) (a + b + k) (decide (2 ^ 48 ≤ a.toNat + b.toNat + k.toNat)) (outside (a.toInt + b.toInt + k.toNat)) ∧
    one (.aluSub e u b) (a - b) (decide (a.toNat < b.toNat)) (outside (a.toInt - b.toInt)) ∧
    one (.aluSubc e u b) (a - b - k) (decide (a.toNat < b.toNat + k.toNat)) (outside (a.toInt - b.toInt - k.toNat)) ∧
    one (.aluRsub e u b) (b - a) (decide (b.toNat < a.toNat)) (outside (b.toInt - a.toInt)) ∧
    one (.aluAnd e u b) (a &&& b) c False ∧ one (.aluOr e u b) (a ||| b) c False ∧ one (.aluXor e u b) (a ^^^ b) c False ∧
    one (.aluAndn e u b) (a &&& ~~~ b) c False ∧
    one (.aluMin e u b) (if a.slt b then a else b) c False ∧ one (.aluMax e u b) (if a.slt b then b else a) c False ∧
    one (.aluMinu e u b) (if a < b then a else b) c False ∧ one (.aluMaxu e u b) (if a < b then b else a) c False ∧
    one (.aluAbs e u b) (if b.msb then 0 - b else b) c (b = BitVec.intMin 48) ∧
    one (.aluNeg e u b) (0 - b) c (b = BitVec.intMin 48) ∧
    one (.aluSeq e u b) (if a = b then 1 else 0) c False ∧ one (.aluSlt e u b) (if a.slt b then 1 else 0) c False ∧
    one (.aluSltu e u b) (if a < b then 1 else 0) c False ∧
    one (.aluAdds e u b) (BitVec.ofInt 48 (max (-2 ^ 47) (min (2 ^ 47 - 1) (a.toInt + b.toInt)))) c False ∧
    one (.aluSubs e u b) (BitVec.ofInt 48 (max (-2 ^ 47) (min (2 ^ 47 - 1) (a.toInt - b.toInt)))) c False ∧
    one (.aluPass e u b) b c False

/-- The multiplier and the divider (R210, R211, R236, R237, R238, R276). A multiplier trigger joins those under way with its
operands and its bundle; a completion takes the oldest and writes PH:PL, and a MAC or MSU whose 96-bit sum leaves its range is
reported where EXC.AEN.OV is set and PREC was clear at the trigger. A divide that is free to start fixes quotient and remainder,
which Q and REM show once it completes; division by 0 and −2^47 by −1 give the values of R238 and are reported where enabled.
With PREC set a trigger that raises does not start, and its vector is entered. A trigger acts only while its engine issues (R452);
what is under way completes in any case. -/
def Obligations.EngineMultiplyDivide : Prop :=
  ∀ (s : State) (e : Eng) (b : Word),
    let x := s.engine e
    let prec := s.bit Reg.GRIST.PREC.PREC e
    let runs : Prop := s.issues e = true
    let stops (p : Nat) (i : Instr) : Prop := ∀ vec, runs → prec = true → raises x p b = some vec →
      exec i s = .next (faultOut e { preciseEvent s e vec with aepc := some x.flow.pc } s)
    (∀ p ∈ [0x081, 0x082, 0x083], raises x p b = none) ∧
    (raises x 0x092 b = if b = 0 ∧ x.exc.dz = true then some 9 else none) ∧
    (raises x 0x091 b = if b = 0 then (if x.exc.dz = true then some 9 else none)
      else if x.div.a = BitVec.intMin 48 ∧ b = -1 ∧ x.exc.ov = true then some 10 else none) ∧
    (∀ fn p i, (fn, p, i) ∈ [(MulFn.muls, 0x081, Instr.mulMuls e b), (.mulu, 0x082, .mulMulu e b), (.mulsu, 0x083, .mulMulsu e b),
        (.mac, 0x084, .mulMac e b), (.msu, 0x085, .mulMsu e b)] → stops p i ∧ (¬ runs → exec i s = .next s) ∧
      (runs → prec = false ∨ raises x p b = none → exec i s = .next (s.setEng e { x with
        mul := { x.mul with flight := x.mul.flight ++ [⟨fn, x.mul.a, b, x.flow.pc, false, x.seqn, !prec⟩] } }))) ∧
    (x.mul.flight = [] → exec (.mulComplete e) s = .next s) ∧
    (∀ m rest, x.mul.flight = m :: rest →
      let pair := x.mul.ph ++ x.mul.pl
      let sum : Int := match m.fn with
        | .muls => m.a.toInt * m.b.toInt
        | .mulu => m.a.toNat * m.b.toNat
        | .mulsu => m.a.toInt * m.b.toNat
        | .mac => pair.toInt + m.a.toInt * m.b.toInt
        | .msu => pair.toInt - m.a.toInt * m.b.toInt
      ∃ ph pl : Word, ph ++ pl = BitVec.ofInt 96 sum ∧
        (let t := s.setEng e { x with mul := { x.mul with ph := ph, pl := pl, flight := rest } }
         exec (.mulComplete e) s = .next
          (if (m.fn = .mac ∨ m.fn = .msu) ∧ (sum < -2 ^ 95 ∨ 2 ^ 95 ≤ sum) ∧ x.exc.ov = true ∧ m.imp = true then
            reportArith e 10 m.pc m.slot m.seqn t else t))) ∧
    (¬ runs ∨ x.div.flight ≠ none → exec (.divDivu e b) s = .next s ∧ exec (.divDivs e b) s = .next s) ∧
    (x.div.flight = none → stops 0x092 (.divDivu e b) ∧ stops 0x091 (.divDivs e b)) ∧
    (runs → x.div.flight = none → prec = false ∨ raises x 0x092 b = none → ∃ q r : Word,
      (let t := s.setEng e { x with div := { x.div with flight := some (q, r) } }
       exec (.divDivu e b) s = .next (if b = 0 ∧ x.exc.dz = true then reportArith e 9 x.flow.pc false x.seqn t else t)) ∧
      (b ≠ 0 → x.div.a.toNat = q.toNat * b.toNat + r.toNat ∧ r.toNat < b.toNat) ∧
      (b = 0 → q = 0xFFFFFFFFFFFF ∧ r = x.div.a)) ∧
    (runs → x.div.flight = none → prec = false ∨ raises x 0x091 b = none → ∃ q r : Word,
      (let t := s.setEng e { x with div := { x.div with flight := some (q, r) } }
       exec (.divDivs e b) s = .next (
        if b = 0 ∧ x.exc.dz = true then reportArith e 9 x.flow.pc false x.seqn t
        else if x.div.a = BitVec.intMin 48 ∧ b = -1 ∧ x.exc.ov = true then reportArith e 10 x.flow.pc false x.seqn t else t)) ∧
      (b ≠ 0 → ¬(x.div.a = BitVec.intMin 48 ∧ b = -1) → x.div.a.toInt = q.toInt * b.toInt + r.toInt ∧
        r.toInt.natAbs < b.toInt.natAbs ∧ (r = 0 ∨ r.msb = x.div.a.msb)) ∧
      (b = 0 → q = (if x.div.a.msb then 1 else -1) ∧ r = x.div.a) ∧
      (x.div.a = BitVec.intMin 48 → b = -1 → q = BitVec.intMin 48 ∧ r = 0)) ∧
    (x.div.flight = none → exec (.divComplete e) s = .next s) ∧
    (∀ q r, x.div.flight = some (q, r) →
      exec (.divComplete e) s = .next (s.setEng e { x with div := { x.div with q := q, rem := r, flight := none } }))

/-- The 15 shifter triggers, bit by bit (R239): each writes SH.R alone. `n` is the count or the field's first bit, `w` the
width of the field. A trigger acts only while its engine issues (R452). -/
def Obligations.EngineShifterOps : Prop :=
  ∀ (s : State) (e : Eng) (b : Word),
    let x := s.engine e
    let a := x.sh.a
    let n := b.toNat % 64
    let w := if b.toNat / 256 % 64 = 0 ∨ 48 < b.toNat / 256 % 64 then 48 else b.toNat / 256 % 64
    let gives (i : Instr) (P : Word → Prop) : Prop :=
      (s.issues e = false → exec i s = .next s) ∧
      (s.issues e = true → ∃ r : Word, exec i s = .next (s.setEng e { x with sh := { x.sh with r := r } }) ∧ P r)
    gives (.shShl e b) (fun r => ∀ j < 48, r.getLsbD j = (decide (n ≤ j) && a.getLsbD (j - n))) ∧
    gives (.shShr e b) (fun r => ∀ j < 48, r.getLsbD j = a.getLsbD (j + n)) ∧
    gives (.shSar e b) (fun r => ∀ j < 48, r.getLsbD j = if j + n < 48 then a.getLsbD (j + n) else a.msb) ∧
    gives (.shRol e b) (fun r => ∀ j < 48, r.getLsbD ((j + n) % 48) = a.getLsbD j) ∧
    gives (.shRor e b) (fun r => ∀ j < 48, r.getLsbD j = a.getLsbD ((j + n) % 48)) ∧
    gives (.shExtu e b) (fun r => ∀ j < 48, r.getLsbD j = (decide (j < w) && a.getLsbD (n + j))) ∧
    gives (.shExts e b) (fun r =>
      (48 ≤ n → r = 0) ∧ (n < 48 → ∀ j < 48, r.getLsbD j = a.getLsbD (n + min j (min w (48 - n) - 1)))) ∧
    gives (.shIns e b) (fun r => ∀ j < 48, r.getLsbD j = if n ≤ j ∧ j < n + w then x.sh.i.getLsbD (j - n) else a.getLsbD j) ∧
    gives (.shClz e b) (fun r => (∀ j < 48, 48 ≤ j + r.toNat → b.getLsbD j = false) ∧ r.toNat ≤ 48 ∧
      (r.toNat < 48 → b.getLsbD (47 - r.toNat) = true)) ∧
    gives (.shCtz e b) (fun r => (∀ j < r.toNat, b.getLsbD j = false) ∧ r.toNat ≤ 48 ∧
      (r.toNat < 48 → b.getLsbD r.toNat = true)) ∧
    gives (.shPopc e b) (fun r => r.toNat = ((List.range 48).filter (fun j => b.getLsbD j)).length) ∧
    gives (.shBrev e b) (fun r => ∀ j < 48, r.getLsbD j = b.getLsbD (47 - j)) ∧
    gives (.shBswap e b) (fun r => ∀ j < 6, r.extractLsb' (8 * j) 8 = b.extractLsb' (8 * (5 - j)) 8) ∧
    gives (.shBswap4 e b) (fun r => r >>> 32 = 0 ∧ ∀ j < 4, r.extractLsb' (8 * j) 8 = b.extractLsb' (8 * (3 - j)) 8) ∧
    gives (.shBswap2 e b) (fun r => r >>> 16 = 0 ∧ ∀ j < 2, r.extractLsb' (8 * j) 8 = b.extractLsb' (8 * (1 - j)) 8)

/-- The access ports of an address generator on the engine's own scratchpad (R222-R228, R290, R317): what starts, at which
address, with which size, ADDR after it, the reservation, and that a generator with an access in flight only waits and an
access across a 16-byte row enters vector 4. Watch comparators are out of play: the block is locked. A port acts only while its engine
issues (R452). Translated accesses have a statement of their own. -/
def Obligations.AddressGenerators : Prop :=
  ∀ (s : State) (e : Eng) (n : Fin 4) (v : Word) (w : Fin 9),
    let x := s.engine e
    let g := x.ag[n]
    let len := (if w.val = 0 then 6 else if w.val = 1 ∨ w.val = 5 then 1 else if w.val = 2 ∨ w.val = 6 then 2
      else if w.val = 3 ∨ w.val = 7 then 3 else 4)
    let row (va : Word) : Nat := (0x600000 + 0x20000 * e.val + va.toNat) / 16
    let acc (va : Word) (data : Word) (kind : Nat) : Access :=
      ⟨x.seqn, va, 0xFF00600000 + 0x20000 * e.val + va.toNat, true, len, w.val, data, kind, n.val, x.flow.pc, false,
        decide (kind = 2 ∧ x.resv = some (row va))⟩
    let fits (va : Word) : Prop := va.toNat < 0x20000 ∧ va.toNat / 16 = (va.toNat + len - 1) / 16
    let starts (y : AgSt) (a : Access) (r : Option Nat) : State :=
      s.setEng e { x with seqn := x.seqn + 1, ag := x.ag.set n { y with flight := some a }, resv := r }
    (∀ i, i ∈ [Instr.agLd e n w, .agLdx e n v w, .agSt e n v w, .agLr e n w, .agSc e n v w] →
      s.issues e = false ∨ g.flight.isSome = true → exec i s = .next s) ∧
    exec (.agSync e n) s = .next s ∧
    (s.issues e = true → g.flight = none →
      (∀ i st d, (i, st, d) ∈ [(Instr.agLd e n w, false, (0 : BitVec 24)), (.agLdx e n v w, false, v.setWidth 24), (.agSt e n v w, true, 0),
          (.agLr e n w, false, 0), (.agSc e n v w, true, 0)] →
        let va : Word := g.bank ++ (g.addr + d)
        va.toNat / 16 ≠ (va.toNat + len - 1) / 16 →
        exec i s = .next (faultOut e { preciseEvent s e 4 with store := st, ag := n.val, faddr := va } s)) ∧
      (s.get (Reg.SP.OWNER.OWNER e) = 0 → s.on (Reg.SP.OWNER.PEND e) = false → s.on Reg.DBG.LOCK.OPEN = false →
        let va : Word := g.bank ++ g.addr
        let vx : Word := g.bank ++ (g.addr + v.setWidth 24)
        (fits va → exec (.agLd e n w) s = .next (starts { g with addr := postUpdate g } (acc va 0 0) x.resv)) ∧
        (fits vx → exec (.agLdx e n v w) s = .next (starts g (acc vx v 0) x.resv)) ∧
        (fits va → exec (.agLr e n w) s = .next (starts g (acc va 0 1) (some (row va)))) ∧
        (fits va → exec (.agSc e n v w) s = .next (starts g (acc va v 2) none)) ∧
        (fits va → exec (.agSt e n v w) s = .next (s.setEng e { x with
          seqn := x.seqn + 1, ag := x.ag.set n { g with addr := postUpdate g }
          posted := x.posted ++ [acc va v 0]
          resv := if x.resv = some (row va) then none else x.resv }))))

/-- How the engines' accesses complete (R200, R225, R228, R277, R298, R299): on the engine's own scratchpad the bytes
arrive in LDD through the width modifier, an uncorrectable error leaves 0 and a pending report, an SC stores under the
reservation that it issued with alone, a posted store is written; external memory answers through the master port, and an error
response gives a report. A load waits for the engine's own earlier stores to its bytes. That an answer completes the oldest external
load or store, that none can come to a command or beat which still waits for its credit, and that a credit is returned at once are the
model's (log entry 51). -/
def Obligations.AccessCompletion : Prop :=
  ∀ (s : State) (e : Eng) (n : Fin 4),
    let x := s.engine e
    let taken : Prop := s.boot.inReset = false
    let set (t : State) (y : AgSt) : State := t.setEng e { t.engine e with ag := (t.engine e).ag.set n y }
    (∀ a, x.ag[n].flight = some a → behindStore s e a = true → exec (.loadComplete e n) s = .next s) ∧
    (∀ a, x.ag[n].flight = some a → behindStore s e a = false → a.own = true → 0xFF00000000 ≤ a.pa →
      let o := a.pa - 0xFF00000000
      (a.kind ≠ 2 → s.memBad o a.len = false → s.ecc = [] →
        exec (.loadComplete e n) s = .next (set s { x.ag[n] with
          ldd := widen a.width (BitVec.ofNat 48 (s.load o a.len)), flight := none })) ∧
      (a.kind ≠ 2 → s.memBad o a.len = true →
        exec (.loadComplete e n) s = .next (reportBus e a false (set (noteBad o a.len s) { x.ag[n] with ldd := 0, flight := none }))) ∧
      (a.kind = 2 → a.held = true → mergesBad s o a.len = false →
        let t := s.storeBy (some e) o (bytesLE a.len a.data.toNat)
        exec (.loadComplete e n) s = .next (set t { (t.engine e).ag[n] with scr := false, flight := none }))) ∧
    (∀ a, x.ag[n].flight = some a → behindStore s e a = false → a.kind = 2 → a.held = false →
      exec (.loadComplete e n) s = .next (set s { x.ag[n] with scr := true, flight := none })) ∧
    (∀ i a, x.posted[i]? = some a → a.own = true → 0xFF00000000 ≤ a.pa →
      (x.posted.take i).any (fun p => p.target == a.target) = false → mergesBad s (a.pa - 0xFF00000000) a.len = false →
      let t := s.storeBy (some e) (a.pa - 0xFF00000000) (bytesLE a.len a.data.toNat)
      exec (.storeComplete e i) s = .next (t.setEng e { t.engine e with posted := (t.engine e).posted.eraseIdx i })) ∧
    (s.mlQueue = [] → s.slQueue = [] → s.sendPorts = s) ∧
    (∀ a, x.ag[n].flight = some a → a.pa < 0xFF00000000 → a.kind ≠ 2 → behindStore s e a = false → s.waitsCredit e false = false →
      exec (.busErrorResponse e n false) s = .next (reportBus e a false (set s { x.ag[n] with ldd := 0, flight := none })).sendPorts ∧
      (∀ data, extLoad x = some n → taken → s.credits.mlRd ≠ 0 →
        exec (.masterResponse e false data false true) s = .next (set s { x.ag[n] with
          ldd := widen a.width (BitVec.ofNat 48 (natLE (data.take a.len))), flight := none }).sendPorts ∧
        exec (.masterResponse e false data true true) s =
          .next (reportBus e a false (set s { x.ag[n] with ldd := 0, flight := none })).sendPorts)) ∧
    (∀ a, x.ag[n].flight = some a → behindStore s e a = true → exec (.busErrorResponse e n false) s = .next s) ∧
    (∀ i a, extStore x.posted = some i → x.posted[i]? = some a → s.waitsCredit e true = false →
      let t := s.setEng e { x with posted := x.posted.eraseIdx i }
      exec (.busErrorResponse e n true) s = .next (reportBus e a true t).sendPorts ∧
      (∀ data, taken → s.credits.mlWc ≠ 0 →
        exec (.masterResponse e true data false true) s = .next t.sendPorts ∧
        exec (.masterResponse e true data true true) s = .next (reportBus e a true t).sendPorts)) ∧
    (∀ wr data err, taken → s.waitsCredit e wr = true → (if wr then s.credits.mlWc else s.credits.mlRd) ≠ 0 →
      exec (.masterResponse e wr data err true) s = .next s) ∧
    (∀ wr data err credit, taken → credit = false ∨ (if wr then s.credits.mlWc else s.credits.mlRd) = 0 →
      exec (.masterResponse e wr data err credit) s =
        .next (s.count Reg.GLB.SYS.CRDERR.MASTER (if wr then 1 else max 1 ((data.length + 15) / 16)))) ∧
    (∀ wr data err credit, ¬ taken → exec (.masterResponse e wr data err credit) s = .next s)

/-- Accesses of the generators and of exception hardware beyond the own scratchpad window (R222-R228, R271, R272, R317-R326): an entry of the
first level that covers the address gives the physical one; an entry of the second level moves into the first; what is not permitted, not
marked, or missing enters vector 7 or 6 with MISSVA, MISSINF and FADDR, or calls the walker. What goes to external memory leaves as a
command of the master port. Entries with a parity error are out of play here; the block is locked, so no watch comparator acts. An entry
pushes its frame and reads its vector through the same translation; a fault there is recorded and becomes a double fault, and one at the
double fault's own vector a third fault. That an access is retried once its walk ends is the model's form of the stall (log entry 1). -/
def Obligations.TranslatedAccesses : Prop :=
  ∀ (s : State) (e : Eng),
    let x := s.engine e
    let walks : Bool := s.on (Reg.XL.E.CTRL.WALK e)
    let clean (va : Nat) : Prop := (∀ q ∈ x.xl.dtlb.ents, q.2.covers va = true → q.2.bad = false) ∧
      (∀ q ∈ (s.l2Of e).ents, q.2.covers va = true → q.2.bad = false)
    let pa (r : TlbEntry) (va : Nat) : Nat := (r.ppn * 4096 + (va - r.vpn * 4096)) % 2 ^ 40
    let filled (r : TlbEntry) : State := s.modXl e (fun y => { y with dtlb := (y.dtlb.install false { r with share := 0 }).1 })
    (∀ (n : Fin 4) (v : Word) (w : Fin 9) (i : Instr) (op : Nat),
      (i, op) ∈ [(Instr.agLd e n w, 6), (Instr.agLdx e n v w, 7), (Instr.agSt e n v w, 8), (Instr.agLr e n w, 9), (Instr.agSc e n v w, 10)] →
      let g := x.ag[n]
      let len := (if w.val = 0 then 6 else if w.val = 1 ∨ w.val = 5 then 1 else if w.val = 2 ∨ w.val = 6 then 2
        else if w.val = 3 ∨ w.val = 7 then 3 else 4)
      let va : Word := g.bank ++ (g.addr + (if op = 7 then v.setWidth 24 else 0))
      let st : Bool := op == 8 || op == 10
      let faults (vec kind : Nat) (u : State) : Prop := exec i s = .next (faultOut e
        { preciseEvent s e vec with store := st, ag := n.val, faddr := va }
        (recordMiss e va.toNat (st.toNat + 4 * kind + 32 * walks.toNat) u))
      s.issues e = true → g.flight = none → s.on Reg.DBG.LOCK.OPEN = false → 0x20000 ≤ va.toNat →
      va.toNat / 16 = (va.toNat + len - 1) / 16 → clean va.toNat →
      let permits (r : TlbEntry) : Prop := (if st = true then r.w else r.r) = true
      let marked (r : TlbEntry) : Prop := r.ae = false ∨ r.a = true ∧ (st = true → r.d = true)
      let mine (r : TlbEntry) : Prop := isExternal (pa r va.toNat) = false ∧
        placeOf (realAddr (pa r va.toNat - blockSpace)) = .spad e ∧ s.admits e 1 = false
      let missed : Prop := x.xl.dtlb.find va.toNat none = none ∧ (s.l2Of e).find va.toNat (some (localEng e)) = none
      let starts (r : TlbEntry) (t : State) : Prop :=
        let a := pa r va.toNat
        let y := t.engine e
        let is (b : Access) : Prop := b.va = va ∧ b.pa = a ∧ b.own = false ∧ b.len = len ∧ b.width = w.val ∧ b.ag = n.val ∧
          b.seqn = x.seqn ∧ (op = 8 ∨ op = 10 → b.data = v) ∧ b.kind = (if op = 9 then 1 else if op = 10 then 2 else 0)
        y.seqn = x.seqn + 1 ∧ y.g = x.g ∧ y.flow = x.flow ∧ t.mem = s.mem ∧
        (op = 8 → ∃ b, y.posted = x.posted ++ [b] ∧ is b) ∧
        (op ≠ 8 → y.posted = x.posted ∧ ∃ b, y.ag[n].flight = some b ∧ is b) ∧
        y.ag[n].addr = (if op = 6 ∨ op = 8 then postUpdate g else g.addr) ∧ (op = 10 → y.resv = none) ∧
        (isExternal a = true → op ≠ 10 → ∃ z : State, z.out = s.out ∧ z.mlQueue = s.mlQueue ∧
          t = z.emit (.master e true (op == 8) a len (isDevice s a) (if op = 8 then bytesLE len v.toNat else []))) ∧
        (isExternal a = false ∨ op = 10 → t.out = s.out ∧ t.mlQueue = s.mlQueue)
      (∀ r, x.xl.dtlb.find va.toNat none = some r →
        (permits r → marked r → ¬ mine r → Completes i s (fun t => starts r t ∧ (t.engine e).xl = x.xl)) ∧
        (¬ permits r → faults 7 1 s) ∧
        (permits r → r.ae = true → r.a = false → walks = false → faults 7 2 s) ∧
        (permits r → r.ae = true → r.a = true → st = true → r.d = false → walks = false → faults 7 3 s) ∧
        (permits r → marked r → mine r → faults 7 5 (ownerRefusal e e s))) ∧
      (∀ r, x.xl.dtlb.find va.toNat none = none → (s.l2Of e).find va.toNat (some (localEng e)) = some r →
        (permits r → marked r → ¬ mine r → Completes i s (fun t => starts r t ∧
          (t.engine e).xl.dtlb.find va.toNat none = some { r with share := 0 } ∧ (t.engine e).xl.itlb = x.xl.itlb)) ∧
        (¬ permits r → faults 7 1 (filled r))) ∧
      (missed → walks = false → faults 6 0 s) ∧
      (missed → walks = true → x.xl.walkFault = none → va.toNat / 2 ^ 39 ≠ s.get (Reg.XL.E.CTRL.WBASE e) →
        faults 6 4 (s.count (Reg.XL.E.WFLT.CNT e))) ∧
      (missed → walks = true → x.xl.walkFault = none → va.toNat / 2 ^ 39 = s.get (Reg.XL.E.CTRL.WBASE e) →
        (x.xl.walk.isSome = true → exec i s = .next s) ∧
        (x.xl.walk = none → exec i s = .next (s.modXl e (fun y =>
          { y with walk := some ⟨va.toNat, if st = true then .write else .read, none⟩ }))))) ∧
    (∀ ev : Event,
      let y := x.exc
      let loVa := (y.sp - 32).toNat
      let hiVa := (y.sp - 16).toNat
      let vecVa := (y.vbar.toNat + 8 * ev.vec) % 2 ^ 48
      let loBytes := bytesLE 8 y.epc.toNat ++ bytesLE 8 y.enpc.toNat
      let hiBytes := bytesLE 8 y.ssr.toNat ++ bytesLE 8 y.cause.toNat
      (ev.vec < 16 ∨ 32 ≤ ev.vec → y.sr.mask.toNat < eventLevel y ev.vec) → y.sp.toNat % 16 = 0 →
      (∀ inf u, translate e loVa .write s = (.fault inf, u) →
        takeException e ev s = doubleFault e ev true false false (recordMiss e loVa inf u)) ∧
      (∀ u, translate e loVa .write s = (.busy, u) → takeException e ev s = u.modEng e (fun z => { z with retry := some (ev, none) })) ∧
      (∀ lo o u, translate e loVa .write s = (.ok lo o, u) →
        (∀ inf t, translate e hiVa .write u = (.fault inf, t) →
          takeException e ev s = doubleFault e ev true false false (recordMiss e hiVa inf t)) ∧
        (∀ hi q t, translate e hiVa .write u = (.ok hi q, t) → generatorsTouch t e lo 16 = false → generatorsTouch t e hi 16 = false →
          (∀ inf z, translate e vecVa .read t = (.fault inf, z) →
            takeException e ev s = doubleFault e ev true false false (recordMiss e vecVa inf z)) ∧
          (∀ bs z, vectorLoad e ev.vec t = (.ok bs, z) →
            let left := (isExternal hi).toNat + (isExternal lo).toNat
            let k := z.engine e
            let undo : Undo := ⟨k.exc.sp, k.exc.epc, k.exc.enpc, k.exc.ssr, k.exc.cause, k.exc.aepc, k.exc.faddr, k.exc.sr, k.flow.pc,
              k.flow.xfer, left, k.seqn⟩
            let a := pushRow e hi q hiBytes (z.modEng e (fun c =>
              { c with undo := if left = 0 then none else some undo, seqn := c.seqn + 1 }))
            let b := pushRow e lo o loBytes a.2
            (k.exc = y → a.1 = true → b.1 = true → ∃ t : State, takeException e ev s = t ∧ t.mem = b.2.mem ∧ t.mlQueue = b.2.mlQueue ∧
              (let c := (t.engine e).exc
               c.sp = y.sp - 32 ∧ c.epc = ev.epc ∧ c.enpc = ev.enpc ∧ c.ssr = ({ y.sr with ds := ev.ds } : Status).word ∧
               c.cause = causeWord ev.vec ev false false false ∧
               c.sr = ⟨BitVec.ofNat 3 (eventLevel y ev.vec), false, false, false, false, false⟩ ∧
               (t.engine e).flow.pc = BitVec.ofNat 48 (natLE bs) ∧ (t.engine e).flow.xfer = none)) ∧
            (k.exc = y → a.1 = false → takeException e ev s = doubleFault e ev true false false (a.2.modEng e (fun c => { c with undo := none }))) ∧
            (k.exc = y → a.1 = true → b.1 = false →
              takeException e ev s = doubleFault e ev true false false (b.2.modEng e (fun c => { c with undo := none }))))))) ∧
    (∀ (pa : Nat) (own : Bool) (bs : List Byte), (isExternal pa = true →
        pushRow e pa own bs s = (true, s.emit (.master e true true pa 16 (isDevice s pa) bs))) ∧
      (isExternal pa = false → own = true → mergesBad s (pa - blockSpace) bs.length = false →
        pushRow e pa own bs s = (true, s.storeBy (some e) (pa - blockSpace) bs))) ∧
    (∀ k : Nat,
      let va := (x.exc.vbar.toNat + 8 * k) % 2 ^ 48
      (∀ inf u, translate e va .read s = (.fault inf, u) → vectorLoad e k s = (.fault va inf, u)) ∧
      (∀ u, translate e va .read s = (.busy, u) → vectorLoad e k s = (.wait, u)) ∧
      (∀ pa own u st bs t, translate e va .read s = (.ok pa own, u) → isExternal pa = false → generatorsTouch u e pa 6 = false →
        engBlockRead e own (pa - blockSpace) 6 u = (st, bs, t) → vectorLoad e k s = (if st = stOkay then .ok bs else .error, t))) ∧
    (∀ (ev : Event) (a b c : Bool) (inf : Nat) (u : State), x.exc.sr.df = false →
      translate e ((x.exc.vbar.toNat + 8) % 2 ^ 48) .read s = (.fault inf, u) →
      doubleFault e ev a b c s = thirdFault e (missVector inf) ev.epc false u) ∧
    (∀ inf u, x.exc.sr.df = false → x.exc.sp.toNat % 16 = 0 → translate e x.exc.sp.toNat .read s = (.fault inf, u) →
      reload e x.exc.sp.toNat s = (.fault (missVector inf) x.exc.sp.toNat (some inf), u))

/-- Control transfers, the loop counter, the instruction cache and the exception unit's ports (R212, R213, R215, R242, R264,
R267, R280). A transfer takes effect after one delay bundle; in a delay bundle, in a repeat, or at the end of an active loop
it is an illegal bundle. Each acts only while its engine issues (R452). -/
def Obligations.EngineFlowOps : Prop :=
  ∀ (s : State) (e : Eng) (v : Word),
    let x := s.engine e
    let free : Prop := x.flow.xfer = none ∧ x.exc.sr.ra = false ∧ (x.exc.sr.la = true → x.flow.pc ≠ x.flow.loopEnd)
    let rest (f : FlowSt) : State := s.setEng e { x with stalled := false, held := none, husk := none, fresh := false, flow := f }
    (s.issues e = true → free → x.stepping = false →
      exec (.brJmp e v) s = .next (rest { x.flow with xfer := some (true, v), pc := x.flow.pc + 6 }) ∧
      exec (.brCall e v) s =
        .next (rest { x.flow with xfer := some (true, v), pc := x.flow.pc + 6, link := x.flow.pc + 12 })) ∧
    (s.issues e = true → ¬ free →
      exec (.brJmp e v) s = .next (faultOut e (preciseEvent s e 3) s) ∧
      exec (.brCall e v) s = .next (faultOut e (preciseEvent s e 3) s)) ∧
    (∀ i ∈ [Instr.brJmp e v, .brCall e v, .loopCntWrite e v, .icInv e v, .icInvall e, .excSwi e v, .excWdkick e, .excSrWrite e v],
      s.issues e = false → exec i s = .next s) ∧
    (s.issues e = true →
    exec (.loopCntWrite e v) s = .next (s.setEng e { x with
      flow := { x.flow with loopCnt := v.setWidth 32 }
      exc := { x.exc with sr := { x.exc.sr with la := decide (v.setWidth 32 ≠ 0#32) } } }) ∧
    Completes (.icInv e v) s (fun t => (∀ l, lookup l (t.engine e).xl.lines =
        if l = v.toNat / 64 then none else lookup l x.xl.lines) ∧ t.cells = s.cells ∧ t.mem = s.mem ∧
        ∃ y, t = s.setEng e { x with xl := y } ∧ y.itlb = x.xl.itlb ∧ y.dtlb = x.xl.dtlb) ∧
    Completes (.icInvall e) s (fun t => (t.engine e).xl.lines = [] ∧
        ∃ y, t = s.setEng e { x with xl := y } ∧ y.itlb = x.xl.itlb ∧ y.dtlb = x.xl.dtlb) ∧
    (∃ w : BitVec 2, (∀ i < 2, w.getLsbD i = (v.getLsbD i || x.exc.swi.getLsbD i && !v.getLsbD (8 + i))) ∧
      exec (.excSwi e v) s = .next (s.setEng e { x with exc := { x.exc with swi := w } })) ∧
    exec (.excWdkick e) s = .next (s.setEng e { x with exc := { x.exc with wdOnce := false } }) ∧
    exec (.excSrWrite e v) s =
      .next (s.setEng e { x with exc := { x.exc with
        sr := { x.exc.sr with mask := v.setWidth 3 }
        holds := x.exc.holds.filter (fun h => h.depth != 0 || decide (h.mask.toNat ≤ (v.setWidth 3 : BitVec 3).toNat)) } }))

/-- R215: a move of a nonzero value to LOOP.CNT sets the loop-active bit, a move of 0 clears it, and the loop unit acts only
while the bit is set: with it clear, where a retiring bundle leaves the PC depends neither on LOOP.START nor on LOOP.END, and
LOOP.CNT keeps its value. -/
def Obligations.LoopCountWrite : Prop :=
  (∀ (s : State) (e : Eng) (v : Word), s.issues e = true → ∃ t, exec (.loopCntWrite e v) s = .next t ∧
    ((t.engine e).exc.sr.la = true ↔ (t.engine e).flow.loopCnt ≠ 0) ∧ (t.engine e).flow.loopCnt = v.setWidth 32) ∧
  (∀ (s : State) (e : Eng) (q : Seqd) (a b : Word), (s.engine e).exc.sr.la = false →
    let other := s.modFlow e (fun f => { f with loopStart := a, loopEnd := b })
    ((retire e q other).engine e).flow.pc = ((retire e q s).engine e).flow.pc ∧
    ((retire e q s).engine e).flow.loopCnt = (s.engine e).flow.loopCnt ∧
    ((retire e q s).engine e).exc.sr.la = false)

/-- Host doorbells, sequencer queues, the CRC unit, the time ports and the trace notes of an engine (R247-R252, R298, R299, R342, R344,
R452, R462). Each acts only while its engine issues. A note's packet is emitted in its cycle and enters the FIFO at its end, the model's
tick; a ring pointer that cannot be read stays (log entry 75). -/
def Obligations.EngineQueuesAndCrc : Prop :=
  ∀ (s : State) (v : Word),
    (∀ m : Fin 2, let e : Eng := ⟨m.val, by omega⟩
      let c := (s.engine e).msg.hdbCh.toNat
      (s.issues e = false → exec (.hdbRing m v) s = .next s ∧ exec (.hdbClr m v) s = .next s) ∧
      ((s.engine e).posted.any toB2h = true → exec (.hdbRing m v) s = .next s) ∧
      (s.issues e = true → (s.engine e).posted.any toB2h = false → Completes (.hdbRing m v) s (fun t =>
        (∀ i < 32, (t.get (Reg.DB.HB.BITS c)).testBit i = ((s.get (Reg.DB.HB.BITS c)).testBit i || v.getLsbD i)) ∧
        t.eng = s.eng ∧ t.mem = s.mem ∧
        (∀ c' < 4, c' ≠ c → t.get (Reg.DB.HB.BITS c') = s.get (Reg.DB.HB.BITS c')) ∧
        (∀ c' < 4, t.get (Reg.DB.BB.BITS c') = s.get (Reg.DB.BB.BITS c')))) ∧
      (s.issues e = true → Completes (.hdbClr m v) s (fun t =>
        (∀ i < 32, (t.get (Reg.DB.BB.BITS c)).testBit i = ((s.get (Reg.DB.BB.BITS c)).testBit i && !v.getLsbD i)) ∧
        (∀ i < 32, (t.get (Reg.DB.HB.BITS c)).testBit i = ((s.get (Reg.DB.HB.BITS c)).testBit i ||
          decide (i = 2) && (s.get (Reg.DB.BB.BITS c)).testBit 0 && v.getLsbD 0)) ∧
        t.eng = s.eng ∧ t.mem = s.mem))) ∧
    (∀ c : Fin 12, let e := pce c
      let p := sqPort s e
      let q := sqQueue s e
      let runs : Prop := s.issues e = true
      let moves (i : Instr) (o n : Nat) : Prop :=
        let a := privAddr s p o
        let u := s.store a (bytesLE 4 ((s.load a 4 + n) % 16))
        (s.answers a = true → s.ecc = [] → exec i s = .next u) ∧
        (s.answers a = true → s.memBad a 4 = false → Completes i s (fun t => t.mem = u.mem ∧ t.eng = u.eng)) ∧
        (s.answers a = true → s.memBad a 4 = true → Completes i s (fun t => t.mem = s.mem ∧ t.eng = s.eng)) ∧
        (s.answers a = false → exec i s = .next s)
      (∀ d, ∀ i ∈ [Instr.sqRxpop c v, .sqEvpop c v, .sqCmdpush c, .tmCmp c v, .tmCap c d], ¬ runs → exec i s = .next s) ∧
      (runs → exec (.sqRxpop c v) s =
        .next (s.put (Reg.PQ.RX.RD.RD p q) ((s.get (Reg.PQ.RX.RD.RD p q) + v.toNat % 2 ^ 16) % 2 ^ 16))) ∧
      (runs → moves (.sqEvpop c v) 0x90 (v.toNat % 16)) ∧
      ((s.engine e).posted.any (toOwnCluster e) = true → exec (.sqCmdpush c) s = .next s) ∧
      (runs → (s.engine e).posted.any (toOwnCluster e) = false → moves (.sqCmdpush c) 4 1) ∧
      (runs → exec (.tmCmp c v) s = .next (armCompare (engClu e) (Fin.ofNat 8 ((s.engine e).msg.tmCsel.toNat % 8)) v s)) ∧
      (∀ d, let n := engClu e
        let i : Fin 4 := Fin.ofNat 4 ((s.engine e).msg.tmCsel.toNat / 16)
        runs → Completes (.tmCap c d) s (fun t => t.get (Reg.TMR.CAP.CAP_H.FULL n i) = 0 ∧
          (t.engine e).g = (s.engine e).g.set d (s.get48 (Reg.TMR.CAP.CAP_L.VAL n i) (Reg.TMR.CAP.CAP_H.VAL n i)) ∧
          t.mem = s.mem ∧ t.clusters = s.clusters))) ∧
    (∀ e : Eng, let x := s.engine e
      let m := x.msg
      let runs : Prop := s.issues e = true
      let into (d : Fin 64) (w : Word) : State := s.setEng e { x with g := x.g.set d w }
      (∀ k d t, ∀ i ∈ [Instr.tmHi e k d, .tmLo e k d, .tmAdjRead e k d, .tmAdjWrite e k v, .crcD1 e v, .crcD2 e v, .crcD4 e v,
        .crcD6 e v, .trcNote e t v], ¬ runs → exec i s = .next s) ∧
      (∀ k d, runs → exec (.tmHi e k d) s = .next (into d (s.dom k).hi) ∧ exec (.tmLo e k d) s = .next (into d (s.dom k).lo) ∧
        exec (.tmAdjRead e k d) s = .next (into d (s.dom k).adj)) ∧
      (∀ k, runs → exec (.tmAdjWrite e k v) s = .next (setAdj k v s)) ∧
      (∀ n i, (n, i) ∈ [(1, Instr.crcD1 e v), (2, .crcD2 e v), (4, .crcD4 e v), (6, .crcD6 e v)] → runs →
        ∃ r : BitVec 32, exec i s = .next (s.setEng e { x with msg := { m with crcState := r } }) ∧
          r.toNat = (bytesLE n v.toNat).foldl (fun st b =>
            (crcBits (m.crcCfg.getLsbD 3) b).foldl (crcBit (crcPoly (m.crcCfg.toNat % 8)).1 (crcPoly (m.crcCfg.toNat % 8)).2) st)
              (m.crcState.toNat % 2 ^ (crcPoly (m.crcCfg.toNat % 8)).1) ∧
          r.toNat < 2 ^ (crcPoly (m.crcCfg.toNat % 8)).1) ∧
      (∀ t : Fin 32, s.bit (Reg.TRC.E.NOTEEN.NOTE e) t = false ∨ s.on Reg.TRC.CTRL.EN = false → exec (.trcNote e t v) s = .next s) ∧
      (∀ t : Fin 32, runs → s.bit (Reg.TRC.E.NOTEEN.NOTE e) t = true → s.on Reg.TRC.CTRL.EN = true →
        exec (.trcNote e t v) s = .next { s with trace := { s.trace with
          now := s.trace.now ++ [⟨e.val, 0, [traceHeader 2 e t s.trace.cyc.toNat, BitVec.ofNat 32 v.toNat,
            BitVec.ofNat 32 (v.toNat / 2 ^ 32)]⟩]
          quiet := 0 } })) ∧
    (∀ ws : List Word32, s.trace.lost = 0 →
      (s.trace.fifo.length + ws.length ≤ 1024 → tracePacket ws s = { s with trace := { s.trace with fifo := s.trace.fifo ++ ws } }) ∧
      (1024 < s.trace.fifo.length + ws.length →
        tracePacket ws s = ({ s with trace := { s.trace with lost := 1 } } : State).count Reg.TRC.STAT.LOST))

/-- Semaphores, engine doorbells and messages (R244-R246, R295): a take answers 1 and acquires a free semaphore, and 0
otherwise; a give frees only the giver's own; SENDs and RINGs leave in order, and a delivery appends to the target's queue of
eight or sets its doorbell bits, or fails and says so to the sender. The first message to an engine that start-up parked
starts it (R378). A port acts only while its engine issues (R452). -/
def Obligations.SemaphoresAndMessages : Prop :=
  ∀ (s : State) (e : Eng),
    let x := s.engine e
    let setG (t : State) (d : Fin 64) (v : Word) : State := t.setEng e { t.engine e with g := (t.engine e).g.set d v }
    let k := x.msg.semIdx.toNat
    let runs : Prop := s.issues e = true
    (∀ d v, ∀ i ∈ [Instr.semTake e d, .semGive e v, .edbClr e v, .edbRing e v, .msgSend e v, .msgRecv e d],
      ¬ runs → exec i s = .next s) ∧
    (∀ d, runs → s.on (Reg.SEM.HOLD.HELD k) = false → ∃ t : State, exec (.semTake e d) s = .next (setG t d 1) ∧
      t.get (Reg.SEM.HOLD.HELD k) = 1 ∧ t.get (Reg.SEM.HOLD.REQ k) = e ∧ t.eng = s.eng ∧ t.mem = s.mem) ∧
    (∀ d, runs → s.on (Reg.SEM.HOLD.HELD k) = true → exec (.semTake e d) s = .next (setG s d 0)) ∧
    (∀ v : Word, let j := v.toNat % 64
      (runs → s.on (Reg.SEM.HOLD.HELD j) = true → s.get (Reg.SEM.HOLD.REQ j) = e →
        exec (.semGive e v) s = .next (s.lower (Reg.SEM.HOLD.HELD j))) ∧
      (runs → s.on (Reg.SEM.HOLD.HELD j) = false ∨ s.get (Reg.SEM.HOLD.REQ j) ≠ e →
        exec (.semGive e v) s = .next (s.count (Reg.SEM.HOLD.BADGIVE j)))) ∧
    (∀ v, runs → exec (.edbClr e v) s =
      .next (s.setEng e { x with msg := { x.msg with edb := x.msg.edb &&& ~~~ (v.setWidth 32) } })) ∧
    (∀ v, runs → exec (.edbRing e v) s = .next { s with parcels := s.parcels ++ [⟨e, x.msg.edbTgt.toNat, true, v⟩] }) ∧
    (∀ v, runs → exec (.msgSend e v) s = .next { s with parcels := s.parcels ++ [⟨e, x.msg.msgTgt.toNat, false, v⟩] }) ∧
    (∀ d v rest, runs → x.msg.queue = v :: rest →
      exec (.msgRecv e d) s = .next (s.setEng e { x with g := x.g.set d v, msg := { x.msg with queue := rest } })) ∧
    (∀ d, runs → x.msg.queue = [] → exec (.msgRecv e d) s = .next (setG s d 0)) ∧
    (∀ tgt, takeParcel e tgt s.parcels = none → exec (.msgDeliver e tgt) s = .next s) ∧
    (∀ tgt ring v rest, takeParcel e tgt s.parcels = some (⟨e, tgt.val, ring, v⟩, rest) →
      let y := s.engine tgt
      let mark (t : State) (sf rf : Bool) : State := t.modMsg e (fun m => { m with sendFail := sf, ringFail := rf })
      let u := { s with parcels := rest }
      (ring = true → s.up (engDom tgt) = true → exec (.msgDeliver e tgt) s =
        .next (mark (u.setEng tgt { y with msg := { y.msg with edb := y.msg.edb ||| v.setWidth 32 } }) x.msg.sendFail false)) ∧
      (ring = true → s.up (engDom tgt) = false →
        exec (.msgDeliver e tgt) s = .next (mark u x.msg.sendFail true)) ∧
      (ring = false → s.up (engDom tgt) = true → y.msg.queue.length < 8 → y.boot = false →
        exec (.msgDeliver e tgt) s =
          .next (mark (u.setEng tgt { y with msg := { y.msg with queue := y.msg.queue ++ [v] } }) false x.msg.ringFail)) ∧
      (ring = false → s.up (engDom tgt) = true → y.msg.queue.length < 8 → y.boot = true → s.engRuns tgt = true →
        exec (.msgDeliver e tgt) s =
          .next (mark (u.setEng tgt { y with boot := false, flow := { y.flow with pc := v } }) false x.msg.ringFail)) ∧
      (ring = false → s.up (engDom tgt) = false ∨ 8 ≤ y.msg.queue.length →
        exec (.msgDeliver e tgt) s = .next (mark u true x.msg.ringFail)))

/-- Interrupt levels and the choice among sources (R263, R268). A source's level is its EXC.ILVL field, with 0 handled as 1
and 7 as 6; a fault class's level is its EXC.FLVL field, with 0 handled as 1. What a boundary takes is an enabled, pending
source above MASK of the highest level, and of those the lowest number; nothing is taken only where there is no such source,
as with MASK at 7. A disabled source still shows in EXC.IPEND. A source that a precise fault came before waits for that fault's handler
(R270): it can not be taken meanwhile. -/
def Obligations.InterruptChoice : Prop :=
  ∀ (s : State) (e : Eng),
    let x := (s.engine e).exc
    let field (v w : Nat) : Nat := v / 2 ^ w % 8
    let can (k : Nat) : Prop :=
      k < 16 ∧ s.source e k = true ∧ x.ien.getLsbD k = true ∧ x.sr.mask.toNat < sourceLevel x k ∧
        ∀ h ∈ x.holds, h.srcs.getLsbD k = false
    (∀ k < 16, sourceLevel x k = if field x.ilvl.toNat (3 * k) = 0 then 1
      else if field x.ilvl.toNat (3 * k) = 7 then 6 else field x.ilvl.toNat (3 * k)) ∧
    (∀ k < 16, 1 ≤ sourceLevel x k ∧ sourceLevel x k ≤ 6) ∧
    (∀ vec, vec < 16 ∨ 32 ≤ vec → eventLevel x vec =
      if field x.flvl.toNat (3 * classIndex vec) = 0 then 1 else field x.flvl.toNat (3 * classIndex vec)) ∧
    (∀ k, s.takeable e = some k → can k ∧
      ∀ j, can j → sourceLevel x j ≤ sourceLevel x k ∧ (sourceLevel x j = sourceLevel x k → k ≤ j)) ∧
    (s.takeable e = none → ∀ j, ¬ can j) ∧
    (x.sr.mask = 7 → s.takeable e = none) ∧
    (x.sr.mask = 7 → ∀ ev : Event, ev.vec < 16 ∨ 32 ≤ ev.vec → takeException e ev s = doubleFault e ev false true false s) ∧
    (∀ k < 16, (s.ipend e).testBit k = s.source e k)

/-- Taking an exception (R262, R263, R265, R267, R271, R278, R283), where the stack and the vector table lie in the engine's
own scratchpad and the level of what is entered is above MASK: the four words pushed, the new frame, the status, the
stack pointer and the handler's address. That a fault above MASK enters normally although DF is set is the model's reading (log entry 33).
What a precise fault came before waits for its handler (R270): the sources that stand enabled and above the old MASK, and the warning. -/
def Obligations.ExceptionEntry : Prop :=
  ∀ (s : State) (e : Eng) (ev : Event),
    let x := s.engine e
    let y := x.exc
    let base := 0x600000 + 0x20000 * e.val
    let sp := y.sp.toNat
    let vec := y.vbar.toNat + 8 * ev.vec
    (ev.vec < 16 ∨ 32 ≤ ev.vec → y.sr.mask.toNat < eventLevel y ev.vec) →
    sp % 16 = 0 → 32 ≤ sp → sp ≤ 0x20000 → vec + 6 ≤ 0x20000 → ev.vec < 64 → s.ecc = [] →
    s.get (Reg.SP.OWNER.OWNER e) = 0 → s.on (Reg.SP.OWNER.PEND e) = false →
    (∀ n : Fin 4, x.ag[n].flight = none) → x.posted = [] →
    ∃ t : State, takeException e ev s = t ∧
      (let u := t.engine e
       let z := u.exc
       z.sp = y.sp - 32 ∧ z.epc = ev.epc ∧ z.enpc = ev.enpc ∧
       z.ssr = ({ y.sr with ds := ev.ds } : Status).word ∧
       z.cause = causeWord ev.vec ev false false false ∧
       z.faddr = (if 4 ≤ ev.vec ∧ ev.vec ≤ 8 then ev.faddr else 0) ∧
       z.aepc = ev.aepc.getD y.aepc ∧
       z.sr = ⟨BitVec.ofNat 3 (eventLevel y ev.vec), false, false, false, false, false⟩ ∧
       z.dsp = y.dsp ∧ z.sh = y.sh ∧ z.vbar = y.vbar ∧ z.ien = y.ien ∧ z.ilvl = y.ilvl ∧ z.flvl = y.flvl ∧
       z.reports = y.reports ∧
       (∃ srcs : BitVec 16,
         (∀ k < 16, srcs.getLsbD k = (t.source e k && y.ien.getLsbD k && decide (y.sr.mask.toNat < sourceLevel y k))) ∧
         z.holds = y.holds.map (fun h => { h with depth := h.depth + 1 }) ++
           (if ev.precise = true ∧ (y.wdWarn = true ∨ srcs ≠ 0) then [⟨BitVec.ofNat 3 (eventLevel y ev.vec), 0, srcs, y.wdWarn⟩] else [])) ∧
       z.swi = (if ev.vec = 16 then y.swi &&& 2 else if ev.vec = 17 then y.swi &&& 1 else y.swi) ∧
       u.flow.pc = BitVec.ofNat 48 (s.load (base + vec) 6) ∧ u.flow.xfer = none ∧
       u.flow.loopCnt = x.flow.loopCnt ∧ u.flow.rptCnt = x.flow.rptCnt ∧ u.flow.link = x.flow.link ∧
       u.resv = none ∧ u.fresh = true ∧ u.retry = none ∧ u.g = x.g ∧ u.alu = x.alu ∧ u.ag = x.ag) ∧
      t.load (base + sp - 32) 6 = y.epc.toNat ∧ t.load (base + sp - 24) 6 = y.enpc.toNat ∧
      t.load (base + sp - 16) 6 = y.ssr.toNat ∧ t.load (base + sp - 8) 6 = y.cause.toNat ∧
      (∀ a, a < base + sp - 32 ∨ base + sp ≤ a → t.byte a = s.byte a)

/-- EXC.RET (R275): the state it restores and where the frame registers are reloaded from; as part of a control transfer it is
illegal where a transfer is (R213, R216, R218), and a misaligned stack pointer escalates. What waited for the handler is free again (R270).
It acts only while its engine issues (R452). That the transfer through ENPC counts as taken exactly if ENPC is not EPC + 6 is the model's
reading (log entry 35). -/
def Obligations.ExceptionReturn : Prop :=
  ∀ (s : State) (e : Eng),
    let x := s.engine e
    let y := x.exc
    let free : Prop := x.flow.xfer = none ∧ x.exc.sr.ra = false ∧ (x.exc.sr.la = true → x.flow.pc ≠ x.flow.loopEnd)
    let back (w : Nat → Word) (sp : Word) (t : State) : Prop :=
      let z := (t.engine e).exc
      (t.engine e).flow.pc = y.epc ∧
      z.sr = { Status.ofWord y.ssr with ds := false } ∧
      (t.engine e).flow.xfer = (if y.ssr.getLsbD 6 then some (decide (y.enpc ≠ y.epc + 6), y.enpc) else none) ∧
      z.epc = w 0 ∧ z.enpc = w 1 ∧ z.ssr = (w 2).setWidth 8 ∧ z.cause = w 3 &&& 0x1FF1FFF ∧ z.sp = sp ∧
      z.sh = y.sh ∧ z.dsp = y.dsp ∧ z.vbar = y.vbar ∧ z.faddr = y.faddr ∧ z.aepc = y.aepc ∧
      z.holds = ((y.holds.filter (fun h => h.depth != 0)).map (fun h => { h with depth := h.depth - 1 })).filter
        (fun h => h.depth != 0 || decide (h.mask.toNat ≤ (Status.ofWord y.ssr).mask.toNat)) ∧
      (t.engine e).g = x.g ∧ (t.engine e).flow.loopCnt = x.flow.loopCnt ∧ (t.engine e).flow.rptCnt = x.flow.rptCnt ∧
      (t.engine e).fresh = false ∧ t.mem = s.mem ∧ t.cells = s.cells
    (s.issues e = false → exec (.excRet e) s = .next s) ∧
    (s.issues e = true → ¬ free → exec (.excRet e) s = .next (faultOut e (preciseEvent s e 3) s)) ∧
    (s.issues e = true → free → x.stepping = false → s.on (Reg.TRC.E.CFG.FLOW e) = false →
      (y.sr.df = true → Completes (.excRet e) s (back (fun i => y.sh.toList.getD i 0) y.sp)) ∧
      (y.sr.df = false → y.sp.toNat % 16 ≠ 0 →
        let ev := { preciseEvent s e 4 with faddr := y.sp }
        let at' (l : List Report) : State :=
          s.setEng e { x with stalled := false, held := none, husk := none, exc := { y with reports := l } }
        (y.reports = [] → exec (.excRet e) s = .next (doubleFault e ev false false true (at' []))) ∧
        (∀ r rest, y.reports = r :: rest → exec (.excRet e) s = .next (takeException e
          { ev with vec := r.vec, imp := true, multi := r.multi, store := r.store, ag := r.ag, faddr := r.faddr, aepc := some r.aepc
                    slot := r.slot, fetch := false } (at' rest)))) ∧
      (y.sr.df = false → y.sp.toNat % 16 = 0 → y.sp.toNat + 32 ≤ 0x20000 → s.ecc = [] →
        s.get (Reg.SP.OWNER.OWNER e) = 0 → s.on (Reg.SP.OWNER.PEND e) = false →
        (∀ n : Fin 4, x.ag[n].flight = none) → x.posted = [] →
        Completes (.excRet e) s (back
          (fun i => BitVec.ofNat 48 (s.load (0x600000 + 0x20000 * e.val + y.sp.toNat + 8 * i) 6)) (y.sp + 32))))

/-- Escalation, double fault, third fault and the engine watchdog (R262, R272, R273, R280, R281, R285). That a third fault
clears GRIST.PREC is log entry 34, that it stops the heartbeats for good log entry 71, and that a double-fault entry clears LA, RA and
RINT log entry 72: readings of the model. -/
def Obligations.FaultEscalation : Prop :=
  (∀ (s : State) (e : Eng) (ev : Event),
    let x := s.engine e
    let y := x.exc
    (¬(16 ≤ ev.vec ∧ ev.vec < 32) → eventLevel y ev.vec ≤ y.sr.mask.toNat →
      takeException e ev s = doubleFault e ev false true false s) ∧
    (¬(¬(16 ≤ ev.vec ∧ ev.vec < 32) ∧ eventLevel y ev.vec ≤ y.sr.mask.toNat) → y.sp.toNat % 16 ≠ 0 →
      takeException e ev s = doubleFault e ev true false false s) ∧
    (∀ entry esc ret, y.sr.df = true → doubleFault e ev entry esc ret s = thirdFault e ev.vec ev.epc false s) ∧
    (∀ entry esc ret, y.sr.df = false → y.vbar.toNat + 14 ≤ 0x20000 → s.ecc = [] →
      s.get (Reg.SP.OWNER.OWNER e) = 0 → s.on (Reg.SP.OWNER.PEND e) = false →
      (∀ n : Fin 4, x.ag[n].flight = none) → x.posted = [] →
      ∃ t : State, doubleFault e ev entry esc ret s = t ∧ t.mem = s.mem ∧
        (let z := (t.engine e).exc
         z.sh = #v[y.epc, y.enpc, y.ssr.setWidth 48, y.cause] ∧ z.epc = ev.epc ∧ z.enpc = ev.enpc ∧
         z.ssr = ({ y.sr with ds := ev.ds } : Status).word ∧ z.cause = causeWord 1 ev entry esc ret ∧
         z.sr = ⟨7, false, false, false, false, true⟩ ∧ z.sp = y.sp ∧ z.dsp = y.dsp ∧
         (t.engine e).resv = none ∧ (t.engine e).fresh = true ∧ (t.engine e).flow.xfer = none ∧
         (t.engine e).flow.pc = BitVec.ofNat 48 (s.load (0x600000 + 0x20000 * e.val + y.vbar.toNat + 8) 6)))) ∧
  (∀ (s : State) (e : Eng) (vec : Nat) (epc : Word) (wdog : Bool), vec < 64 →
    let t := thirdFault e vec epc wdog s
    t.bit Reg.FLT.STAT.ENG e = true ∧ t.bit Reg.FLT.RUN.ENG e = false ∧ t.get Reg.FLT.LAST.ENG = e ∧
    t.get Reg.FLT.LAST.WDOG = wdog.toNat ∧ t.get Reg.FLT.LAST.VEC = vec ∧ t.get48 Reg.FLT.EPC_L.ADDR Reg.FLT.EPC_H.ADDR = epc ∧
    t.mem = s.mem ∧ (t.engine e).g = EngSt.reset.g ∧ (t.engine e).exc = EngSt.reset.exc ∧
    (t.engine e).husk = none ∧ (e.val < 2 → t.alive = false ∧ t.twin.spent = true) ∧ t.bit Reg.GRIST.PREC.PREC e = false ∧
    t.bit Reg.PWR.EIDLE.ENG e = false) ∧
  (∀ (s : State) (e : Eng),
    let y := (s.engine e).exc
    (y.wdper = 0 → exec (.engineWatchdogExpiry e) s = .next s) ∧
    (y.wdper ≠ 0 → s.clocked e = true → s.halted e = false →
      (y.wdOnce = false → exec (.engineWatchdogExpiry e) s =
        .next (s.setEng e { s.engine e with exc := { y with wdOnce := true, wdWarn := true } })) ∧
      (y.wdOnce = true → exec (.engineWatchdogExpiry e) s = .next (thirdFault e 12 (s.engine e).flow.pc true s))))

/-- What an eligible boundary takes, and in which order (R269, R276-R278, R281): reports, then the watchdog warning, then an
interrupt; nothing in a delay slot, in a non-interruptible repeat, while a bundle stalls, or before the first bundle of a handler
has retired; a warning that a fault's entry found pending waits for its handler (R270); the row of another kind changes
nothing. -/
def Obligations.BoundaryEntries : Prop :=
  ∀ (s : State) (e : Eng), s.issues e = true → (s.engine e).retry = none →
    let x := s.engine e
    let eligible : Prop := x.flow.xfer = none ∧ x.stalled = false ∧ x.fresh = false ∧ (x.exc.sr.ra = true → x.exc.sr.rint = true)
    let at' (vec : Nat) : Event :=
      { vec := vec, epc := x.flow.pc, enpc := x.flow.pc + 6, ds := false, imp := false, multi := false, slot := false
        fetch := false, store := false, ag := 0, faddr := 0, aepc := none }
    (¬ eligible → ∀ i ∈ [Instr.interruptEntry e, .impreciseReport e, .watchdogWarningEntry e], exec i s = .next s) ∧
    (eligible →
      (∀ r rest, x.exc.reports = r :: rest →
        exec (.impreciseReport e) s = .next (takeException e
          { at' r.vec with imp := true, multi := r.multi, store := r.store, ag := r.ag, faddr := r.faddr, aepc := some r.aepc, slot := r.slot }
          (s.setEng e { x with exc := { x.exc with reports := rest } })) ∧
        exec (.interruptEntry e) s = .next s ∧ exec (.watchdogWarningEntry e) s = .next s) ∧
      (x.exc.reports = [] → exec (.impreciseReport e) s = .next s) ∧
      (x.exc.reports = [] → x.stepping = false → x.exc.wdWarn = true → (∀ h ∈ x.exc.holds, h.warn = false) →
        exec (.watchdogWarningEntry e) s = .next (takeException e (at' 12)
          (s.setEng e { x with exc := { x.exc with wdWarn := false } })) ∧
        exec (.interruptEntry e) s = .next s) ∧
      (x.exc.reports = [] → x.stepping = false → x.exc.wdWarn = false ∨ (∃ h ∈ x.exc.holds, h.warn = true) →
        exec (.watchdogWarningEntry e) s = .next s ∧
        (∀ k, s.takeable e = some k → exec (.interruptEntry e) s = .next (takeException e (at' (16 + k)) s)) ∧
        (s.takeable e = none → exec (.interruptEntry e) s = .next s)))

/-- The husk interface (R256-R258, R266): the request that goes out in its turn, the answer, the timeout, and the boundary
inputs. That a transaction which fails takes a bus error with a free FADDR is the model's choice (log entries 43 and 2). -/
def Obligations.HuskTransactions : Prop :=
  ∀ (s : State),
    (∀ (e : Eng) (w : HuskWait), (s.engine e).husk = some w → s.husk = none → huskTurn s = some e →
      let t := { (s.setEng e { s.engine e with husk := some { w with sent := true } }) with
        husk := some { eng := e, port := w.port, write := w.write, data := w.value }, huskLast := e.val
        out := .huskReq w.write (w.port - 0x1C0) e w.value :: s.out }
      exec (if w.write then .huskWrite e else .huskRead e) s = .next t ∧
      exec (if w.write then .huskRead e else .huskWrite e) s = .next s) ∧
    (∀ e : Eng, s.husk.isSome = true ∨ (s.engine e).husk = none ∨ huskTurn s ≠ some e →
      exec (.huskWrite e) s = .next s ∧ exec (.huskRead e) s = .next s) ∧
    (∀ e, huskTurn s = some e → ∃ k, 1 ≤ k ∧ k ≤ 14 ∧ e.val = (s.huskLast + k) % 14 ∧ huskWaits s e = true ∧
      ∀ j, 1 ≤ j → j < k → huskWaits s (engOf (s.huskLast + j)) = false) ∧
    (s.husk = none → (∀ data err, exec (.hskAck data err) s = .next (s.count Reg.HSK.STAT.STRAY)) ∧
      exec .huskTimeout s = .next s) ∧
    (∀ (t : HuskTx) (w : HuskWait), s.husk = some t → (s.engine t.eng).husk = some w → w.debug = false →
      (∀ data, exec (.hskAck data true) s = .next (faultOut t.eng
        { preciseEvent s t.eng 8 with slot := huskSlot (decodeBundle w.bundle), faddr := s.freeVal 48 }
        { s with husk := none, free := s.free + 1 })) ∧
      (∀ data, w.write = true → exec (.hskAck data false) s = .next (resumeBundle t.eng w.bundle w.vals 0
        { (s.setEng t.eng { s.engine t.eng with husk := some { w with answer := some 0 } }) with husk := none })) ∧
      (∀ data, w.write = false → huskOnward w = none → exec (.hskAck data false) s = .next (resumeBundle t.eng w.bundle w.vals data
        { (s.setEng t.eng { s.engine t.eng with husk := some { w with answer := some data } }) with husk := none })) ∧
      (∀ data port width, huskOnward w = some (port, width) → exec (.hskAck data false) s = .next (sendHusk t.eng
        { w with port := port, write := true, value := widen width data } { s with husk := none })) ∧
      (∃ u : State, exec .huskTimeout s = .next (faultOut t.eng
          { preciseEvent s t.eng 11 with slot := huskSlot (decodeBundle w.bundle), faddr := u.freeVal 48 } u) ∧
        u.eng = s.eng ∧ u.husk = none ∧ u.mem = s.mem ∧ u.out = .huskAbort t.eng :: s.out ∧
        u.get Reg.HSK.LAST.ENG = t.eng ∧ u.get Reg.HSK.LAST.WE = t.write.toNat ∧
        u.get Reg.HSK.LAST.PORT = (t.port - 0x1C0) % 64)) ∧
    (∀ (e : Eng) (level : Bool), Completes (.hskInt e level) s (fun u =>
      (∀ k : Eng, u.hskInt.getLsbD k = if k = e then level else s.hskInt.getLsbD k) ∧ u = { s with hskInt := u.hskInt }))

/-- Scratchpad handovers, the host's semaphore registers, error write-back, and the alias writes (R290, R292, R293, R295,
R297, R298, R316). -/
def Obligations.OwnersSemaphoresAliases : Prop :=
  ∀ (s : State),
    (∀ (i : Eng) (v : BitVec 2), let own := s.get (Reg.SP.OWNER.OWNER i)
      (own = 3 ∨ s.on (Reg.SP.OWNER.PEND i) = true → exec (.spOwnerWrite i v) s = .next (s.raise Reg.MEM.EVT.OWNBUSY)) ∧
      (own ≠ 3 → s.on (Reg.SP.OWNER.PEND i) = false → v = 3 ∨ v.toNat = own → exec (.spOwnerWrite i v) s = .next s) ∧
      (own ≠ 3 → s.on (Reg.SP.OWNER.PEND i) = false → v ≠ 3 → v.toNat ≠ own → Completes (.spOwnerWrite i v) s (fun t =>
        t.get (Reg.SP.OWNER.OWNER i) = v.toNat ∧ t.get (Reg.SP.OWNER.PEND i) = 1 ∧ t.mem = s.mem ∧ t.eng = s.eng ∧
        (∀ j : Eng, j ≠ i → t.get (Reg.SP.OWNER.OWNER j) = s.get (Reg.SP.OWNER.OWNER j)) ∧ ∀ o, t.admits i o = false))) ∧
    (∀ i : Eng, (ownAccess s i = true → exec (.spHandoverDone i) s = .next s) ∧
      (ownAccess s i = false → Completes (.spHandoverDone i) s (fun t =>
        t.get (Reg.SP.OWNER.PEND i) = 0 ∧ t.mem = s.mem ∧ ∀ o, t.admits i o = decide (s.get (Reg.SP.OWNER.OWNER i) = o)))) ∧
    (∀ k : Fin 64,
      (s.on (Reg.SEM.HOLD.HELD k) = true → exec (.semTakeRead k) s = .next { s with ans := ⟨0, 0⟩ }) ∧
      (s.on (Reg.SEM.HOLD.HELD k) = false → Completes (.semTakeRead k) s (fun t => t.ans = ⟨0, 1⟩ ∧
        t.get (Reg.SEM.HOLD.HELD k) = 1 ∧ t.get (Reg.SEM.HOLD.REQ k) = 14 ∧ t.mem = s.mem ∧
        ∀ j : Fin 64, j ≠ k → t.get (Reg.SEM.HOLD.HELD j) = s.get (Reg.SEM.HOLD.HELD j))) ∧
      (s.on (Reg.SEM.HOLD.HELD k) = true → s.get (Reg.SEM.HOLD.REQ k) = 14 →
        exec (.semGiveWrite k) s = .next { s.lower (Reg.SEM.HOLD.HELD k) with ans := ⟨0, 0⟩ }) ∧
      (s.on (Reg.SEM.HOLD.HELD k) = false ∨ s.get (Reg.SEM.HOLD.REQ k) ≠ 14 →
        exec (.semGiveWrite k) s = .next { s.count (Reg.SEM.HOLD.BADGIVE k) with ans := ⟨0, 0⟩ })) ∧
    (∀ m : BitVec 64, Completes (.semForce m) s (fun t => t.mem = s.mem ∧ t.eng = s.eng ∧ ∀ k : Fin 64,
      t.get (Reg.SEM.HOLD.HELD k) = (if m.getLsbD k then 0 else s.get (Reg.SEM.HOLD.HELD k)) ∧
      (m.getLsbD k = true → s.on (Reg.SEM.HOLD.HELD k) = true → t.get (Reg.SEM.HOLD.FORCED k) = 1) ∧
      (m.getLsbD k = false ∨ s.on (Reg.SEM.HOLD.HELD k) = false →
        t.get (Reg.SEM.HOLD.FORCED k) = s.get (Reg.SEM.HOLD.FORCED k)))) ∧
    (∀ k, exec (.eccWriteback k) s = .next { s with ecc := s.ecc.filter (fun e => e.2 || e.1 != k) }) ∧
    (∀ (req : Fin 21) (a : BitVec 27) (bs : List Byte), 1 ≤ bs.length → a.toNat / 16 = (a.toNat + bs.length - 1) / 16 →
      (0x400000 ≤ a.toNat ∧ a.toNat < 0x600000) ∨ (0x1000000 ≤ a.toNat ∧ a.toNat < 0x1400000) →
      s.up (memDom a.toNat) = true → s.unmapped a.toNat = false → s.ecc = [] →
      let same (t : State) : Prop := (∀ b, b < a.toNat ∨ a.toNat + bs.length ≤ b → t.byte b = s.byte b) ∧ t.cells = s.cells
      Completes (.setAliasWrite req a bs) s (fun t => same t ∧
        ∀ i, i < bs.length → t.byte (a.toNat + i) = s.byte (a.toNat + i) ||| bs.getD i 0) ∧
      Completes (.clearAliasWrite req a bs) s (fun t => same t ∧
        ∀ i, i < bs.length → t.byte (a.toNat + i) = s.byte (a.toNat + i) &&& ~~~ (bs.getD i 0)))

/-- The memory tester (R303-R313): start of a granary test, end of its copy with the swap, end of its march, and scratchpad
loans. That no bank reads as the spare from the swap to the release is the model's choice (log entry 24); that an untested spare is
marched first, that an offer is dropped when the scratchpad is no longer the engine's, and that a restart is held until the loan ends are
its readings (log entry 45). -/
def Obligations.MemoryTester : Prop :=
  ∀ (s : State),
    let pol := s.get Reg.MEMT.CTRL.POLICY
    let spare := s.get Reg.MEMT.SPARE.PBANK
    let l := s.get Reg.MEMT.STAT.NEXT % 16
    let stopped (e : Eng) : Prop := s.engRuns e = false ∨ (s.bit Reg.PWR.EIDLE.ENG e.val = true ∧ s.midBundle e = false)
    (s.mode 0 ≠ 0 ∨ s.tester.test.isSome = true ∨ spare = 0x1F ∨ (pol ≠ 1 ∧ (pol ≠ 2 ∨ s.tester.queued = false)) ∨
      s.hasRequest 8 = true → exec .granaryTestStart s = .next s) ∧
    (s.mode 0 = 0 → s.tester.test = none → spare ≠ 0x1F → pol = 1 ∨ (pol = 2 ∧ s.tester.queued = true) →
      s.hasRequest 8 = false → 18 ≤ s.get Reg.PERMIT.BUDGET.MW → Completes .granaryTestStart s (fun t =>
        t.tester.test = some l ∧ t.tester.queued = false ∧ t.get Reg.MEMT.STAT.LBANK = l ∧
        t.get Reg.MEMT.STAT.NEXT = (l + 1) % 16 ∧ t.mem = s.mem ∧
        t.get Reg.MEMT.STAT.PHASE = s.get Reg.MEMT.STAT.PHASE ∧ t.permit.granted = s.permit.granted ∧
        (s.on Reg.MEMT.SPARE.UNTESTED = false → t.tester.phys = s.get (Reg.MEMT.MAP.PB l) ∧
          t.permit.queue = s.permit.queue ++ [(8, 12)]) ∧
        (s.on Reg.MEMT.SPARE.UNTESTED = true → t.tester.phys = spare ∧
          t.permit.queue = s.permit.queue ++ [(8, 18)]))) ∧
    (∀ rest c, s.mode 0 = 0 → s.tester.test.isSome = true → s.permit.queue = (8, c) :: rest → c = 12 ∨ c = 18 →
      (s.permit.granted.map (·.2)).sum + c ≤ s.get Reg.PERMIT.BUDGET.MW → Completes .permitGrant s (fun t =>
        t.get Reg.MEMT.STAT.PHASE = (if c = 12 then 1 else 3) ∧ t.permit.granted = s.permit.granted ++ [(8, c)] ∧
        t.permit.queue = rest ∧ t.tester = s.tester ∧ t.mem = s.mem)) ∧
    (∀ k : Nat, s.tester.test = some k → k < 16 → s.get Reg.MEMT.STAT.PHASE = 1 → testPermit s 0 = true → s.ecc = [] →
      18 ≤ s.get Reg.PERMIT.BUDGET.MW → spare < 0x20 → Completes .granaryCopyDone s (fun t =>
        t.get (Reg.MEMT.MAP.PB k) = spare ∧ t.tester.phys = s.get (Reg.MEMT.MAP.PB k) ∧ t.get Reg.MEMT.STAT.PHASE = 2 ∧
        t.get Reg.MEMT.SPARE.PBANK = 0x1F ∧ t.holds 8 = false ∧ (8, 18) ∈ t.permit.queue ∧ t.mem = s.mem ∧
        ∀ j < 16, j ≠ k → t.get (Reg.MEMT.MAP.PB j) = s.get (Reg.MEMT.MAP.PB j))) ∧
    (∀ k : Nat, s.tester.test = some k → s.get Reg.MEMT.STAT.PHASE = 3 → testPermit s 1 = true → s.tester.phys ≤ 16 →
      (∀ row : BitVec 15, Completes (.granaryMarchDone (some row)) s (fun t =>
        t.bit Reg.MEMT.BAD.BAD s.tester.phys = true ∧ t.get Reg.MEMT.FAILROW.ROW = row.toNat ∧
        t.get Reg.MEMT.FAILROW.PBANK = s.tester.phys ∧ t.get Reg.MEMT.EVT.BANKFAIL = 1 ∧ t.get Reg.MEMT.SPARE.PBANK = 0x1F ∧
        t.get Reg.MEMT.SPARE.UNTESTED = 0 ∧ t.get Reg.MEMT.STAT.PHASE = 0 ∧ t.tester.test = none ∧ t.holds 8 = false ∧
        t.mem = s.mem)) ∧
      (s.tester.pre = false → Completes (.granaryMarchDone none) s (fun t =>
        t.get Reg.MEMT.SPARE.PBANK = s.tester.phys ∧ t.get Reg.MEMT.EVT.DONE = 1 ∧
        t.get Reg.MEMT.PASS.CNT = (s.get Reg.MEMT.PASS.CNT + 1) % 2 ^ 32 ∧ t.get Reg.MEMT.STAT.PHASE = 0 ∧
        t.tester.test = none ∧ t.holds 8 = false ∧ t.mem = s.mem)) ∧
      (s.tester.pre = true → 12 ≤ s.get Reg.PERMIT.BUDGET.MW → Completes (.granaryMarchDone none) s (fun t =>
        t.get Reg.MEMT.SPARE.UNTESTED = 0 ∧ t.get Reg.MEMT.STAT.PHASE = 0 ∧ t.tester.test = some k ∧
        t.tester.pre = false ∧ t.holds 8 = false ∧ (8, 12) ∈ t.permit.queue ∧ t.mem = s.mem))) ∧
    (pol ≠ 2 ∨ s.tester.queued = true → exec .memtGran s = .next (s.raise Reg.MEMT.EVT.CMDIGN)) ∧
    (pol = 2 → s.tester.queued = false → spare ≠ 0x1F ∨ s.tester.test.isSome = true →
      exec .memtGran s = .next { s with tester := { s.tester with queued := true } }) ∧
    (∀ i : BitVec 4,
      (pol ≠ 2 ∨ 13 < i.toNat → exec (.memtSp i) s = .next (s.raise Reg.MEMT.EVT.CMDIGN)) ∧
      (pol = 2 → i.toNat ≤ 13 → s.on Reg.MEMT.STAT.LOAN = true ∨ s.tester.offer.isSome = true →
        exec (.memtSp i) s = .next (if s.tester.next.isSome then s.raise Reg.MEMT.EVT.CMDIGN
          else { s with tester := { s.tester with next := some i.toNat } })) ∧
      (pol = 2 → i.toNat ≤ 13 → s.on Reg.MEMT.STAT.LOAN = false → s.tester.offer = none →
        ¬ stopped (engOf i.toNat) ∨ s.admits i.toNat 0 = false →
        exec (.memtSp i) s = .next s) ∧
      (pol = 2 → i.toNat ≤ 13 → s.on Reg.MEMT.STAT.LOAN = false → s.tester.offer = none →
        stopped (engOf i.toNat) → s.admits i.toNat 0 = true →
        Completes (.memtSp i) s (fun t => t.tester = { s.tester with offer := some i.toNat, turn := i.toNat, offered := true } ∧
          (s.hasRequest 8 = true → t.permit = s.permit) ∧
          (s.hasRequest 8 = false → 10 ≤ s.get Reg.PERMIT.BUDGET.MW → t.permit.queue = s.permit.queue ++ [(8, 10)]) ∧
          t.mem = s.mem))) ∧
    (s.on Reg.MEMT.STAT.LOAN = true → exec .scratchpadLoan s = .next s) ∧
    (∀ i : Nat, s.on Reg.MEMT.STAT.LOAN = false → s.tester.offer = none → pol = 1 → s.tester.offered = false →
      nextOffer s = some i → Completes .scratchpadLoan s (fun t => t.tester.offer = some i ∧ t.tester.turn = i ∧
        t.tester.offered = true ∧ t.mem = s.mem)) ∧
    (∀ i : Nat, nextOffer s = some i → i < 14 ∧ s.admits i 0 = true ∧
      stopped (engOf i) ∧ ∃ k, 1 ≤ k ∧ k ≤ 14 ∧
        i = (s.tester.turn + k) % 14 ∧ ∀ j, 1 ≤ j → j < k → lendable s ((s.tester.turn + j) % 14) = false) ∧
    (∀ i : Nat, s.on Reg.MEMT.STAT.LOAN = false → s.tester.offer = some i → s.tester.next = none →
      ¬ stopped (engOf i) ∨ s.admits i 0 = false →
      Completes .scratchpadLoan s (fun t => t.tester.offer = none ∧ testPermit t 2 = false ∧ t.cells = s.cells ∧
        t.mem = s.mem)) ∧
    (∀ i : Nat, s.on Reg.MEMT.STAT.LOAN = false → s.tester.offer = some i → i < 14 →
      stopped (engOf i) → s.admits i 0 = true → testPermit s 2 = true → Completes .scratchpadLoan s (fun t =>
        t.get (Reg.SP.OWNER.OWNER i) = 3 ∧ t.get Reg.MEMT.STAT.LOAN = 1 ∧ t.get Reg.MEMT.STAT.LENG = i ∧
        t.tester.offer = none ∧ t.permit = s.permit ∧ t.mem = s.mem)) ∧
    (s.on Reg.MEMT.STAT.LOAN = false → ∀ bad, exec (.loanEnd bad) s = .next s) ∧
    (s.on Reg.MEMT.STAT.LOAN = true → s.get Reg.MEMT.STAT.LENG < 14 → s.tester.next = none → ∀ bad,
      Completes (.loanEnd bad) s (fun t =>
        t.get (Reg.SP.OWNER.OWNER (s.get Reg.MEMT.STAT.LENG)) = 0 ∧ t.get Reg.MEMT.STAT.LOAN = 0 ∧
        testPermit t 2 = false ∧ t.get Reg.MEMT.SPRES.ABORT = 0 ∧ t.tester.restart = none ∧
        (bad = false → t.mem = s.mem ∧ t.ecc = s.ecc ∧ t.free = s.free) ∧
        (bad = true → t.get Reg.MEMT.EVT.SPFAIL = 1 ∧ t.get Reg.MEMT.SPRES.ENG = s.get Reg.MEMT.STAT.LENG ∧
          t.free = s.free + 3 ∧ ∀ a, a < 0x600000 + 0x20000 * s.get Reg.MEMT.STAT.LENG ∨
            0x600000 + 0x20000 * (s.get Reg.MEMT.STAT.LENG + 1) ≤ a → t.byte a = s.byte a) ∧
        (∀ a, s.tester.restart = some a → t.pc (engOf (s.get Reg.MEMT.STAT.LENG)) = a ∧
          t.engRuns (engOf (s.get Reg.MEMT.STAT.LENG)) = true) ∧
        (s.tester.restart = none → t.eng = s.eng)))

/-- The permit unit and the budget (R402-R404). Requests that can never fit are set aside, the queue is served from its head
only, a release frees the cost, and a new budget moves requests between the queue and the set-aside list. -/
def Obligations.PermitUnit : Prop :=
  ∀ (s : State),
    let b := s.get Reg.PERMIT.BUDGET.MW
    (∀ (r : Fin 13) op, s.hasRequest r = true → exec (.permitRequest r op) s = .next s) ∧
    (∀ (r : Fin 13) op, s.hasRequest r = false → permitCost r op ≤ b →
      exec (.permitRequest r op) s = .next { s with permit := { s.permit with queue := s.permit.queue ++ [(r.val, permitCost r op)] } }) ∧
    (∀ (r : Fin 13) op, s.hasRequest r = false → b < permitCost r op → Completes (.permitRequest r op) s (fun t =>
      t.permit = { s.permit with aside := s.permit.aside ++ [(r.val, permitCost r op)] } ∧ t.get Reg.PWR.EVT.STUCK = 1 ∧
      t.mem = s.mem ∧ t.eng = s.eng)) ∧
    (∀ e rest, s.permit.queue = e :: rest → (s.permit.granted.map (·.2)).sum + e.2 ≤ b →
      let t := { s with permit := { s.permit with granted := s.permit.granted ++ [e], queue := rest } }
      exec .permitGrant s = .next (if s.mode 0 = 0 ∧ s.tester.test.isSome = true ∧ e.1 = 8 ∧ (e.2 = 12 ∨ e.2 = 18) then
        t.put Reg.MEMT.STAT.PHASE (if e.2 = 12 then 1 else 3) else t)) ∧
    (s.permit.queue = [] ∨ (∃ e rest, s.permit.queue = e :: rest ∧ b < (s.permit.granted.map (·.2)).sum + e.2) →
      exec .permitGrant s = .next s) ∧
    (∀ r : Fin 13, exec (.permitRelease r) s =
      .next { s with permit := { s.permit with granted := s.permit.granted.filter (fun e => e.1 != r.val) } }) ∧
    Completes .budgetChange s (fun t =>
      let c := 1500 - min (s.get Reg.PWR.CAP.RED) 500 - (if s.on Reg.TU.CTRL.FINE then 1418 else 1373)
      t.get Reg.PERMIT.BUDGET.MW = c ∧ t.permit.granted = s.permit.granted ∧ t.mem = s.mem ∧ t.eng = s.eng ∧
      t.permit.queue = s.permit.queue.filter (fun e => decide (e.2 ≤ c)) ++ s.permit.aside.filter (fun e => decide (e.2 ≤ c)) ∧
      (∀ e, e ∈ t.permit.aside ↔ (e ∈ s.permit.queue ∨ e ∈ s.permit.aside) ∧ c < e.2) ∧
      ((∃ e ∈ s.permit.queue, c < e.2) → t.get Reg.PWR.EVT.STUCK = 1)) ∧
    (∀ r op, permitCost r op = if r < 8 then 16 else if r = 8 then (if op = 0 then 12 else if op = 1 then 18 else 10)
      else if r = 9 then 8 else if r = 10 then 40 else if r = 11 then 30 else 24)

/-- The TLB ports of an engine (R253, R320, R321, R323): G62 and G63 give the address and the entry; a refused request
returns all ones and clears SDSEEN; a write removes what overlaps and, with V, enters the entry; the
invalidations remove the entries that cover G62, or all. A probe changes nothing but entries that it meets with a parity error, which it
invalidates and counts: that reading of R300 is log entry 72. A port acts only while its engine issues (R452). -/
def Obligations.TlbRequests : Prop :=
  ∀ (s : State) (e : Eng) (d : Fin 64),
    let x := s.engine e
    let into (t : State) (w : Word) : State := t.setEng e { t.engine e with g := (t.engine e).g.set d w }
    let va := x.g[62].toNat
    let ent := requestEntry va x.g[63].toNat
    let bad (k : Nat × TlbEntry) : Bool := k.2.bad && k.2.covers va
    let flat : TlbEntry := { ent with share := 0 }
    let second := s.l2Of e
    let covers (t : Tlb) : Nat := (t.ents.filter (fun k => k.2.covers va)).length
    let without (t : Tlb) : Tlb := { t with ents := t.ents.filter (fun k => !k.2.covers va) }
    (s.issues e = false → ∀ i ∈ [Instr.tlbWi e d, .tlbWd e d, .tlbW2 e d, .tlbProbe e d, .tlbInvva e d, .tlbInvall e d, .tlbInv2 e d,
      .tlbInv2all e d], exec i s = .next s) ∧
    (s.issues e = true →
    (requestRefused s e ent = true → ∀ i ∈ [Instr.tlbWi e d, .tlbWd e d, .tlbW2 e d],
      exec i s = .next (into (s.lower (Reg.XL.E.STAT.SDSEEN e)) (BitVec.allOnes 48))) ∧
    (requestRefused s e ent = false → x.g[62].getLsbD 0 = true →
      (∃ k t, Tlb.install false flat x.xl.dtlb = (t, k) ∧
        exec (.tlbWd e d) s = .next (into (s.setEng e { x with xl := { x.xl with dtlb := t } }) (BitVec.ofNat 48 k))) ∧
      (∃ k t, Tlb.install false flat x.xl.itlb = (t, k) ∧ Completes (.tlbWi e d) s (fun u =>
        (u.engine e).xl.itlb = t ∧ (u.engine e).xl.dtlb = x.xl.dtlb ∧ (u.engine e).g = x.g.set d (BitVec.ofNat 48 k) ∧
        u.mem = s.mem ∧ u.cells = s.cells)) ∧
      (∃ k t, Tlb.install true (if e.val < 2 then { ent with share := ent.share &&& 3 } else ent) second = (t, k) ∧
        exec (.tlbW2 e d) s = .next (into (s.setL2 (engCluster e) t) (BitVec.ofNat 48 k)))) ∧
    (requestRefused s e ent = false → x.g[62].getLsbD 0 = false →
      exec (.tlbWd e d) s = .next (into
        (s.setEng e { x with xl := { x.xl with dtlb := { x.xl.dtlb with
          ents := x.xl.dtlb.ents.filter (fun k => !flat.overlaps k.2) } } })
        (BitVec.ofNat 48 (x.xl.dtlb.ents.filter (fun k => flat.overlaps k.2)).length)) ∧
      Completes (.tlbWi e d) s (fun u => (u.engine e).xl.dtlb = x.xl.dtlb ∧ u.mem = s.mem ∧ u.cells = s.cells ∧
        (u.engine e).xl.itlb = { x.xl.itlb with ents := x.xl.itlb.ents.filter (fun k => !flat.overlaps k.2) } ∧
        (u.engine e).g = x.g.set d (BitVec.ofNat 48 (x.xl.itlb.ents.filter (fun k => flat.overlaps k.2)).length)) ∧
      (let two := if e.val < 2 then { ent with share := ent.share &&& 3 } else ent
       let clash (k : Nat × TlbEntry) : Bool := two.overlaps k.2 && two.share &&& k.2.share != 0
       exec (.tlbW2 e d) s = .next (into (s.setL2 (engCluster e) { second with ents := second.ents.filter (fun k => !clash k) })
         (BitVec.ofNat 48 (second.ents.filter clash).length)))) ∧
    (Completes (.tlbProbe e d) s (fun u => (u.engine e).xl.dtlb.ents = x.xl.dtlb.ents.filter (fun k => !bad k) ∧
        (u.engine e).xl.itlb = x.xl.itlb ∧ u.mem = s.mem ∧
        (x.xl.dtlb.ents.any bad = true → (s.l2Of e).ents.any bad = false → s.get Reg.MEM.PARCNT.CNT < 65535 →
          s.get Reg.MEM.PARCNT.CNT < u.get Reg.MEM.PARCNT.CNT)) ∧
      (x.xl.dtlb.ents.any bad = false → second.ents.any bad = false → ∃ w, exec (.tlbProbe e d) s = .next (into s w) ∧
      ((x.xl.dtlb.find va none).isNone = true → (second.find va (some (localEng e))).isNone = true → w = 0) ∧
      (∀ y, x.xl.dtlb.find va none = some y → y.size < 32 → y.ppn < 2 ^ 28 → w.getLsbD 0 = true ∧ w.getLsbD 1 = false ∧ w.getLsbD 2 = y.r ∧
        w.getLsbD 3 = y.w ∧ w.getLsbD 4 = y.x ∧ w.toNat / 2 ^ 8 % 2 ^ 5 = y.size ∧ w.toNat / 2 ^ 16 % 2 ^ 28 = y.ppn) ∧
      (∀ y, x.xl.dtlb.find va none = none → second.find va (some (localEng e)) = some y → y.size < 32 → y.ppn < 2 ^ 28 →
        w.getLsbD 0 = true ∧ w.getLsbD 1 = true ∧ w.getLsbD 2 = y.r ∧ w.getLsbD 3 = y.w ∧ w.getLsbD 4 = y.x ∧
        w.toNat / 2 ^ 8 % 2 ^ 5 = y.size ∧ w.toNat / 2 ^ 13 % 2 ^ 3 = y.share.toNat ∧ w.toNat / 2 ^ 16 % 2 ^ 28 = y.ppn))) ∧
    Completes (.tlbInvva e d) s (fun u =>
      (u.engine e).xl.itlb = without x.xl.itlb ∧ (u.engine e).xl.dtlb = without x.xl.dtlb ∧
      (u.engine e).g = x.g.set d (BitVec.ofNat 48 (covers x.xl.itlb + covers x.xl.dtlb)) ∧ u.l2 = s.l2 ∧ u.mem = s.mem) ∧
    Completes (.tlbInvall e d) s (fun u =>
      (u.engine e).xl.itlb.ents = [] ∧ (u.engine e).xl.dtlb.ents = [] ∧ (u.engine e).g = x.g.set d 0 ∧ u.l2 = s.l2 ∧ u.mem = s.mem) ∧
    exec (.tlbInv2 e d) s = .next (into (s.setL2 (engCluster e) (without second)) (BitVec.ofNat 48 (covers second))) ∧
    exec (.tlbInv2all e d) s = .next (into (s.setL2 (engCluster e) { second with ents := [] }) 0))

/-- The walker and the instruction cache's fills (R242, R320, R322, R326-R328). A walk starts at the level-1 table, reads one
descriptor at a time and stops with the reason of what it meets, or installs the leaf in both TLBs. The order of the descriptor checks is the model's reading (log
entry 33); so is that no answer comes to a read which still waits for its credit (log entry 51). -/
def Obligations.TableWalks : Prop :=
  ∀ (s : State) (e : Eng),
    let x := s.engine e
    let stops (w : Walk) (inf : Nat) (t : State) : Prop :=
      (t.engine e).xl.walk = none ∧ (t.engine e).xl.walkFault = some (w.va, inf) ∧ (t.engine e).xl.dtlb = x.xl.dtlb ∧
      (t.engine e).xl.itlb = x.xl.itlb ∧ t.l2 = s.l2 ∧ t.mem = s.mem
    let read (addr : Nat) : Out := .master (e + 64) true false addr 8 false []
    let moves (w : Walk) (level addr : Nat) (then' : State → State) (t : State) : Prop :=
      let u := s.setEng e { x with xl := { x.xl with walk := some { w with at' := some (level, addr) } } }
      if isDevice s addr = true then stops w (missInfo s e w.acc 4 level 1) t
      else t = then' (if isExternal addr = true then u.emit (read addr) else u)
    (∀ a, s.mlQueue = [] → s.slQueue = [] → s.credits.cmd ≠ 0 → s.up 0 = true →
      ({ s with mlQueue := [read a] } : State).masterRoom false ≠ 0 →
      s.emit (read a) = { s with out := read a :: s.out, credits := { s.credits with cmd := s.credits.cmd - 1 } }) ∧
    (x.xl.walk = none → exec (.tableWalk e) s = .next s ∧ ∀ d err, exec (.walkReadDone e d err) s = .next s) ∧
    (∀ w, x.xl.walk = some w → w.at' = none → Completes (.tableWalk e) s (moves w 1
      ((s.get (Reg.XL.E.ROOT_L.PA e) + 2 ^ 20 * s.get (Reg.XL.E.ROOT_H.PA e)) * 4096 + 8 * (w.va / 2 ^ 30 % 512)) id)) ∧
    (∀ w level addr (d : BitVec 64), x.xl.walk = some w → w.at' = some (level, addr) → isExternal addr = true →
      s.unsent (e + 64) false = true → ∀ err, exec (.walkReadDone e d err) s = .next s) ∧
    (∀ w level addr (d : BitVec 64), x.xl.walk = some w → w.at' = some (level, addr) → isExternal addr = true →
      s.unsent (e + 64) false = false → 1 ≤ level → level ≤ 3 →
      let leaf : Prop := level = 3 ∨ d.getLsbD 1 = true
      let bad : Prop := d.toNat / 2 ^ 8 % 2 ^ 4 ≠ 0 ∨ d.toNat / 2 ^ 40 ≠ 0
      let pages := 2 ^ (9 * (3 - level))
      Completes (.walkReadDone e d true) s (stops w (missInfo s e w.acc 4 level 2)) ∧
      (bad → Completes (.walkReadDone e d false) s (stops w (missInfo s e w.acc 4 level 4))) ∧
      (¬ bad → d.getLsbD 0 = false → Completes (.walkReadDone e d false) s (stops w (missInfo s e w.acc 0 0 0))) ∧
      (¬ bad → d.getLsbD 0 = true → leaf → d.toNat / 2 ^ 12 % pages ≠ 0 →
        Completes (.walkReadDone e d false) s (stops w (missInfo s e w.acc 4 level 5))) ∧
      (¬ bad → d.getLsbD 0 = true → ¬ leaf → Completes (.walkReadDone e d false) s (moves w (level + 1)
        (d.toNat / 2 ^ 12 % 2 ^ 28 * 4096 + 8 * (w.va / 2 ^ (39 - 9 * level - 9) % 512)) State.sendPorts)) ∧
      (¬ bad → d.getLsbD 0 = true → leaf → d.toNat / 2 ^ 12 % pages = 0 →
        Completes (.walkReadDone e d false) s (fun t =>
          (t.engine e).xl.walk = none ∧ t.mem = s.mem ∧
          ∃ ent : TlbEntry, ent.vpn = w.va / 4096 / pages * pages ∧ ent.size = 9 * (3 - level) ∧
            ent.ppn = d.toNat / 2 ^ 12 % 2 ^ 28 ∧ ent.r = d.getLsbD 2 ∧ ent.w = d.getLsbD 3 ∧ ent.x = d.getLsbD 4 ∧
            ent.ae = d.getLsbD 5 ∧ ent.a = (d.getLsbD 6 || d.getLsbD 5) ∧
            ent.d = (d.getLsbD 7 || d.getLsbD 5 && decide (w.acc = .write)) ∧ ent.share = BitVec.ofNat 3 (2 ^ localEng e) ∧
            ent.bad = false ∧
            t.l2 = (s.setL2 (engCluster e) ((s.l2Of e).install true ent).1).l2 ∧
            (t.engine e).xl.l1 w.acc = ((x.xl.l1 w.acc).install false { ent with share := 0 }).1))) ∧
    (∀ l pa data err evict, fetchNow e (s.pc e).toNat s = (.busy (some l), s) →
      translate e (if l = (s.pc e).toNat / 64 then (s.pc e).toNat else 64 * l) .fetch s = (.ok pa false, s) →
      isExternal pa = true → s.readsNow = true → lookup l x.xl.lines = none →
      x.xl.lines.length < 512 →
      Completes (.icacheFill e 0 data err evict) s (fun t => t.mem = s.mem ∧ t.cells = s.cells ∧
        (err = true → (t.engine e).xl.lineErr = some l ∧ (t.engine e).xl.lines = x.xl.lines) ∧
        (err = false → ∀ k, lookup k (t.engine e).xl.lines =
          if k = l then some ((data ++ List.replicate 64 0).take 64) else lookup k x.xl.lines)))

/-- The shootdown unit (R333-R335): GO while busy is refused; otherwise every named engine's TLBs and every named second-level
TLB lose the entries that cover SD.VA, or all, whatever their SHARE, IC empties the named caches, a walk starts again,
SDSEEN is set, and BUSY stands until the named engines' earlier accesses have completed. -/
def Obligations.Shootdowns : Prop :=
  ∀ (s : State) (eng : BitVec 14) (l2 : BitVec 5) (all ic : Bool),
    let va := s.get Reg.SD.VA_L.VA * 4096 + s.get Reg.SD.VA_H.VA * 2 ^ 32
    let gone (a b : Tlb) : Prop := b.ents = if all then [] else a.ents.filter (fun k => !k.2.covers va)
    (s.on Reg.SD.STAT.BUSY = true → Completes (.shootdownGo eng l2 all ic) s (fun t =>
      t.get Reg.SD.STAT.REFUSED = 1 ∧ t.eng = s.eng ∧ t.l2 = s.l2 ∧ t.sd = s.sd ∧ t.mem = s.mem)) ∧
    (s.on Reg.SD.STAT.BUSY = false → Completes (.shootdownGo eng l2 all ic) s (fun t =>
      t.get Reg.SD.STAT.BUSY = 1 ∧ t.mem = s.mem ∧
      t.sd = ((List.finRange 14).filter (fun e : Eng => eng.getLsbD e)).map (fun e => (e.val, (s.engine e).seqn)) ∧
      (∀ e : Eng, let x := (s.engine e).xl
        let y := (t.engine e).xl
        if eng.getLsbD e = true then
          gone x.itlb y.itlb ∧ gone x.dtlb y.dtlb ∧ y.lines = (if ic then [] else x.lines) ∧
          y.walk = x.walk.map (fun w => { w with at' := none }) ∧ t.get (Reg.XL.E.STAT.SDSEEN e) = 1
        else if l2.getLsbD (engCluster e) = true then
          y = { x with walk := x.walk.map (fun w => { w with at' := none }) } ∧ t.get (Reg.XL.E.STAT.SDSEEN e) = 1
        else y = x ∧ t.get (Reg.XL.E.STAT.SDSEEN e) = s.get (Reg.XL.E.STAT.SDSEEN e)) ∧
      (∀ n : Fin 5, if l2.getLsbD n = true then gone s.l2[n] t.l2[n] else t.l2[n] = s.l2[n]))) ∧
    (s.on Reg.SD.STAT.BUSY = true → (∀ m ∈ s.sd, s.up (engDom m.1) = false ∨ engBusy s (engOf m.1) m.2 = false) →
      Completes .shootdownDone s (fun t => t.get Reg.SD.STAT.BUSY = 0 ∧ t.sd = [] ∧ t.eng = s.eng ∧ t.l2 = s.l2 ∧ t.mem = s.mem ∧
        t.get Reg.SD.STAT.COUNT = (s.get Reg.SD.STAT.COUNT + 1) % 2 ^ Reg.SD.STAT.COUNT.w)) ∧
    (s.on Reg.SD.STAT.BUSY = false ∨ (∃ m ∈ s.sd, s.up (engDom m.1) = true ∧ engBusy s (engOf m.1) m.2 = true) →
      exec .shootdownDone s = .next s)

/-- The command ring of a mailbox channel (R341, R342, R347-R352, R355, R358, R360): the checks of a command in their order,
what its consumption, an ABORT and a reply do, the crossing timer and the polling of counters. The limit of tags and the order
of replies are those of the rules. That an ABORT of a waiting ABORT joins it, and the mailboxes' layout, are log entry 61; when events
are gathered, muted and lost is log entry 60; that the mask is asked when an event is posted is log entry 74: the model's readings. -/
def Obligations.HostRing : Prop :=
  ∀ (s : State) (c : Fin 4),
    let b := s.bytes (0x10000 + 0x4000 * c.val) 1024
    let op := fieldLE b 0 2
    let tag : BitVec 16 := BitVec.ofNat 16 (fieldLE b 2 2)
    let len := fieldLE b 4 2
    let params := (b.drop 16).take len
    let noReply := (b.getD 6 0).getLsbD 0
    let due : Prop := serviceRuns s c = true ∧ s.bit (Reg.DB.BB.BITS c) 0 = true
    let out := outstanding (s.chan c)
    let sane : Prop := len ≤ 1008 ∧ (b.getD 6 0).toNat < 2 ∧ ∀ i, 7 ≤ i → i < 16 → b.getD i 0 = 0
    let clears : Prop := op = 0x0A01 ∧ len = 3 ∧ fieldLE params 2 1 = 1
    let reply (status detail : Nat) : Reply := ⟨packet op tag.toNat 0x8000 status detail [], tag⟩
    let refused (t : State) (status detail : Nat) : Prop := (t.chan c).replies = (s.chan c).replies ++ [reply status detail] ∧
      (t.chan c).cmds = (s.chan c).cmds
    let taken (t : State) : Prop := t.bit (Reg.DB.BB.BITS c) 0 = false ∧ t.bit (Reg.DB.HB.BITS c) 2 = true ∧ t.mem = s.mem ∧
      t.eng = s.eng ∧ (∀ k : Fin 4, k ≠ c → t.chan k = s.chan k)
    (¬ due → exec (.commandConsume c) s = .next s ∧ exec (.abort c) s = .next s) ∧
    (due → Completes (.commandConsume c) s (fun t =>
      t.bit (Reg.DB.BB.BITS c) 0 = false ∧ t.bit (Reg.DB.HB.BITS c) 2 = true ∧
      (1008 < len → refused t 0x0101 0) ∧
      (len ≤ 1008 → 2 ≤ (b.getD 6 0).toNat → refused t 0x0102 6) ∧
      (∀ i, len ≤ 1008 → (b.getD 6 0).toNat < 2 → 7 ≤ i → i < 16 → b.getD i 0 ≠ 0 → (∀ j, 7 ≤ j → j < i → b.getD j 0 = 0) →
        refused t 0x0102 i) ∧
      (sane → opDefined op = false → refused t 0x0100 0) ∧
      (sane → opDefined op = true → 2 ≤ c.val → nsAllowed op = false ∨ clears → refused t 0x0103 0) ∧
      (sane → opDefined op = true → c.val < 2 ∨ (nsAllowed op = true ∧ ¬ clears) → lenGood op params = false →
        refused t 0x0101 0) ∧
      (sane → opDefined op = true → c.val < 2 ∨ (nsAllowed op = true ∧ ¬ clears) → lenGood op params = true → op ≠ 0x0102 →
        (out.contains tag = true → refused t 0x0108 0) ∧
        (out.contains tag = false → 8 ≤ out.length → refused t 0x0104 0) ∧
        (∀ o, out.contains tag = false → out.length < 8 → badParam op params = some o → refused t 0x0102 o) ∧
        (out.contains tag = false → out.length < 8 → badParam op params = none → taken t ∧
          (t.chan c).replies = (s.chan c).replies ∧ (t.chan c).cmds = (s.chan c).cmds ++
            [{ tag := tag, op := BitVec.ofNat 16 op, params := params, noReply := noReply, started := false, committed := false,
               aborters := [] }])))) ∧
    (due → op ≠ 0x0102 → exec (.abort c) s = .next s) ∧
    (due → op = 0x0102 → sane → len = 2 → c.val < 2 ∨ nsAllowed 0x0102 = true → Completes (.abort c) s (fun t => taken t ∧
      (let target : BitVec 16 := BitVec.ofNat 16 (fieldLE params 0 2)
       let own (status detail : Nat) : List Reply := if noReply ∧ status = 0 then [] else [reply status detail]
       (∀ m, (s.chan c).cmds.find? (fun x => x.tag == target) = some m → isCommitted m = false → m.started = false →
         (t.chan c).cmds = (s.chan c).cmds.filter (fun x => x.tag != target) ∧
         (t.chan c).replies = (s.chan c).replies ++ [⟨packet m.op.toNat target.toNat 0x8000 2 0 [], target⟩] ++ own 0 2) ∧
       (∀ m, (s.chan c).cmds.find? (fun x => x.tag == target) = some m → isCommitted m = true →
         (t.chan c).replies = (s.chan c).replies ∧ (t.chan c).cmds = (s.chan c).cmds.map (fun x =>
           if x.tag = target then { x with aborters := x.aborters ++ [⟨tag, noReply, false⟩] } else x)) ∧
       (∀ m, (s.chan c).cmds.find? (fun x => x.tag == target) = none → abortedBy (s.chan c) target = some m →
         (t.chan c).replies = (s.chan c).replies ∧ (t.chan c).cmds = (s.chan c).cmds.map (fun x =>
           if x.tag = m.tag then { x with aborters := joinBehind target ⟨tag, noReply, false⟩ x.aborters } else x)) ∧
       (∀ pre r post, (s.chan c).cmds.find? (fun x => x.tag == target) = none → abortedBy (s.chan c) target = none →
         (s.chan c).due = pre ++ .reply r :: post → r.tag = target → (∀ q, Post.reply q ∈ pre → q.tag ≠ target) →
         (t.chan c).due = pre ++ .reply (lateReply r) :: ((if noReply then [] else [Post.reply (reply 0 1)]) ++ post) ∧
           (t.chan c).cmds = (s.chan c).cmds) ∧
       ((s.chan c).cmds.find? (fun x => x.tag == target) = none → abortedBy (s.chan c) target = none → (s.chan c).replies.any (fun r => r.tag == target) = false →
         (t.chan c).replies = (s.chan c).replies ++ [reply 0x0106 0] ∧ (t.chan c).cmds = (s.chan c).cmds)))) ∧
    (let full : Prop := s.bit (Reg.DB.BB.BITS c) 0 = true ∧ s.bit (Reg.DB.HB.BITS c) 1 = true ∧
       (∃ us, (s.chan c).crossUs = some us ∧ us ≠ 0) ∧ (s.chan c).crossed = false
     (¬ full → exec (.crossing c) s = .next s) ∧
     (full → Completes (.crossing c) s (fun t => t.get (Reg.MB.STAT.CROSS c) = 1 ∧ t.bit (Reg.DB.BB.BITS c) 31 = true ∧
       t.bit (Reg.DB.HB.BITS c) 31 = true ∧ (t.chan c).crossed = true ∧ (t.chan c).cmds = (s.chan c).cmds ∧ t.mem = s.mem ∧
       t.eng = s.eng))) ∧
    (serviceRuns s c = false → exec (.replyPost c) s = .next s) ∧
    (serviceRuns s c = true → s.bit (Reg.DB.HB.BITS c) 1 = true → exec (.replyPost c) s = .next (gatherEvents s)) ∧
    (let g := gatherEvents s
     g.mem = s.mem ∧ g.eng = s.eng ∧ (∀ k : Fin 4, (g.chan k).cmds = (s.chan k).cmds ∧ (g.chan k).replies = (s.chan k).replies ∧
       (g.chan k).mask = (s.chan k).mask ∧ (∃ l, (g.chan k).events = (s.chan k).events ++ l)) ∧
     (serviceRuns s c = true → s.bit (Reg.DB.HB.BITS c) 1 = false →
      let muted (l : List Post) : Prop := ∀ p ∈ l, ∃ code detail, p = .event code detail ∧ (s.chan c).mask.getLsbD (code / 256) = false
      let posted (t : State) (p : List Byte) : Prop := t.bit (Reg.DB.HB.BITS c) 1 = true ∧ t.eng = s.eng ∧
        t.mem = memSetAll s.mem (0x10400 + 0x4000 * c.val) p ∧ (t.chan c).cmds = (s.chan c).cmds ∧
        (s.bit (Reg.DB.BB.BITS c) 0 = true → (s.chan c).crossUs = none → (t.chan c).crossUs = some (s.get (Reg.MB.CFG.XUS c)))
      (∀ pre r rest, (g.chan c).due = pre ++ .reply r :: rest → muted pre → Completes (.replyPost c) s (fun t =>
        posted t r.bytes ∧ (t.chan c).due = rest)) ∧
      (∀ pre code detail rest, (g.chan c).due = pre ++ .event code detail :: rest → muted pre →
        (s.chan c).mask.getLsbD (code / 256) = true →
        ((g.chan c).lost = 0 ∨ (s.chan c).mask.getLsbD 1 = false → Completes (.replyPost c) s (fun t =>
          posted t (packet code 0 0xC000 0 detail []) ∧ (t.chan c).due = rest)) ∧
        ((g.chan c).lost ≠ 0 → (s.chan c).mask.getLsbD 1 = true → Completes (.replyPost c) s (fun t =>
          posted t (packet 0x0182 0 0xC000 0 (g.chan c).lost []) ∧ (t.chan c).due = .event code detail :: rest ∧
          (t.chan c).lost = 0))) ∧
      (muted (g.chan c).due → Completes (.replyPost c) s (fun t => (t.chan c).due = [] ∧ t.mem = s.mem ∧ t.eng = s.eng)))) ∧
    ((∀ k : Fin 4, serviceRuns s k = false) → exec .counterPoll s = .next s) ∧
    (serviceRuns s c = true → Completes .counterPoll s (fun t => t.mem = s.mem ∧ t.eng = s.eng ∧ t.chans = s.chans ∧
      (∀ x ∈ counterUnits, ∀ y ∈ ((counters x.1 x.2).getD []).zipIdx,
        if regUp s y.1.addr then accum t (accKey x.1 x.2 y.2) = (accum s (accKey x.1 x.2 y.2) + s.get y.1) % 2 ^ 64 ∧ t.get y.1 = 0
        else accum t (accKey x.1 x.2 y.2) = accum s (accKey x.1 x.2 y.2) ∧ t.get y.1 = s.get y.1))) ∧
    (∀ l < 8, s.hirq l = true ↔ s.up 0 = true ∧ ∃ j < 32, s.bit (Reg.DB.HB.BITS (l / 2)) j = true ∧
      s.bit (Reg.DB.HMASK.MASK (l / 2)) j = true ∧ s.bit (Reg.DB.HLINE.LINE (l / 2)) j = decide (l % 2 = 1))

/-- The host's commands of groups 0x01 to 0x04 as the firmware executes them (R44, R48, R86, R297, R351-R355, R358, R359, R380,
R384): the status and data of each, and what it changes. What VALID of IMGINFO means, and DETAIL of a failed flash access, are
free values (log entry 2). The model's readings: RESET and CSLOAD answer BUSY, and RESET acts after its reply (log entry 59); the three
calls of IMGWRITE, its read of external memory in several accesses, and the permit of IMGVERIFY (log entries 61 and 51); POWER, DETAIL
and TIMEOUT (log entry 27). -/
def Obligations.HostCommandsA : Prop :=
  ∀ (s : State) (c : Fin 4) (tag : BitVec 16),
    let u := begun s c tag
    (∀ x ∈ ([(0x0101, .hostNop c tag), (0x0103, .info c tag), (0x0104, .reset c tag), (0x0105, .engstart c tag), (0x0106, .engstop c tag),
        (0x0107, .events c tag), (0x0204, .imgselect c tag), (0x0302, .portcfg c tag), (0x0303, .portstat c tag),
        (0x0402, .wpwrite c tag), (0x0404, .wpread c tag)] : List (BitVec 16 × Instr)),
      (∀ m, ¬ AtHost s c tag x.1 m) → exec x.2 s = .next s) ∧
    (∀ m, AtHost s c tag 0x0101 m → Answers (.hostNop c tag) s c m 0 0 [] (fun t => t = u)) ∧
    (∀ m, AtHost s c tag 0x0103 m → Answers (.info c tag) s c m 0 0 (bytesLE 2 (s.get Reg.GLB.ID.PART) ++
      bytesLE 1 (s.get Reg.GLB.ID.REL) ++ bytesLE 1 (s.get Reg.GLB.BOOT.STAT.SLOT) ++ bytesLE 4 (s.get Reg.GLB.BOOT.IMGVER.VER) ++
      bytesLE 4 (s.get Reg.TIL.FID_L.FID) ++ bytesLE 4 (s.get Reg.TIL.FID_H.FID)) (fun t => t = u)) ∧
    (∀ m, AtHost s c tag 0x0104 m →
      let kind := m.par 0 1
      let target := m.par 1 1
      let dom := if kind = 0 then 0 else if kind = 1 then target + 1 else engDom target
      (s.up dom = false → Answers (.reset c tag) s c m 0x0107 0 [] (fun t => t = u)) ∧
      (s.up dom = true → s.resetDue.isSome = true → Answers (.reset c tag) s c m 0x0104 0 [] (fun t => t = u)) ∧
      (s.up dom = true → s.resetDue = none → Answers (.reset c tag) s c m 0 0 []
        (fun t => t = { u with resetDue := some (c.val, kind, target, m.noReply, m.tag) }))) ∧
    (∀ k kind target tg, s.resetDue = some (k, kind, target, true, tg) → Completes .resetTakeEffect s (fun t =>
      (kind = 0 → s.on Reg.DBG.LOCK.ERASING = false → t.boot.inReset = true ∧ t.boot.causes.testBit 2 = true ∧ t.mem = []) ∧
      (kind = 1 → target < 4 → t.resetDue = none ∧ t.eng = s.eng ∧ t.mem = s.mem ∧
        ∀ p ∈ domPorts (target + 1), t.get (Reg.PX.CTRL.EN p) = 0) ∧
      (kind = 2 → target < 14 → t.resetDue = none ∧ t.mem = s.mem ∧ t.bit Reg.FLT.RUN.ENG target = false ∧
        (t.engine (engOf target)).g = EngSt.reset.g ∧ ∀ j : Eng, j.val ≠ target → t.engine j = s.engine j) ∧
      (3 ≤ kind → t = powerRequest true 0 target ((({ s with resetDue := none }).put Reg.PWR.REQ.DOM 0).put Reg.PWR.REQ.MODE target)))) ∧
    ((∀ k kind target tg, s.resetDue ≠ some (k, kind, target, true, tg)) → exec .resetTakeEffect s = .next s) ∧
    (∀ m, AtHost s c tag 0x0105 m → m.par 0 1 < 14 →
      let e := engOf (m.par 0 1)
      (s.up (engDom e) = false → Answers (.engstart c tag) s c m 0x0107 0 [] (fun t => t = u)) ∧
      (s.up (engDom e) = true → s.bit Reg.FLT.RUN.ENG e = true → Answers (.engstart c tag) s c m 0x0105 1 [] (fun t => t = u)) ∧
      (s.up (engDom e) = true → s.bit Reg.FLT.RUN.ENG e = false → ∃ freed < 2 ^ 64,
        (∀ k < 64, freed.testBit k = (s.on (Reg.SEM.HOLD.HELD k) && s.get (Reg.SEM.HOLD.REQ k) == e.val)) ∧
        Answers (.engstart c tag) s c m 0 0 (bytesLE 8 freed) (fun t =>
          (∀ k < 64, freed.testBit k = true → t.get (Reg.SEM.HOLD.HELD k) = 0) ∧ t.bit Reg.FLT.STAT.ENG e = false ∧ t.mem = s.mem ∧
          (onLoan s e = false → t.bit Reg.FLT.RUN.ENG e = true ∧ (t.engine e).flow.pc = BitVec.ofNat 48 (m.par 2 6) ∧
            (t.engine e).boot = false ∧ (t.engine e).g = (s.engine e).g) ∧
          (onLoan s e = true → t.eng = s.eng ∧ t.tester.restart = some (BitVec.ofNat 48 (m.par 2 6)))))) ∧
    (∀ m, AtHost s c tag 0x0106 m → m.par 0 1 < 14 →
      let e := engOf (m.par 0 1)
      (s.up (engDom e) = false → Answers (.engstop c tag) s c m 0x0107 0 [] (fun t => t = u)) ∧
      (s.up (engDom e) = true → e.val = servingEngine s c → Answers (.engstop c tag) s c m 0x0105 1 [] (fun t => t = u)) ∧
      (s.up (engDom e) = true → e.val ≠ servingEngine s c → Answers (.engstop c tag) s c m 0 0 [] (fun t =>
        t.bit Reg.FLT.RUN.ENG e = false ∧ (t.engine e).g = EngSt.reset.g ∧ t.mem = s.mem ∧
        ∀ j : Eng, j ≠ e → t.engine j = s.engine j))) ∧
    (∀ m, AtHost s c tag 0x0107 m → Answers (.events c tag) s c m 0 0 [] (fun t =>
      t = { u with chans := t.chans } ∧ (t.chan c).mask = BitVec.ofNat 16 (m.par 0 2) ∧
      ∀ k : Fin 4, (t.chan k).cmds = (u.chan k).cmds ∧ (k ≠ c → t.chan k = u.chan k))) ∧
    (∀ (m : HostCmd) (flash : List Byte), AtHost s c tag 0x0201 m → ∃ valid < 2,
      Answers (.imginfo c tag flash) s c m 0 0 (bytesLE 4 valid ++ bytesLE 4 (fieldLE flash 8 4) ++ bytesLE 4 (fieldLE flash 0xC 4))
        (fun t => t = { u with free := s.free + 1 })) ∧
    (∀ (m : HostCmd) (ext : List Byte) (err fail late : Bool), AtHost s c tag 0x0202 m →
      let d := fwSource s (m.par 12 8) (m.par 8 4) ext err
      let r := sourceRead 10 (servingEngine u c) (m.par 12 8) (m.par 8 4) d u
      let i : Instr := .imgwrite c tag ext err fail late
      (m.started = false → exec i s = .next u) ∧
      (m.started = true → late = true → Answers i s c m 0x0201 0 [] (fun t => t = u)) ∧
      (m.started = true → late = false → m.committed = false → d.2 = true → ∃ det, Answers i s c m 0x0200 det [] (fun t =>
        t = r.2.took)) ∧
      (m.started = true → late = false → m.committed = false → d.2 = false →
        exec i s = .next (setCmd c tag (fun x => { x with committed := true }) u)) ∧
      (m.started = true → late = false → m.committed = true → r.1 = false → exec i s = .next r.2) ∧
      (m.started = true → late = false → m.committed = true → r.1 = true → d.2 = true ∨ fail = true → ∃ det, Answers i s c m 0x0200 det [] (fun t =>
        t.mem = s.mem ∧ t.eng = s.eng)) ∧
      (m.started = true → late = false → m.committed = true → r.1 = true → d.2 = false → fail = false → Answers i s c m 0 0 [] (fun t =>
        t.mem = s.mem ∧ t.eng = s.eng ∧ ∃ l, t.out = .flash (0x400000 * m.par 0 1 + m.par 4 4) d.1 :: l))) ∧
    (∀ (m : HostCmd) (flash : List Byte) (key : BitVec 256) (mono : BitVec 32) (late : Bool), AtHost s c tag 0x0203 m →
      let n := imageLength flash
      let asked : Prop := 1 < m.params.length
      let i : Instr := .imgverify c tag flash key mono late
      (late = true → Answers i s c m 0x0201 0 [] (fun t => t = releaseVerify m u)) ∧
      (late = false → lengthGood n = true → 65536 < n → ¬ asked → s.hasRequest cryPermitReq = true → exec i s = .next u) ∧
      (late = false → lengthGood n = true → 65536 < n → ¬ asked → s.hasRequest cryPermitReq = false →
        exec i s = .next (askPermit cryPermitReq 0 (setCmd c tag (fun x => { x with params := x.params ++ [1] }) u))) ∧
      (late = false → asked → s.holds cryPermitReq = false → exec i s = .next u) ∧
      (late = false → asked → s.holds cryPermitReq = true → Answers i s c m 0 0
        (bytesLE 4 (match checkImage flash key mono.toNat with | .ok _ => 0 | .error r => r)) (fun t => t = releaseVerify m u)) ∧
      (late = false → ¬ asked → ¬ (lengthGood n = true ∧ 65536 < n) → Answers i s c m 0 0
        (bytesLE 4 (match checkImage flash key mono.toNat with | .ok _ => 0 | .error r => r)) (fun t => t = u))) ∧
    (∀ m, AtHost s c tag 0x0204 m → m.par 0 1 < 2 → Answers (.imgselect c tag) s c m 0 0 [] (fun t =>
      t.get Reg.GLB.BOOT.CTRL.PREF = m.par 0 1 ∧ t.get Reg.GLB.BOOT.STAT.FAILA = 0 ∧ t.get Reg.GLB.BOOT.STAT.FAILB = 0 ∧
      t.mem = s.mem ∧ t.eng = s.eng)) ∧
    (∀ (m : HostCmd) (late : Bool), AtHost s c tag 0x0301 m → m.par 0 1 < 8 → m.par 1 1 < 2 → s.get (Reg.PX.CTRL.EN m.port) < 2 →
      let p := m.port
      let i : Instr := .porten c tag late
      (s.cluUp (cluOf p) = false → Answers i s c m 0x0107 0 [] (fun t => t = u)) ∧
      (s.cluUp (cluOf p) = true → m.started = false → ∃ v : State, v.get (Reg.PX.CTRL.EN p) = m.par 1 1 ∧ v.mem = s.mem ∧ v.eng = s.eng ∧
        (v.get (Reg.PX.STAT.ENACT p) = m.par 1 1 → Answers i s c m 0 0 [] (fun t => t = v)) ∧
        (v.get (Reg.PX.STAT.ENACT p) ≠ m.par 1 1 → late = false → exec i s = .next v)) ∧
      (s.cluUp (cluOf p) = true → m.started = true →
        (s.get (Reg.PX.STAT.ENACT p) = m.par 1 1 → Answers i s c m 0 0 [] (fun t => t = u)) ∧
        (s.get (Reg.PX.STAT.ENACT p) ≠ m.par 1 1 → late = false → exec i s = .next u) ∧
        (s.get (Reg.PX.STAT.ENACT p) ≠ m.par 1 1 → late = true → Answers i s c m 0x0201 0 [] (fun t => t = u)))) ∧
    (∀ m, AtHost s c tag 0x0302 m → m.par 0 1 < 8 →
      let p := m.port
      (s.cluUp (cluOf p) = false → Answers (.portcfg c tag) s c m 0x0107 0 [] (fun t => t = u)) ∧
      (s.cluUp (cluOf p) = true → s.on (Reg.PX.STAT.ENACT p) = true → Answers (.portcfg c tag) s c m 0x0105 1 [] (fun t => t = u)) ∧
      (s.cluUp (cluOf p) = true → s.on (Reg.PX.STAT.ENACT p) = false → 4 ≤ m.par 1 1 → m.par 1 1 ≤ 128 → m.par 2 1 ≤ 2 →
        m.par 3 1 ≤ 1 → m.par 4 1 ≤ 2 → Answers (.portcfg c tag) s c m 0 0 [] (fun t =>
          t.get (Reg.LP.CFG.DEPTH p) = m.par 1 1 ∧ t.get (Reg.WSQ.CTRL.EGR p) = m.par 2 1 ∧ t.get (Reg.WSQ.CTRL.SAF p) = m.par 3 1 ∧
          t.get (Reg.PX.CTRL.OWNER p) = m.par 4 1 ∧ t.mem = s.mem ∧ t.eng = s.eng))) ∧
    (∀ m, AtHost s c tag 0x0303 m → m.par 0 1 < 8 →
      (s.cluUp (cluOf m.port) = false → Answers (.portstat c tag) s c m 0x0107 0 [] (fun t => t = u)) ∧
      (s.cluUp (cluOf m.port) = true → Answers (.portstat c tag) s c m 0 0
        (accBytes (pollUnit 0 (m.par 0 1) u) 0 (m.par 0 1) 6) (fun t => t = pollUnit 0 (m.par 0 1) u))) ∧
    (∀ (m : HostCmd) (late : Bool), AtHost s c tag 0x0401 m → m.par 0 1 < 8 →
      let p := m.port
      let i : Instr := .csload c tag late
      (s.cluUp (cluOf p) = false → Answers i s c m 0x0107 0 [] (fun t => t = u)) ∧
      (s.cluUp (cluOf p) = true → m.started = false → s.on (Reg.WSQ.CSLD.STAT.BUSY p) = true →
        Answers i s c m 0x0104 0 [] (fun t => t = u)) ∧
      (s.cluUp (cluOf p) = true → m.started = false → s.on (Reg.WSQ.CSLD.STAT.BUSY p) = false → (s.port p).csld = none →
        s.on (Reg.WSQ.STAT.RUNACT p) = true → Answers i s c m 0x0200 3 [] (fun t => t.get (Reg.WSQ.CSLD.STAT.RESULT p) = 3)) ∧
      (s.cluUp (cluOf p) = true → m.started = false → s.on (Reg.WSQ.CSLD.STAT.BUSY p) = false → (s.port p).csld = none →
        s.on (Reg.WSQ.STAT.RUNACT p) = false → Completes i s (fun t => (t.port p).csld = some .first ∧
          t.get (Reg.WSQ.CSLD.STAT.BUSY p) = 1 ∧ t.get (Reg.WSQ.CSLD.ADDR_LO.ADDR p) = m.par 4 4 % 2 ^ (Reg.WSQ.CSLD.ADDR_LO.ADDR p).w ∧
          t.mem = s.mem ∧ t.eng = s.eng)) ∧
      (s.cluUp (cluOf p) = true → m.started = true →
        (s.on (Reg.WSQ.CSLD.STAT.BUSY p) = true → late = false → exec i s = .next u) ∧
        (s.on (Reg.WSQ.CSLD.STAT.BUSY p) = true → late = true → Answers i s c m 0x0201 0 [] (fun t => t = u)) ∧
        (s.on (Reg.WSQ.CSLD.STAT.BUSY p) = false → Answers i s c m (if s.get (Reg.WSQ.CSLD.STAT.RESULT p) = 0 then 0 else 0x0200)
          (s.get (Reg.WSQ.CSLD.STAT.RESULT p)) [] (fun t => t = u)))) ∧
    (∀ m, AtHost s c tag 0x0402 m → m.par 0 1 < 8 → m.par 1 1 < 2 →
      let p := m.port
      let b := m.par 1 1
      (s.cluUp (cluOf p) = false → Answers (.wpwrite c tag) s c m 0x0107 0 [] (fun t => t = u)) ∧
      (s.cluUp (cluOf p) = true → s.get (Reg.WSQ.STAT.WPBANKACT p) = b → Answers (.wpwrite c tag) s c m 0x0105 b [] (fun t => t = u)) ∧
      (s.cluUp (cluOf p) = true → s.get (Reg.WSQ.STAT.WPBANKACT p) ≠ b → m.par 2 2 + m.par 4 2 ≤ 1024 →
        Answers (.wpwrite c tag) s c m 0 0 [] (fun t => t.mem = s.mem ∧ t.eng = s.eng ∧
          (∀ i < m.par 4 2, (lookup (1024 * b + m.par 2 2 + i) (t.port p).wpm).getD 0 = m.par (8 + 4 * i) 4) ∧
          (∀ j, ¬ (1024 * b + m.par 2 2 ≤ j ∧ j < 1024 * b + m.par 2 2 + m.par 4 2) →
            lookup j (t.port p).wpm = lookup j (s.port p).wpm)))) ∧
    (∀ (m : HostCmd) (late : Bool), AtHost s c tag 0x0403 m → m.par 0 1 < 8 → m.par 1 1 < 2 →
      let p := m.port
      let i : Instr := .wpswitch c tag late
      (s.cluUp (cluOf p) = false → Answers i s c m 0x0107 0 [] (fun t => t = u)) ∧
      (s.cluUp (cluOf p) = true → m.started = false → ∃ v : State, v.get (Reg.WSQ.CTRL.WPBANK p) = m.par 1 1 ∧ v.mem = s.mem ∧
        v.ports = s.ports ∧ v.get (Reg.WSQ.STAT.WPBANKACT p) = s.get (Reg.WSQ.STAT.WPBANKACT p) ∧
        (s.get (Reg.WSQ.STAT.WPBANKACT p) = m.par 1 1 → Answers i s c m 0 0 [] (fun t => t = v)) ∧
        (s.get (Reg.WSQ.STAT.WPBANKACT p) ≠ m.par 1 1 → late = false → exec i s = .next v)) ∧
      (s.cluUp (cluOf p) = true → m.started = true →
        (s.get (Reg.WSQ.STAT.WPBANKACT p) = m.par 1 1 → Answers i s c m 0 0 [] (fun t => t = u)) ∧
        (s.get (Reg.WSQ.STAT.WPBANKACT p) ≠ m.par 1 1 → late = false → exec i s = .next u) ∧
        (s.get (Reg.WSQ.STAT.WPBANKACT p) ≠ m.par 1 1 → late = true → Answers i s c m 0x0201 0 [] (fun t => t = u)))) ∧
    (∀ m, AtHost s c tag 0x0404 m → m.par 0 1 < 8 → m.par 1 1 < 2 →
      let p := m.port
      (s.cluUp (cluOf p) = false → Answers (.wpread c tag) s c m 0x0107 0 [] (fun t => t = u)) ∧
      (s.cluUp (cluOf p) = true → m.par 2 2 + m.par 4 2 ≤ 1024 → Answers (.wpread c tag) s c m 0 0
        (((List.range (m.par 4 2)).map (fun i => bytesLE 4 ((lookup (1024 * m.par 1 1 + m.par 2 2 + i) (s.port p).wpm).getD 0))).flatten)
        (fun t => t.mem = s.mem ∧ t.ports = s.ports ∧ t.eng = s.eng)))

/-- The host's commands of groups 0x05 to 0x0A as the firmware executes them (R93, R94, R139, R166, R186, R187, R292, R297,
R354-R357, R396, R405). That HANDOVER is judged by the state it leaves, and DETAIL where no result code is named, are the
model's readings (log entry 27); so are the sequence of MODE, whose reply comes before a request that takes MGMT down, and GRISTGET of
CAP (log entry 59). -/
def Obligations.HostCommandsB : Prop :=
  ∀ (s : State) (c : Fin 4) (tag : BitVec 16),
    let u := begun s c tag
    (∀ x ∈ ([(0x0501, .timeget c tag), (0x0502, .timeset c tag), (0x0503, .timeadj c tag), (0x0504, .ptpcfg c tag), (0x0601, .ringctl c tag),
        (0x0602, .ringstat c tag), (0x0603, .routeset c tag), (0x0604, .slotreq c tag), (0x0701, .twinstat c tag),
        (0x0704, .twinlevel c tag), (0x0801, .mtpolicy c tag), (0x0802, .mtstatus c tag), (0x0803, .spowner c tag),
        (0x0804, .semfree c tag), (0x0902, .grist c tag), (0x0903, .gristget c tag), (0x0904, .permitstat c tag),
        (0x0A01, .counters c tag), (0x0A02, .faultlog c tag), (0x0A03, .echo c tag)] : List (BitVec 16 × Instr)),
      (∀ m, ¬ AtHost s c tag x.1 m) → exec x.2 s = .next s) ∧
    (∀ m, AtHost s c tag 0x0501 m → Answers (.timeget c tag) s c m 0 0 (bytesLE 6 (s.dom m.dom).hi.toNat ++
      bytesLE 6 (s.dom m.dom).lo.toNat ++ bytesLE 1 (flagBits s (timeFlags m.dom))) (fun t => t = u)) ∧
    (∀ m, AtHost s c tag 0x0502 m →
      let d := m.dom
      let v := (u.put48 (Reg.TU.D.SETS_L.SEC d) (Reg.TU.D.SETS_H.SEC d) (BitVec.ofNat 48 (m.par 2 6))).put48
        (Reg.TU.D.SETL_L.LO d) (Reg.TU.D.SETL_H.LO d) (BitVec.ofNat 48 (m.par 8 6))
      (stagedTime v d = none → ∃ det, Answers (.timeset c tag) s c m 0x0200 det [] (fun t =>
        t.get (Reg.TU.D.STAT.SETERR d) = 1 ∧ t.time = s.time)) ∧
      (∀ n, stagedTime v d = some n → Answers (.timeset c tag) s c m 0 0 [] (fun t => exec (.timeSet d) v = .next t))) ∧
    (∀ m, AtHost s c tag 0x0503 m →
      let d := m.dom
      let v := setAdj d (BitVec.ofNat 48 (m.par 2 6)) u
      (m.par 8 6 = 0 → Answers (.timeadj c tag) s c m 0 0 [] (fun t => t = v)) ∧
      (m.par 8 6 ≠ 0 → Answers (.timeadj c tag) s c m 0 0 [] (fun t => exec (.timeStep d)
        (v.put48 (Reg.TU.D.STEP_L.STEP d) (Reg.TU.D.STEP_H.STEP d) (BitVec.ofNat 48 (m.par 8 6))) = .next t))) ∧
    (∀ m, AtHost s c tag 0x0504 m → Answers (.ptpcfg c tag) s c m 0 0 [] (fun t => t = { u with ptp := t.ptp } ∧
      ∀ p < 8, (lookup (m.par 0 1 * 8 + p) t.ptp).getD 0 =
        if (m.par 2 1).testBit p then m.par 1 1 else (lookup (m.par 0 1 * 8 + p) s.ptp).getD 0)) ∧
    (∀ m, AtHost s c tag 0x0601 m → m.par 0 1 < 4 →
      let r : Clu := Fin.ofNat 4 (m.par 0 1)
      let state (t : State) : Nat := t.get (Reg.TIL.RING.STAT.STATE r)
      (s.cluUp r = false → Answers (.ringctl c tag) s c m 0x0107 0 [] (fun t => t = u)) ∧
      (s.cluUp r = true → s.get (Reg.TIL.RING.CTRL.EN r) < 2 → s.get (Reg.TIL.RING.CTRL.MCAP r) < 2 →
        Answers (.ringctl c tag) s c m 0 0 [] (fun t =>
          (m.par 1 1 = 0 → t.get (Reg.TIL.RING.CTRL.EN r) = 0 ∧ (s.get (Reg.TIL.RING.CTRL.EN r) = 1 → state t = 0)) ∧
          (m.par 1 1 = 1 → t.get (Reg.TIL.RING.CTRL.EN r) = 1 ∧
            state t = if s.get (Reg.TIL.RING.CTRL.EN r) = 0 then 1 else state s) ∧
          (m.par 1 1 = 2 → state t = (if state s = 0 then 0 else 1) ∧ ((twinned s r && streams s) = false → t.out = s.out)) ∧
          (m.par 1 1 = 3 → state t = state s ∧ ∀ x, exec (.renum r) u = .next x → t.out = x.out) ∧
          (m.par 1 1 = 4 → state t = state s ∧ ∀ x, exec (.check r) u = .next x → t.out = x.out)))) ∧
    (∀ m, AtHost s c tag 0x0602 m → m.par 0 1 < 4 → Answers (.ringstat c tag) s c m 0 0
      (bytesLE 4 ((readReg true (Reg.tilBase + 0x110 + 0x100 * m.par 0 1) u).1 % 2 ^ 32) ++
       bytesLE 2 (s.get (Reg.TIL.RING.NODES.N (m.par 0 1))) ++ bytesLE 2 (s.get (Reg.TIL.RING.EPOCH.EPOCH (m.par 0 1))) ++
       bytesLE 4 (s.get (Reg.TIL.RING.OFFSET.PS (m.par 0 1))) ++ bytesLE 4 (s.get (Reg.TIL.RING.LOOPNS.NS (m.par 0 1))))
      (fun t => t = u)) ∧
    (∀ m, AtHost s c tag 0x0603 m → m.par 0 2 + m.par 2 2 ≤ 512 → Answers (.routeset c tag) s c m 0 0 [] (fun t =>
      t.mem = s.mem ∧ t.eng = s.eng ∧ ∀ i, 1 ≤ i → i < 511 →
        let w := m.par (4 + 4 * (i - m.par 0 2)) 4
        if m.par 0 2 ≤ i ∧ i < m.par 0 2 + m.par 2 2 then
          t.get (Reg.TIL.RT.VALID i) = w % 2 ∧ t.get (Reg.TIL.RT.LOCAL i) = w / 2 % 2 ∧ t.get (Reg.TIL.RT.RING i) = w / 4 % 4 ∧
            t.get (Reg.TIL.RT.NEXT i) = w / 16 % 2 ^ 9 ∧ t.get (Reg.TIL.RT.METRIC i) = w / 2 ^ 16 % 2 ^ 8
        else t.get (Reg.TIL.RT.VALID i) = s.get (Reg.TIL.RT.VALID i) ∧ t.get (Reg.TIL.RT.NEXT i) = s.get (Reg.TIL.RT.NEXT i))) ∧
    (∀ m, AtHost s c tag 0x0604 m → m.par 0 1 < 4 →
      let r : Clu := Fin.ofNat 4 (m.par 0 1)
      (s.cluUp r = false → Answers (.slotreq c tag) s c m 0x0107 0 [] (fun t => t = u)) ∧
      (s.cluUp r = true → Answers (.slotreq c tag) s c m 0 0 [] (fun t => t = putPriv r 0x418 2 (m.par 2 2) u))) ∧
    (∀ m, AtHost s c tag 0x0701 m → Answers (.twinstat c tag) s c m 0 0
      (bytesLE 4 ((readReg true (Reg.tilBase + 0x8004) u).1 % 2 ^ 32) ++ bytesLE 4 (s.get Reg.TWN.EPOCH.EPOCH) ++
       bytesLE 4 (s.get Reg.TWN.PEERFID_L.FID) ++ bytesLE 4 (s.get Reg.TWN.PEERFID_H.FID) ++ bytesLE 4 (s.get Reg.TWN.RSYNCUS.US))
      (fun t => t = u)) ∧
    (∀ (m : HostCmd) (late : Bool), AtHost s c tag 0x0702 m →
      let i : Instr := .handover c tag late
      let busy : Prop := s.twin.ordered = true ∨ s.twin.handover.isSome = true
      (m.started = false → twinState s = 4 → s.get Reg.TWN.CTRL.LEVEL ≠ 0 →
        exec i s = .next { u with twin := { u.twin with ordered := true } }) ∧
      (m.started = false → twinState s ≠ 4 ∨ s.get Reg.TWN.CTRL.LEVEL = 0 → s.twin.ordered = false →
        ∃ det, Answers i s c m 0x0200 det [] (fun t => t.get Reg.TWN.EVT.HOFAIL = 1 ∧ t.twin = s.twin ∧ t.mem = s.mem)) ∧
      (m.started = true → busy → late = false → exec i s = .next u) ∧
      (m.started = true → busy → late = true → Answers i s c m 0x0201 0 [] (fun t => t = u)) ∧
      (m.started = true → ¬ busy → twinState s = 6 → Answers i s c m 0 0 [] (fun t => t = u)) ∧
      (m.started = true → ¬ busy → twinState s ≠ 6 → ∃ det, Answers i s c m 0x0200 det [] (fun t => t = u.took))) ∧
    (∀ (m : HostCmd) (late : Bool), AtHost s c tag 0x0703 m →
      let i : Instr := .resync c tag late
      (m.started = false → twinState s = 4 → exec i s = exec .twnResync u) ∧
      (m.started = false → twinState s ≠ 4 → Answers i s c m 0x0105 (twinState s) [] (fun t => t = u)) ∧
      (m.started = true → twinState s = 2 → late = false → exec i s = .next u) ∧
      (m.started = true → twinState s = 2 → late = true → Answers i s c m 0x0201 0 [] (fun t => t = u)) ∧
      (m.started = true → twinState s = 4 → Answers i s c m 0 0 [] (fun t => t = u)) ∧
      (m.started = true → twinState s ≠ 2 → twinState s ≠ 4 → ∃ det, Answers i s c m 0x0200 det [] (fun t => t = u.took))) ∧
    (∀ m, AtHost s c tag 0x0704 m → m.par 0 1 ≤ 2 → m.par 1 1 < 16 → Answers (.twinlevel c tag) s c m 0 0 [] (fun t =>
      t.get Reg.TWN.CTRL.LEVEL = m.par 0 1 ∧ t.get Reg.TWN.CTRL.RINGS = m.par 1 1)) ∧
    (∀ m, AtHost s c tag 0x0801 m → m.par 0 1 ≤ 2 → Answers (.mtpolicy c tag) s c m 0 0 [] (fun t =>
      t.get Reg.MEMT.CTRL.POLICY = m.par 0 1 ∧ t.get Reg.MEMT.CTRL.GAPMS = m.par 1 1 ∧ t.mem = s.mem ∧ t.eng = s.eng)) ∧
    (∀ m, AtHost s c tag 0x0802 m → Answers (.mtstatus c tag) s c m 0 0
      (([0xC108, 0xC10C, 0xC120, 0xC128] : List Nat).flatMap (fun o => bytesLE 4 ((readReg true (Reg.mgtBase + o) u).1 % 2 ^ 32)))
      (fun t => t = u)) ∧
    (∀ m, AtHost s c tag 0x0803 m → m.par 0 1 < 14 → m.par 1 1 ≤ 2 →
      let i := m.par 0 1
      let busy : Prop := s.get (Reg.SP.OWNER.OWNER i) = 3 ∨ s.on (Reg.SP.OWNER.PEND i) = true
      (busy → Answers (.spowner c tag) s c m 0x0104 0 [] (fun t => t = u.raise Reg.MEM.EVT.OWNBUSY)) ∧
      (¬ busy → Answers (.spowner c tag) s c m 0 0 [] (fun t => t.get (Reg.SP.OWNER.OWNER i) = m.par 1 1 ∧ t.mem = s.mem ∧
        t.eng = s.eng ∧ (m.par 1 1 ≠ s.get (Reg.SP.OWNER.OWNER i) → t.get (Reg.SP.OWNER.PEND i) = 1)))) ∧
    (∀ m, AtHost s c tag 0x0804 m → Answers (.semfree c tag) s c m 0 0 [] (fun t => t.mem = s.mem ∧ t.eng = s.eng ∧
      ∀ k < 64, if (m.par 0 8).testBit k then t.get (Reg.SEM.HOLD.HELD k) = 0
        else t.get (Reg.SEM.HOLD.HELD k) = s.get (Reg.SEM.HOLD.HELD k))) ∧
    (∀ (m : HostCmd) (late : Bool) (d : Nat), AtHost s c tag 0x0901 m → d < 5 → m.par 1 1 ≤ 4 →
      let i : Instr := .mode c tag late
      let mode := m.par 1 1
      let v := powerRequest true d mode ((u.put Reg.PWR.REQ.DOM d).put Reg.PWR.REQ.MODE mode)
      (m.started = false → m.par 0 1 = 2 ^ d →
        (refusesMode s d mode = true → Answers i s c m 0x0107 0 [] (fun t => t = v)) ∧
        (refusesMode s d mode = false → d = 0 → 2 ≤ mode → s.resetDue.isSome = true → Answers i s c m 0x0104 0 [] (fun t => t = u)) ∧
        (refusesMode s d mode = false → d = 0 → 2 ≤ mode → s.resetDue = none → Answers i s c m 0 0 []
          (fun t => t = { u with resetDue := some (c.val, 3, mode, m.noReply, m.tag) })) ∧
        (refusesMode s d mode = false → ¬ (d = 0 ∧ 2 ≤ mode) → v.on Reg.PWR.STAT.BUSY = false →
          Answers i s c m 0 0 [] (fun t => t = v)) ∧
        (refusesMode s d mode = false → ¬ (d = 0 ∧ 2 ≤ mode) → v.on Reg.PWR.STAT.BUSY = true → exec i s = .next
          (setCmd c tag (fun x => { x with params := x.params.take 2 ++ [BitVec.ofNat 8 (d + 16)] }) v))) ∧
      (m.started = true → (m.params.drop 2).map (·.toNat) = [d + 16] →
        ((powerProceed u).on Reg.PWR.STAT.BUSY = true → late = false → exec i s = .next (powerProceed u)) ∧
        ((powerProceed u).on Reg.PWR.STAT.BUSY = true → late = true → Answers i s c m 0x0201 0 [] (fun t => t = powerProceed u)) ∧
        ((powerProceed u).on Reg.PWR.STAT.BUSY = false → Answers i s c m (if (powerProceed u).mode d = mode then 0 else 0x0201) 0 []
          (fun t => t = powerProceed u)))) ∧
    (∀ doms mode, modeOrder doms mode = (if mode ≤ 1 then [0, 1, 2, 3, 4] else [1, 2, 3, 4, 0]).filter (fun d => doms.testBit d)) ∧
    (∀ m, AtHost s c tag 0x0902 m →
      let k := m.par 0 1
      let v := m.par 4 4
      let four : Bool := s.up 1 && s.up 2 && s.up 3 && s.up 4
      (k = 1 → four = false → Answers (.grist c tag) s c m 0x0107 0 [] (fun t => t = u)) ∧
      (k = 0 → v < 2 → Answers (.grist c tag) s c m 0 0 [] (fun t => t.get Reg.TU.CTRL.FINE = v ∧
        t.mem = s.mem ∧ t.eng = s.eng ∧ (v = 0 → t.calib.next = none) ∧
        (v = 1 → s.on Reg.TU.CTRL.CALEN = true → t = u.put Reg.TU.CTRL.FINE 1))) ∧
      (k = 1 → four = true → v < 256 → Answers (.grist c tag) s c m 0 0 [] (fun t => t.mem = s.mem ∧ t.eng = s.eng ∧
        ∀ p < 8, t.get (Reg.WSQ.CTRL.SAF p) = (v.testBit p).toNat)) ∧
      (k = 2 → v ≤ 2 → Answers (.grist c tag) s c m 0 0 [] (fun t => t.get Reg.TWN.CTRL.LEVEL = v)) ∧
      (k = 3 → v < 2 ^ 14 → Answers (.grist c tag) s c m 0 0 [] (fun t => t = u.put Reg.GRIST.PREC.PREC v)) ∧
      (k = 4 → v < 2 ^ 16 → v % 256 ≤ 2 → Answers (.grist c tag) s c m 0 0 [] (fun t =>
        t.get Reg.MEMT.CTRL.POLICY = v % 256 ∧ t.get Reg.MEMT.CTRL.GAPMS = v / 256 ∧ t.mem = s.mem)) ∧
      (k = 5 → 1000 ≤ v → v ≤ 1500 → Answers (.grist c tag) s c m 0 0 [] (fun t => t = u.put Reg.PWR.CAP.RED (1500 - v)))) ∧
    (∀ m, AtHost s c tag 0x0903 m →
      let four : Bool := s.up 1 && s.up 2 && s.up 3 && s.up 4
      (m.par 0 1 = 1 → four = false → Answers (.gristget c tag) s c m 0x0107 0 [] (fun t => t = u)) ∧
      (m.par 0 1 ≠ 1 ∨ four = true → Answers (.gristget c tag) s c m 0 0 (bytesLE 4 (gristRead (m.par 0 1) s)) (fun t => t = u))) ∧
    (∀ m, AtHost s c tag 0x0904 m → Answers (.permitstat c tag) s c m 0 0
      (bytesLE 4 (s.get Reg.PERMIT.BUDGET.MW) ++ bytesLE 4 (grantedMw s) ++ bytesLE 4 s.permit.queue.length) (fun t => t = u)) ∧
    (∀ m, AtHost s c tag 0x0A01 m →
      let n := m.par 0 1
      let k := m.par 1 1
      let v := pollUnit n k u
      let len := ((counters n k).getD []).length
      (s.up (counterDom n k) = false → Answers (.counters c tag) s c m 0x0107 0 [] (fun t => t = u)) ∧
      (s.up (counterDom n k) = true → Answers (.counters c tag) s c m 0 0 (accBytes v n k len) (fun t => t = { v with accum := t.accum } ∧
        (m.par 2 1 ≠ 1 → t.accum = v.accum) ∧ (m.par 2 1 = 1 → ∀ j < len, accum t (accKey n k j) = 0)))) ∧
    (∀ m, AtHost s c tag 0x0A02 m → Answers (.faultlog c tag) s c m 0 0 (bytesLE 4 (s.get Reg.FLT.STAT.ENG) ++ bytesLE 4 (faultLast s) ++
      bytesLE 4 (s.get Reg.FLT.EPC_L.ADDR) ++ bytesLE 4 (s.get Reg.FLT.EPC_H.ADDR)) (fun t => t = u)) ∧
    (∀ m, AtHost s c tag 0x0A03 m → Answers (.echo c tag) s c m 0 0 m.params (fun t => t = u))

/-- The DMA unit, the jobs of the cryptography unit and the bit lines (R363-R365, R384, R385, R424-R428). A register transfer of
length 0 ends in one of two ways by a free value; the algorithms are those of the standards that the manual names (log entries
2 and 10). The model's readings: the size of a chunk, and an ABORT in the last chunk, which stops the channel too (log entry 54); an ABORT
of a channel that waits for its permit (log entry 74); an ABORT of a cryptography job whose result is known, and what stands at DST after
one that an ABORT stops (log entry 63); reads and writes of external memory that wait for credits (log entry 51); where stuffing meets
arbitration and unstuffed groups, how the receiver synchronizes, and the occupancy at its cut (log entry 52). -/
def Obligations.JobsAndLines : Prop :=
  ∀ s : State,
    (∀ c : Ch,
      let x := s.dmaCh c
      let src := s.get (Reg.DMA.CH.SRC_L.ADDR c) + 2 ^ 32 * s.get (Reg.DMA.CH.SRC_H.ADDR c)
      let dst := s.get (Reg.DMA.CH.DST_L.ADDR c) + 2 ^ 32 * s.get (Reg.DMA.CH.DST_H.ADDR c)
      let n := s.get (Reg.DMA.CH.LEN.LEN c)
      let secure := s.on (Reg.DMA.CH.STAT.SEC c)
      let idle : Prop := s.on (Reg.DMA.CH.STAT.BUSY c) = false
      let fails (code : Nat) (t : State) : Prop := t.get (Reg.DMA.CH.STAT.ERR c) = 1 ∧ t.get (Reg.DMA.CH.STAT.ERRCODE c) = code ∧
        t.get (Reg.DMA.CH.STAT.BUSY c) = 0 ∧ (t.dmaCh c).fetch = false
      (∀ sec, ¬ idle → exec (.dmaGo c sec) s = .next s) ∧
      (∀ sec : Bool, idle → s.on (Reg.DMA.CH.CTRL.CHAIN c) = true → Completes (.dmaGo c sec) s (fun t =>
        t.get (Reg.DMA.CH.STAT.BUSY c) = 1 ∧ t.get (Reg.DMA.CH.STAT.SEC c) = sec.toNat ∧ t.get (Reg.DMA.CH.STAT.ERRCODE c) = 0 ∧
        (t.dmaCh c).fetch = true ∧ t.mem = s.mem ∧ t.eng = s.eng)) ∧
      (∀ sec : Bool, idle → s.on (Reg.DMA.CH.CTRL.CHAIN c) = false → n ≠ 0 → dmaCheck s src dst n = 0 → Completes (.dmaGo c sec) s (fun t =>
        t.get (Reg.DMA.CH.STAT.BUSY c) = 1 ∧ (t.dmaCh c).src = src ∧ (t.dmaCh c).dst = dst ∧ (t.dmaCh c).left = n ∧
        (t.dmaCh c).last = true ∧ (t.dmaCh c).fetch = false ∧ (65536 < n → (t.dmaCh c).heavy = true) ∧ t.mem = s.mem ∧ t.eng = s.eng)) ∧
      (∀ sec : Bool, idle → s.on (Reg.DMA.CH.CTRL.CHAIN c) = false → n ≠ 0 → dmaCheck s src dst n ≠ 0 →
        Completes (.dmaGo c sec) s (fun t => fails (dmaCheck s src dst n) t ∧ t.mem = s.mem)) ∧
      (∀ sec : Bool, idle → s.on (Reg.DMA.CH.CTRL.CHAIN c) = false → n = 0 → Completes (.dmaGo c sec) s (fun t =>
        t.get (Reg.DMA.CH.STAT.BUSY c) = 0 ∧ t.mem = s.mem ∧ (fails 3 t ∨ t.get (Reg.DMA.CH.STAT.DONE c) = 1))) ∧
      (idle → exec (.dmaAbort c) s = .next s) ∧
      (let waits : Prop := x.heavy = true ∧ ¬ (s.dmaPermit = some c.val ∧ s.holds 11 = true)
       (¬ idle → waits → Completes (.dmaAbort c) s (fun t => fails 6 t ∧ (t.dmaCh c).heavy = false)) ∧
       (¬ idle → ¬ waits → exec (.dmaAbort c) s = .next (s.modDma c (fun y => { y with abort := true })))) ∧
      (∀ (ext : List Byte) (err : Bool),
        let a := s.get (Reg.DMA.CH.CUR_L.ADDR c) + 2 ^ 32 * s.get (Reg.DMA.CH.CUR_H.ADDR c)
        let u := s.put (Reg.DMA.CH.REMAIN.LEN c) 0
        let i : Instr := .dmaDescriptorRead c ext err
        (dmaRuns s c = false ∨ x.fetch = false → exec i s = .next s) ∧
        (dmaRuns s c = true → x.fetch = true → x.abort = true → Completes i s (fails 6)) ∧
        (dmaRuns s c = true → x.fetch = true → x.abort = false → dmaReach s a 32 ≠ 0 → Completes i s (fails 3)) ∧
        (∀ v, dmaRuns s c = true → x.fetch = true → x.abort = false → dmaReach s a 32 = 0 → dmaAsks c a 32 u = (false, v) →
          exec i s = .next v) ∧
        (∀ w, dmaRuns s c = true → x.fetch = true → x.abort = false → dmaReach s a 32 = 0 → dmaAsks c a 32 u = (true, w) →
          (dmaRead a 32 ext err w).1 = none → Completes i s (fails 3)) ∧
        (∀ b v w, dmaRuns s c = true → x.fetch = true → x.abort = false → dmaReach s a 32 = 0 → dmaAsks c a 32 u = (true, w) →
          dmaRead a 32 ext err w = (some b, v) →
          (descBad b = true → Completes i s (fails 3)) ∧
          (descBad b = false → dmaCheck v (fieldLE b 0 5) (fieldLE b 8 5) (fieldLE b 16 3) ≠ 0 →
            Completes i s (fails (dmaCheck v (fieldLE b 0 5) (fieldLE b 8 5) (fieldLE b 16 3)))) ∧
          (descBad b = false → dmaCheck v (fieldLE b 0 5) (fieldLE b 8 5) (fieldLE b 16 3) = 0 → Completes i s (fun t =>
            (t.dmaCh c).src = fieldLE b 0 5 ∧ (t.dmaCh c).dst = fieldLE b 8 5 ∧ (t.dmaCh c).left = fieldLE b 16 3 ∧
            (t.dmaCh c).notify = (fieldLE b 19 1).testBit 0 ∧ (t.dmaCh c).last = (fieldLE b 19 1).testBit 1 ∧
            (t.dmaCh c).next = fieldLE b 24 5 ∧ (t.dmaCh c).fetch = false ∧ t.mem = v.mem)))) ∧
      (∀ (ext : List Byte) (err werr : Bool),
        let i : Instr := .dmaChunk c ext err werr
        let k := min x.left (min 256 (min (4096 - x.src % 4096) (4096 - x.dst % 4096)))
        let goes : Prop := dmaTurn s c = true
        let u := if x.phase = 1 then s else { s with dmaLast := c }
        let moves : Prop := goes ∧ x.phase ≠ 2 ∧ (x.phase ≠ 1 → dmaCheck s x.src x.dst x.left = 0)
        let moved (w : State) : State := (w.modDma c (fun y => { y with src := y.src + k, dst := y.dst + k, left := y.left - k, phase := 0 })).put
          (Reg.DMA.CH.REMAIN.LEN c) (x.left - k)
        let written (w : State) : Prop :=
          (k < x.left → x.abort = false → exec i s = .next (moved w)) ∧
          (x.abort = true → Completes i s (fails 6)) ∧
          (x.left = k → x.abort = false → x.last = true → Completes i s (fun t => t.get (Reg.DMA.CH.STAT.DONE c) = 1 ∧
            t.get (Reg.DMA.CH.STAT.BUSY c) = 0 ∧ (t.dmaCh c).left = 0)) ∧
          (x.left = k → x.abort = false → x.last = false → Completes i s (fun t => (t.dmaCh c).fetch = true ∧ (t.dmaCh c).left = 0 ∧
            t.get (Reg.DMA.CH.CUR_L.ADDR c) = x.next % 2 ^ 32))
        (¬ goes → exec i s = .next s) ∧
        ((∀ l : Ch, (s.dmaCh l).phase = 0 ∨ (s.dmaCh l).fetch = true) →
          (goes ↔ dmaRuns s c = true ∧ x.fetch = false ∧ x.left ≠ 0 ∧ ∃ j, 1 ≤ j ∧ j ≤ 4 ∧ c.val = (s.dmaLast.val + j) % 4 ∧
            ∀ l, 1 ≤ l → l < j → chunkReady s (Fin.ofNat 4 (s.dmaLast.val + l)) = false)) ∧
        (∀ l : Ch, (s.dmaCh l).phase ≠ 0 → (s.dmaCh l).fetch = false →
          (∀ j : Ch, j.val < l.val → (s.dmaCh j).phase = 0 ∨ (s.dmaCh j).fetch = true) → (goes ↔ l = c ∧ chunkReady s c = true)) ∧
        (goes → x.phase ≠ 1 → x.phase ≠ 2 → dmaCheck s x.src x.dst x.left ≠ 0 →
          Completes i s (fails (dmaCheck s x.src x.dst x.left))) ∧
        (∀ v, moves → dmaAsks c x.src k u = (false, v) → exec i s = .next v) ∧
        (∀ v, moves → dmaAsks c x.src k u = (true, v) → (dmaRead x.src k ext err v).1 = none → Completes i s (fails 1)) ∧
        (∀ bs v w, moves → dmaAsks c x.src k u = (true, v) → dmaRead x.src k ext err v = (some bs, w) →
          (isExternal x.dst = false → ∀ st y, windowWrite 15 (x.dst - blockSpace) bs w = (st, y) →
            (st ≠ stOkay → Completes i s (fails 2)) ∧ (st = stOkay → written y)) ∧
          (isExternal x.dst = true →
            let y := sendWrites 15 secure x.dst bs w
            (y.unsent 15 true = true → exec i s = .next (y.modDma c (fun z => { z with phase := 2 }))) ∧
            (y.unsent 15 true = false → werr = true → Completes i s (fails 2)) ∧
            (y.unsent 15 true = false → werr = false → written y))) ∧
        (goes → x.phase = 2 → (s.unsent 15 true = true → exec i s = .next s) ∧
          (s.unsent 15 true = false → werr = true → Completes i s (fails 2)) ∧
          (s.unsent 15 true = false → werr = false → written s)))) ∧
    ((∀ b : List Byte, b.length = 32 → ∀ w < 8, (cryOut b s).get (Reg.CRY.OUT.OUT w) = fieldLE b (4 * w) 4) ∧
     (let runs (op : Nat) : Prop := cryRuns s (fun k => k == op) = true
      let n := s.get Reg.CRY.LEN.LEN
      let res (r : Nat) (v : State) : State := { v with cry := some (if v.cryStop = true then 6 else r) }
      let asked (i : Instr) (n : Nat) (ext : List Byte) (err : Bool) (u : State) (done : List Byte → State → Prop) : Prop :=
        let src (w : State) : Nat := addr40 w Reg.CRY.SRC_L.ADDR Reg.CRY.SRC_H.ADDR
        (∀ v, askBulk 9 20 (src u) n u = (false, v) → exec i s = .next v) ∧
        (∀ w, askBulk 9 20 (src u) n u = (true, w) →
          (∀ v, cryRead (src w) n ext err w = (none, v) → exec i s = .next (res 3 v)) ∧
          (∀ d v, cryRead (src w) n ext err w = (some d, v) → done d v))
      let gcm (i : Instr) (ext aad : List Byte) (err : Bool) (done : List Byte → List Byte → List Byte → State → Prop) : Prop :=
        (aesKey s = none → exec i s = .next (res 4 s)) ∧
        (∀ k, aesKey s = some k →
          let aadAt (w : State) : Nat := addr40 w Reg.CRY.AAD_L.ADDR Reg.CRY.AAD_H.ADDR
          let first := if s.bulk.contains 9 then (true, s) else askBulk 8 20 (aadAt s) (s.get Reg.CRY.ALEN.LEN) s
          (first.1 = false → exec i s = .next first.2) ∧
          (first.1 = true → asked i (first.2.get Reg.CRY.LEN.LEN) ext err first.2 (fun d w =>
            (∀ v, cryRead (aadAt w) (w.get Reg.CRY.ALEN.LEN) aad err w = (none, v) → exec i s = .next (res 3 v)) ∧
            (∀ a v, cryRead (aadAt w) (w.get Reg.CRY.ALEN.LEN) aad err w = (some a, v) → done k a d v))))
      let dst (w : State) : Nat := addr40 w Reg.CRY.DST_L.ADDR Reg.CRY.DST_H.ADDR
      let stopped (i : Instr) (out : List Byte) (werr : Bool) (v : State) : Prop := ∃ m ≤ (out.length + 15) / 16,
        exec i s = .next { (cryWrite (dst v) (out.take (16 * m)) werr v.took).2 with cry := some 6 }
      (∀ ext err, let i : Instr := .crySha256 ext err
        (¬ runs 0 → exec i s = .next s) ∧
        (runs 0 → asked i n ext err s (fun d v => exec i s = .next (res 0 (if v.cryStop = true then v else cryOut (sha256 d) v))))) ∧
      (∀ ext err, let i : Instr := .cryHmac ext err
        (¬ runs 1 → exec i s = .next s) ∧
        (runs 1 → slotKey s = none → exec i s = .next (res 4 s)) ∧
        (runs 1 → ∀ k, slotKey s = some k → asked i n ext err s
          (fun d v => exec i s = .next (res 0 (if v.cryStop = true then v else cryOut (hmac k d) v))))) ∧
      (∀ ext err, let i : Instr := .cryVerify ext err
        (¬ runs 2 → exec i s = .next s) ∧
        (runs 2 → asked i 160 ext err s (fun d v =>
          exec i s = .next (res (if ecdsaVerify (num32 d 0) (num32 d 32) (num32 d 96) (num32 d 128) ((d.drop 64).take 32) then 0 else 1) v)))) ∧
      (∀ ext aad err werr, let i : Instr := .cryEncrypt ext aad err werr
        (¬ runs 3 → exec i s = .next s) ∧
        (runs 3 → gcm i ext aad err (fun k a d v =>
          let r := gcmEncrypt k (cryIv v) a d
          let o := cryWrite (dst v) r.1 werr v
          (v.cryStop = true → stopped i r.1 werr v) ∧
          (v.cryStop = false → o.1 = true → exec i s = .next { cryOut r.2 o.2 with cry := some 0 }) ∧
          (v.cryStop = false → o.1 = false → exec i s = .next { o.2 with cry := some 3 })))) ∧
      (∀ ext aad err werr, let i : Instr := .cryDecrypt ext aad err werr
        (¬ runs 4 → exec i s = .next s) ∧
        (runs 4 → gcm i ext aad err (fun k a d v =>
          let r := gcmDecrypt k (cryIv v) a d
          let o := cryWrite (dst v) r.1 werr v
          let z := cryWrite (dst v) (List.replicate d.length 0) werr o.2
          (v.cryStop = true → stopped i r.1 werr v) ∧
          (v.cryStop = false → o.1 = false → exec i s = .next { o.2 with cry := some 3 }) ∧
          (v.cryStop = false → o.1 = true → r.2 = cryTag o.2 → exec i s = .next { o.2 with cry := some 0 }) ∧
          (v.cryStop = false → o.1 = true → r.2 ≠ cryTag o.2 → exec i s = .next { z.2 with cry := some (if z.1 then 2 else 3) })))) ∧
      (exec .cryReservedOp s = .next (if cryRuns s (fun op => decide (5 ≤ op)) then res 5 s else s)) ∧
      (let ended (r : Nat) (t : State) : Prop := t.get Reg.CRY.STAT.RESULT = r ∧ t.get Reg.CRY.STAT.DONE = 1 ∧
         t.get Reg.CRY.STAT.BUSY = 0 ∧ t.get Reg.CRY.STAT.PERMIT = 0 ∧ t.cry = none ∧ t.cryStop = false ∧ t.mem = s.mem ∧
         (∀ e : Eng, s.get Reg.CRY.CTRL.NOTE = 1 → s.get Reg.CRY.CTRL.NENG = e.val → s.get Reg.CRY.CTRL.NBIT < 32 →
           (t.engine e).msg.edb = (s.engine e).msg.edb ||| BitVec.ofNat 32 (2 ^ s.get Reg.CRY.CTRL.NBIT)) ∧
         (s.get Reg.CRY.CTRL.NOTE ≠ 1 → t.eng = s.eng)
       (s.on Reg.CRY.STAT.BUSY = false → exec .cryDone s = .next s ∧ exec .cryAbort s = .next s) ∧
       (s.cry = none → exec .cryDone s = .next s) ∧
       (∀ r < 8, s.on Reg.CRY.STAT.BUSY = true → s.cry = some r →
         (s.unsent 20 true = true → exec .cryDone s = .next s) ∧ (s.unsent 20 true = false → Completes .cryDone s (ended r)) ∧
         exec .cryAbort s = .next s) ∧
       (s.on Reg.CRY.STAT.BUSY = true → s.cry = none →
         (cryWaits s = true → Completes .cryAbort s (ended 6)) ∧
         (cryWaits s = false → exec .cryAbort s = .next { s with cryStop := true }))))) ∧
    (∀ k : Line,
      let x := s.line k
      let on : Prop := s.on (Reg.BL.CTRL.EN k) = true
      let busy : Prop := s.on (Reg.BL.STAT.TXBUSY k) = true
      (∀ v, (¬ on → exec (.blTxd k v) s = .next s) ∧
        (on → 64 ≤ x.tx.length → exec (.blTxd k v) s = .next (s.raise (Reg.BL.STAT.TXOVF k))) ∧
        (on → x.tx.length < 64 → exec (.blTxd k v) s = .next (s.modLine k (fun y => { y with tx := y.tx ++ [v] })))) ∧
      let up : Prop := s.cluUp (lineClu k) = true
      let begins (t : State) : Prop := t.get (Reg.BL.STAT.TXBUSY k) = 1 ∧ (t.line k).gone ++ (t.line k).tx = x.tx ∧ (t.line k).age = 0 ∧
        (t.line k).start = none ∧ (t.line k).rx = x.rx ∧ t.out = s.out ∧ t.mem = s.mem ∧
        (isBitstream s k = true ∨ s.get (Reg.BL.DE.LEAD k) = 0 → (t.line k).gone = x.tx.take 1)
      (up → on → x.tx ≠ [] → x.start = none → ¬ busy → Completes (.blTransmitStart k) s begins) ∧
      (¬ up ∨ ¬ on ∨ x.tx = [] ∨ x.start ≠ none ∨ busy → exec (.blTransmitStart k) s = .next s) ∧
      (∀ lost, ¬ busy ∨ ¬ up → exec (.blTransmitEnd k lost) s = .next s) ∧
      (let ends (n : Nat) (t : State) : Prop := (t.line k).tx = [] ∧ (t.line k).gone = [] ∧ t.get (Reg.BL.STAT.TXBUSY k) = 0 ∧
         t.out = Out.bitline k (!isBitstream s k) (((lineWave s k).take n).map (fun b => (b.len, b.level))) :: s.out ∧
         (t.line k).rx = x.rx ∧ t.mem = s.mem
       (busy → up → Completes (.blTransmitEnd k none) s (ends (lineWave s k).length)) ∧
       (∀ i w, busy → up → (lineWave s k)[i]? = some w → w.arb = true → w.level = true → Completes (.blTransmitEnd k (some i)) s (fun t =>
         ends (i + 1) t ∧ t.get (Reg.BL.STAT.LOST k) = 1)) ∧
       (∀ i w, (lineWave s k)[i]? = some w → w.arb = false ∨ w.level = false → exec (.blTransmitEnd k (some i)) s = .next s)) ∧
      (let div := max 3 (s.get (Reg.BL.RATE.DIV k))
       (isBitstream s k = false → occupancy s k = 5000 * (div + 1) * (s.get (Reg.BL.DE.LEAD k) + (x.gone ++ x.tx).length * (1 + charBits s k +
         (if s.get (Reg.BL.FMT.PAR k) = 1 ∨ s.get (Reg.BL.FMT.PAR k) = 2 then 1 else 0) + 1 + s.get (Reg.BL.FMT.STOP2 k)) + s.get (Reg.BL.DE.LAG k))) ∧
       (isBitstream s k = true → (∀ v ∈ x.gone ++ x.tx, v.getLsbD 24 = false) →
         lineWave s k = (x.gone ++ x.tx).flatMap (fun v => (List.range (v.toNat / 2 ^ 16 % 16 + 1)).map (fun i =>
           ⟨(if v.getLsbD 25 then s.get (Reg.BL.RATE.DDIV k) else div) + 1, v.getLsbD (v.toNat / 2 ^ 16 % 16 - i), v.getLsbD 26⟩))) ∧
       (∀ l last run, run < 5 → ∀ i, i + 6 ≤ (stuffBits l last run).1.length →
         ∃ b c, b ∈ ((stuffBits l last run).1.drop i).take 6 ∧ c ∈ ((stuffBits l last run).1.drop i).take 6 ∧ b ≠ c)) ∧
      (∀ (data : List Bool) (err par : Bool),
        let deaf : Prop := s.get (Reg.BL.CTRL.MODE k) = 0 ∧ busy ∧ s.on (Reg.BL.CTRL.ECHO k) = false
        let i : Instr := .blReceive k data err par
        (¬ up ∨ ¬ on ∨ deaf → exec i s = .next s) ∧
        (up → on → ¬ deaf → Completes i s (fun t => t.out = s.out ∧ (t.line k).tx = x.tx ∧ (t.line k).gone = x.gone ∧ t.mem = s.mem)) ∧
        (up → on → ¬ deaf → isBitstream s k = false → Completes i s (fun t =>
          let odd := decide (((List.range (charBits s k)).countP (fun j => data.getD j false)) % 2 = 1)
          let wrong : Bool := err || (s.get (Reg.BL.FMT.PAR k) == 1 && par != odd) || (s.get (Reg.BL.FMT.PAR k) == 2 && par == odd)
          let value := ((List.range (charBits s k)).map (fun j => if data.getD j false = true then 2 ^ j else 0)).sum
          (64 ≤ x.rx.length → (t.line k).rx = x.rx ∧ t.get (Reg.BL.STAT.RXOVF k) = 1) ∧
          (x.rx.length < 64 → (t.line k).rx = x.rx ++ [BitVec.ofNat 32 (value + 2 ^ 16 + 2 ^ 17 * wrong.toNat)]))) ∧
        (up → on → isBitstream s k = true → exec i s = .next (data.foldl (receiveLevel k
          ((if err = true then s.get (Reg.BL.RATE.DDIV k) else max 3 (s.get (Reg.BL.RATE.DIV k))) + 1)
          (if err = true then s.get (Reg.BL.FMT.DSP k) else s.get (Reg.BL.FMT.SP k))) s))) ∧
      (∀ (n sp : Nat) (v : Bool),
        let y : BitSt := { x with level := v, pos := if n ≤ x.pos + 1 then 0 else x.pos + 1 }
        (x.level = true → v = false → receiveLevel k n sp s v =
          receiveLevel k n sp (s.modLine k (fun _ => { edgeSync n (s.get (Reg.BL.FMT.SJW k)) x with level := false })) v) ∧
        (x.level = false ∨ v = true → x.pos ≠ sp ∨ x.sampled = true → receiveLevel k n sp s v =
          s.modLine k (fun _ => { y with sampled := x.sampled && decide (x.pos + 1 < n) })) ∧
        (x.level = false ∨ v = true → x.pos = sp → x.sampled = false → receiveLevel k n sp s v =
          packBits k (receiveBit k (s.modLine k (fun _ =>
            { y with sampled := decide (x.pos + 1 < n), quiet := if v = true then x.quiet + 1 else 0 })) v))) ∧
      (∀ (n j : Nat) (y : BitSt),
        (11 ≤ y.quiet → (edgeSync n j y).pos = 0 ∧ (edgeSync n j y).sampled = false) ∧
        (y.quiet < 11 → y.sampled = false → edgeSync n j y = { y with pos := y.pos - min y.pos j }) ∧
        (y.quiet < 11 → y.sampled = true → n - y.pos ≤ j → edgeSync n j y = { y with pos := 0, sampled := false }) ∧
        (y.quiet < 11 → y.sampled = true → j < n - y.pos → edgeSync n j y = { y with pos := y.pos + j })) ∧
      (x.shift.length < 16 → packBits k s = s) ∧
      (x.shift.length = 16 → x.rx.length < 64 → ((packBits k s).line k).shift = [] ∧ ((packBits k s).line k).rx = x.rx ++
        [BitVec.ofNat 32 (((List.range 16).map (fun j => if x.shift.getD (15 - j) false = true then 2 ^ j else 0)).sum + 2 ^ 16)]) ∧
      (s.on (Reg.BL.CTRL.RXSTUFF k) = false → ∀ b,
        receiveBit k s b = s.modLine k (fun y => { y with shift := y.shift ++ [b], last := b, run := runLength x.last x.run b })) ∧
      (∀ b, s.on (Reg.BL.CTRL.RXSTUFF k) = true →
        (x.run < 5 → receiveBit k s b = s.modLine k (fun y => { y with shift := y.shift ++ [b], last := b, run := runLength x.last x.run b })) ∧
        (x.run = 5 → b ≠ x.last → receiveBit k s b = s.modLine k (fun y => { y with last := b, run := 1 })) ∧
        (x.run = 5 → b = x.last → (receiveBit k s b).get (Reg.BL.STAT.STUFFERR k) = 1)) ∧
      (x.rx = [] → exec (.blRxdRead k) s = .next { s with ans := ⟨0, 0⟩ }) ∧
      (∀ v rest, x.rx = v :: rest → Completes (.blRxdRead k) s (fun t => t.ans = ⟨0, v.toNat⟩ ∧ (t.line k).rx = rest ∧
        (t.line k).tx = x.tx)) ∧
      (∀ v : BitVec 16, Completes (.blTstart k v) s (fun t => t.get (Reg.BL.TSTART_H.T k) = v.toNat ∧ (t.line k).tx = x.tx ∧
        (t.line k).start = some (BitVec.ofNat 48 (s.get (Reg.BL.TSTART_L.T k) + 2 ^ 32 * v.toNat)))) ∧
      exec (.blDisarm k) s = .next (s.modLine k (fun y => { y with start := none })) ∧
      (x.start = none → exec (.timedStartDue k) s = .next s) ∧
      (∀ b : Word, x.start = some b →
        let n := lineClu k
        let l := lineNo k
        let due : Prop := startDue (s.dom (Fin.ofNat 4 (s.get (Reg.TTW.CTRL.DOM n l)))).lo b = true ∧ ¬ busy ∧ up
        let u := s.modLine k (fun y => { y with start := none })
        let fits : Prop := windowCheck s n l (fun d => (d.ps : Int)) (occupancy s k) = .ok
        (¬ due → exec (.timedStartDue k) s = .next s) ∧
        (due → x.tx = [] ∨ ¬ on → exec (.timedStartDue k) s = .next u) ∧
        (due → x.tx ≠ [] → on → fits → Completes (.timedStartDue k) s begins) ∧
        (due → x.tx ≠ [] → on → ¬ fits → exec (.timedStartDue k) s = .next
          ((u.raise (Reg.BL.STAT.LATE k)).count (Reg.TTW.LATE.CNT n l)))))

/-- Power modes (R88, R119, R393, R395-R399): parking and waking engines, a mode request in all its outcomes, the handshake with
the power controller, wake events, and the kick of the block watchdog. A wake from DEEP or OFF goes through the resets of
R391. That IDLE parks a domain's engines, and what a wake finds when it cannot begin at once, are the model's readings (log
entry 21); so is what a wake and a handshake that time out leave. That a request which takes MGMT down is refused while a cluster is
about to wake, and that MGMT wakes before a cluster, is log entry 74 (R10). -/
def Obligations.PowerModes : Prop :=
  ∀ s : State,
    let free : Bool := s.power.pch.isNone && !s.power.ack
    (∀ m : BitVec 14, Completes (.enginePark m) s (fun t =>
      (∀ e : Eng, t.bit Reg.PWR.EIDLE.ENG e = (s.bit Reg.PWR.EIDLE.ENG e ||
        m.getLsbD e && s.engRuns e && s.up (engDom e) && (s.takeable e).isNone && (s.engine e).haltReq.isNone &&
          !((s.engine e).boot && !(s.engine e).msg.queue.isEmpty))) ∧
      t.eng = s.eng ∧ t.mem = s.mem ∧ t.power = s.power)) ∧
    (∀ e : Eng,
      let wakes : Bool := s.up (engDom e) && !onLoan s e && ((s.takeable e).isSome || (s.engine e).haltReq.isSome ||
        (s.engine e).boot && !(s.engine e).msg.queue.isEmpty)
      Completes (.engineWake e) s (fun t =>
        t.bit Reg.PWR.EIDLE.ENG e = (s.bit Reg.PWR.EIDLE.ENG e && !wakes) ∧
        (∀ j : Eng, j ≠ e → t.bit Reg.PWR.EIDLE.ENG j = s.bit Reg.PWR.EIDLE.ENG j) ∧
        t.eng = s.eng ∧ t.mem = s.mem ∧ t.power = s.power)) ∧
    exec .glbWdogKick s = .next (s.put Reg.GLB.WDOG.CNT.MS (s.get Reg.GLB.WDOG.PER.MS)) ∧
    (∀ d m : Fin 8,
      let refused : Prop := s.on Reg.PWR.STAT.BUSY = true ∨ 4 < d.val ∨ 4 < m.val ∨ (0 < d.val ∧ m.val ≤ 1 ∧ s.up 0 = false) ∨
        (d = 0 ∧ 2 ≤ m.val ∧ ((∃ c : Clu, s.cluUp c = true) ∨ (∃ k ∈ s.power.wakes, k ≠ 0) ∨
          ∃ h : PchSt, s.power.pch = some h ∧ h.wake = true ∧ h.dom ≠ 0))
      (refused → Completes (.powerRequest d m) s (fun t =>
        t.get Reg.PWR.EVT.REFUSED = 1 ∧ (∀ k < 5, t.mode k = s.mode k) ∧ t.get Reg.PWR.STAT.BUSY = s.get Reg.PWR.STAT.BUSY ∧
        t.eng = s.eng ∧ t.ports = s.ports ∧ t.power = s.power ∧ t.mem = s.mem)) ∧
      (¬ refused → s.mode d = m → Completes (.powerRequest d m) s (fun t =>
        t.get Reg.PWR.EVT.DONE = 1 ∧ t.get Reg.PWR.STAT.BUSY = 0 ∧ (∀ k < 5, t.mode k = s.mode k) ∧
        t.eng = s.eng ∧ t.ports = s.ports ∧ t.power = s.power ∧ t.mem = s.mem)) ∧
      (¬ refused → s.mode d ≠ m → m.val ≤ 1 → s.up d = true → Completes (.powerRequest d m) s (fun t =>
        t.get Reg.PWR.EVT.DONE = 1 ∧ t.mode d = m ∧ (∀ k < 5, k ≠ d → t.mode k = s.mode k) ∧
        t.eng = s.eng ∧ t.ports = s.ports ∧ t.mem = s.mem ∧ t.power.pch = s.power.pch ∧
        (∀ e : Eng, engDom e ≠ d → t.bit Reg.PWR.EIDLE.ENG e = s.bit Reg.PWR.EIDLE.ENG e))) ∧
      (¬ refused → m.val ≤ 1 → s.up d = false → Completes (.powerRequest d m) s (fun t =>
        t.get Reg.PWR.STAT.BUSY = 1 ∧ (∀ k < 5, t.mode k = s.mode k) ∧ t.eng = s.eng ∧ t.ports = s.ports ∧ t.mem = s.mem ∧
        t.power.asked = some (d.val, m.val) ∧
        t.power.pch = (if free && !willWake s d then some ⟨d, m, true, true⟩ else s.power.pch) ∧
        t.power.wakes = (if free || willWake s d then s.power.wakes else s.power.wakes ++ [d.val]))) ∧
      (¬ refused → s.mode d ≠ m → 2 ≤ m.val → s.up d = true → Completes (.powerRequest d m) s (fun t =>
        t.get Reg.PWR.STAT.BUSY = 1 ∧ (∀ k < 5, t.mode k = s.mode k) ∧ t.mem = s.mem ∧
        (∀ p : Port, p ∈ domPorts d → t.get (Reg.PX.CTRL.EN p) = 0) ∧
        (∀ p : Port, p ∈ domPorts d → s.on (Reg.PX.STAT.ENACT p) = true →
          t.power.pch = s.power.pch ∧ t.power.wait = some (d.val, m.val)))) ∧
      (¬ refused → s.mode d ≠ m → 2 ≤ m.val → s.up d = false → Completes (.powerRequest d m) s (fun t =>
        t.get Reg.PWR.STAT.BUSY = 1 ∧ (∀ k < 5, t.mode k = s.mode k) ∧
        t.power.pch = (if free then some ⟨d, m, false, true⟩ else s.power.pch) ∧
        t.power.wait = (if free then none else some (d.val, m.val))))) ∧
    (s.power.wait = none → ∀ (h : PchSt), s.power.pch = some h → h.req = true → s.power.ack = false → h.dom < 5 → h.mode < 5 →
      (∀ key, h.wake = false → Completes (.pchAck key) s (fun t =>
        t.mode h.dom = h.mode ∧ (∀ k < 5, k ≠ h.dom → t.mode k = s.mode k) ∧ t.get Reg.PWR.EVT.DONE = 1 ∧
        t.get Reg.PWR.STAT.BUSY = 0 ∧ t.power.pch = some { h with req := false } ∧ t.power.ack = true ∧ t.mem = s.mem ∧
        t.sleepDepth h.dom = (if s.up h.dom then h.mode else max h.mode (s.sleepDepth h.dom)) ∧
        (h.dom ∈ t.stopped ↔ t.sleepDepth h.dom ≠ 4) ∧ t.power.timer = decide (s.get Reg.PWR.WAKE.TICKS ≠ 0) ∧
        (∀ e : Eng, engDom e = h.dom → (t.engine e).xl.itlb = Tlb.empty ∧ (t.engine e).xl.lines = [] ∧
          (t.engine e).g = (s.engine e).g) ∧
        (∀ e : Eng, engDom e ≠ h.dom → t.engine e = s.engine e))) ∧
      (∀ key, h.wake = true → s.sleepDepth h.dom = 2 → (∀ a, s.power.asked = some a → a.1 ≠ h.dom) → Completes (.pchAck key) s (fun t =>
        t.mode h.dom = 0 ∧ t.get Reg.PWR.EVT.WAKE = 1 ∧ t.power.pch = some { h with req := false } ∧ t.power.ack = true ∧
        t.eng = s.eng ∧ t.ports = s.ports ∧ t.mem = s.mem ∧
        (∀ e : Eng, t.bit Reg.PWR.EIDLE.ENG e =
          (s.bit Reg.PWR.EIDLE.ENG e && !((s.power.parked ++ s.power.idled).contains e.val && engDom e == h.dom))))) ∧
      (∀ key m, h.wake = true → s.sleepDepth h.dom = 2 → m ≤ 1 → s.power.asked = some (h.dom, m) → Completes (.pchAck key) s (fun t =>
        t.mode h.dom = m ∧ t.get Reg.PWR.EVT.WAKE = 1 ∧ t.get Reg.PWR.EVT.DONE = 1 ∧ t.get Reg.PWR.STAT.BUSY = 0 ∧ t.power.asked = none ∧
        t.power.pch = some { h with req := false } ∧ t.power.ack = true ∧ t.eng = s.eng ∧ t.ports = s.ports ∧ t.mem = s.mem)) ∧
      (∀ key, h.wake = true → s.sleepDepth h.dom ≠ 2 → 0 < h.dom → exec (.pchAck key) s = .next (
        let u := { s with power := { s.power with
          pch := some { h with req := false }, ack := true, wakes := s.power.wakes.filter (fun d => !s.up d) } }
        wakeDone h.dom (wakeCluster (Fin.ofNat 4 (h.dom - 1)) key u))) ∧
      (∀ key, h.wake = true → 3 ≤ s.sleepDepth 0 → h.dom = 0 → s.on Reg.DBG.LOCK.ERASING = false → Completes (.pchAck key) s (fun t =>
        t.boot.inReset = true ∧ t.boot.causes.testBit 4 = true ∧ t.mem = [] ∧ t.eng = State.reset.eng ∧
        t.get Reg.PWR.EVT.WAKE = 1 ∧
        (s.sleepDepth 0 = 3 → s.mode 0 ≠ 0 → s.boot.inReset = false → ∀ d : Fin 4, t.time[d].hi = s.time[d].hi ∧ t.time[d].lo = s.time[d].lo))) ∧
      (s.power.wakes = [] → Completes .pchTimeout s (fun t =>
        t.get Reg.PWR.EVT.PCTO = 1 ∧ t.power.pch = none ∧ (∀ k < 5, t.mode k = s.mode k) ∧
        t.eng = s.eng ∧ t.ports = s.ports ∧ t.mem = s.mem ∧
        (h.wake = false → t.get Reg.PWR.STAT.BUSY = 0 ∧ t.power.depth = s.power.depth ∧ ∀ e : Eng, t.bit Reg.PWR.EIDLE.ENG e =
          (s.bit Reg.PWR.EIDLE.ENG e && !(s.power.parked.contains e.val && engDom e == h.dom))) ∧
        (h.wake = true → t.sleepDepth h.dom = (if s.sleepDepth h.dom = 3 then 3 else max (s.mode h.dom) 4) ∧
          ((∃ m, s.power.asked = some (h.dom, m)) → t.get Reg.PWR.STAT.BUSY = 0 ∧ t.power.asked = none) ∧
          ((∀ m, s.power.asked ≠ some (h.dom, m)) → t.get Reg.PWR.STAT.BUSY = s.get Reg.PWR.STAT.BUSY ∧
            t.power.asked = s.power.asked))))) ∧
    (s.power.pch = none → s.power.wait = none → s.power.wakes = [] →
      (∀ key, exec (.pchAck key) s = .next s) ∧ exec .pchTimeout s = .next s ∧
      exec .pchAckFall s = .next { s with power := { s.power with ack := false } }) ∧
    (∀ h : PchSt, s.power.pch = some h → s.power.ack = true → h.req = false → s.power.wait = none →
      let w := s.power.wakes.filter (fun d => !s.up d)
      exec .pchAckFall s = .next { s with power := { s.power with
        ack := false
        pch := match w with | d :: _ => some ⟨if s.up 0 then d else 0, 0, true, true⟩ | [] => none
        wakes := if s.up 0 = true ∨ w.head? = some 0 then w.tail else w } }) ∧
    (s.power.pch = none → s.power.ack = false → s.power.wakes = [] → s.up 0 = true → (∃ m, s.power.wait = some (0, m) ∧ 2 ≤ m) →
      exec .pchWake s = .next { s with power := { s.power with wakes := wakeOrder s } }) ∧
    (s.power.pch = none → s.power.ack = false → s.power.wakes = [] → (∀ m, s.power.wait = some (0, m) → m < 2) →
      exec .pchWake s = .next { s with power := { s.power with
        pch := match wakeOrder s with | d :: _ => some ⟨d, 0, true, true⟩ | [] => none
        wakes := (wakeOrder s).tail } }) ∧
    (s.power.timer = false → exec .wakeTimer s = .next s) ∧
    (s.power.timer = true → exec .wakeTimer s = exec .pchWake { s with power := { s.power with timer := false } })

/-- Debug (R189, R190, R441, R444-R448, R450-R455, R461, R462): unlock and erase, scan mode, the TAP's controller and its own instructions,
halts, halt groups, resumes, steps, the PC, a debugger's access to the general registers, and trace enable, SYNC and the FIFO. The model's
readings: what the erase leaves of state that R446 does not list (log entry 26); that an unlock request is ignored, uncounted, while the
block is open or erases, and what it drops and fences (log entry 57); a group that is set off acts in the next cycle (log entry 1); a
debugger's moves wait in order (log entry 25); the data registers of BYPASS and UNLOCK (log entry 78). -/
def Obligations.DebugAccess : Prop :=
  ∀ s : State,
    let isOpen : Prop := s.on Reg.DBG.LOCK.OPEN = true
    let erasing : Prop := s.on Reg.DBG.LOCK.ERASING = true
    let erased (t : State) : Prop := (sbyIn (twinState s) = false → t.mem = []) ∧ t.ecc = [] ∧
      (∀ e : Eng, t.engine e = { EngSt.reset with seqn := (s.engine e).seqn }) ∧
      (∀ p : Port, (t.port p).cs = [] ∧ (t.port p).wpm = [] ∧ (t.port p).gcl = []) ∧
      (∀ k < 64, t.get (Reg.SEM.HOLD.HELD k) = 0) ∧ (∀ k < 4, ∀ w < 8, t.get (Reg.CRY.KEY.KEY k w) = 0) ∧
      (∀ i < 512, t.get (Reg.TIL.RT.VALID i) = 0) ∧ (∀ c < 4, t.get (Reg.MB.STAT.READY c) = 0)
    let word : Nat := 3 * 2 ^ 24 + 0x4896 * 2 ^ 8 + 2 * s.get Reg.DBG.LOCK.ERASING + s.get Reg.DBG.LOCK.OPEN
    let pcOf (lo hi : Fld) (t : State) : Nat := t.get lo + 2 ^ 32 * t.get hi
    let ignored : Prop := isOpen ∨ erasing ∨ s.boot.inReset = true
    (∀ v : BitVec 32,
      let u := { s with tap := { s.tap with ctl := .updateDr, ir := 2, path := (List.range 32).map (fun i => v.getLsbD i) } }
      (ignored → exec (.debugUnlock v) s = .next u) ∧
      (¬ ignored → v ≠ 0x554E4C4B → exec (.debugUnlock v) s = .next (u.count Reg.DBG.LOCK.BADKEY))) ∧
    (¬ ignored → Completes (.debugUnlock 0x554E4C4B) s (fun t =>
      t.get Reg.DBG.LOCK.ERASING = 1 ∧ t.on Reg.DBG.LOCK.OPEN = false ∧ (∀ e : Eng, t.halted e = true) ∧
      t.permit.granted = [] ∧ t.permit.queue = [] ∧ t.boot.accepted = false ∧ t.boot.job = none ∧ (∀ c : Fin 4, (t.chan c).cmds = [] ∧ (t.chan c).replies = []) ∧
      (∀ c : Ch, t.get (Reg.DMA.CH.STAT.BUSY c) = 0) ∧ t.get Reg.CRY.STAT.BUSY = 0 ∧
      (hasPartner s = false → ∀ p : Port, t.get (Reg.WSQ.CTRL.RUN p) = 0) ∧
      (hasPartner s = true → twinState t = 0 ∧ ∀ p ∈ twinPorts s, t.get (Reg.WSQ.CTRL.RUN p) = 0))) ∧
    (let quiet : Prop := (erasing ∨ s.tap.scanDue = true ∧ s.tap.scan = false) ∧ ∀ d < 5, s.sleepDepth d ≠ 2
     (¬ quiet → exec .unlockEraseDone s = .next s) ∧
     (quiet → erasing → s.boot.queued = none → Completes .unlockEraseDone s (fun t => erased t ∧
       t.get Reg.DBG.LOCK.ERASING = 0 ∧ t.get Reg.DBG.LOCK.OPEN = 1 ∧ t.get Reg.TWN.STAT.DBGOPEN = 1 ∧ t.tap.scan = s.tap.scanDue)) ∧
     (quiet → ¬ erasing → Completes .unlockEraseDone s (fun t => erased t ∧ t.tap.scan = true ∧
       t.get Reg.DBG.LOCK.OPEN = s.get Reg.DBG.LOCK.OPEN)) ∧
     (∀ q, quiet → erasing → s.boot.queued = some q → Completes .unlockEraseDone s (fun t => t.mem = [] ∧ t.eng = State.reset.eng ∧
       t.boot.inReset = true))) ∧
    (s.tap.scanDue = true → exec .scanMode s = .next s) ∧
    (s.tap.scanDue = false → s.tap.scan = false → (∀ d < 5, s.sleepDepth d ≠ 2) → ¬ erasing → Completes .scanMode s (fun t => erased t ∧
      t.tap.scan = true ∧ t.tap.scanDue = true ∧ t.permit.granted = [])) ∧
    (s.tap.scanDue = false → (∃ d < 5, s.sleepDepth d = 2) → Completes .scanMode s (fun t => t.tap.scan = s.tap.scan ∧ t.tap.scanDue = true ∧
      t.mem = s.mem ∧ t.permit.granted = [] ∧ ∀ e : Eng, t.halted e = true)) ∧
    exec .tapIdent s = .next { s with tap := { s.tap with
      ctl := .captureDr, ir := 1, path := (List.range 32).map (fun i => word.testBit i) } } ∧
    exec .tapReset s = .next { s with tap := { s.tap with ctl := .testLogicReset, ir := 1 } } ∧
    (s.tdoOe = true ↔ (s.tap.ctl = .shiftDr ∨ s.tap.ctl = .shiftIr) ∧ s.boot.inReset = false) ∧
    (∀ tms tdi : Bool,
      let t := tapClock tms tdi s
      (s.tap.ctl = .shiftDr ∨ s.tap.ctl = .shiftIr → t.tap.path = s.tap.path.tail ++ [tdi] ∧ t.tap.ir = s.tap.ir ∧
        (tms = false → t.tap.ctl = s.tap.ctl ∧ t.tap.tdo = t.tap.path.headD false)) ∧
      (s.tap.ctl = .captureIr → t.tap.path = [true, false, false, false, false]) ∧
      (s.tap.ctl = .captureDr → s.tap.ir = 1 → t.tap.path = (List.range 32).map (fun i => word.testBit i)) ∧
      (s.tap.ctl = .captureDr → s.tap.ir = 4 → t.tap.path = (List.range 64).map (fun i =>
        (s.tap.data.toNat * 2 ^ 32 + 8 * s.tap.busy.isSome.toNat + s.tap.code % 8).testBit i)) ∧
      (s.tap.ctl = .captureDr → s.tap.ir ≠ 1 → s.tap.ir ≠ 2 → s.tap.ir ≠ 4 → t.tap.path = [false]) ∧
      (s.tap.ctl = .exit1Ir ∨ s.tap.ctl = .exit2Ir → tms = true → t.tap.ctl = .updateIr ∧
        ∀ i < 5, t.tap.ir.getLsbD i = s.tap.path.getD i false) ∧
      (s.tap.ctl = .exit1Dr ∨ s.tap.ctl = .exit2Dr → tms = true → s.tap.ir ≠ 2 → s.tap.ir ≠ 4 →
        t = { s with tap := { s.tap with ctl := .updateDr } })) ∧
    (∀ d : Fin 5 → Bool, s.tap.ir ≠ 2 → s.tap.ir ≠ 4 → (tapClock true (d 4) (tapClock true (d 3) (tapClock true (d 2) (tapClock true (d 1)
      (tapClock true (d 0) s))))).tap.ctl = .testLogicReset) ∧
    Completes (.traceEnable false) s (fun t => t.get Reg.TRC.CTRL.EN = 0 ∧ t.trace.fifo = [] ∧ t.trace.now = [] ∧ t.mem = s.mem) ∧
    (let sync : TracePkt := ⟨15, 0, [traceHeader 1 15 0 s.trace.cyc.toNat, 0x5A5A5A5A, BitVec.ofNat 32 s.trace.cyc.toNat,
       BitVec.ofNat 32 (s.trace.cyc.toNat / 2 ^ 32)]⟩
     let due : Prop := (0 < s.get Reg.TRC.CTRL.SYNCPER ∧ s.get Reg.TRC.CTRL.SYNCPER * 256 ≤ s.trace.sent) ∨ 32768 ≤ s.trace.quiet
     Completes (.traceEnable true) s (fun t => t.get Reg.TRC.CTRL.EN = 1 ∧ t.mem = s.mem ∧ t.trace.fifo = s.trace.fifo ∧
       (s.on Reg.TRC.CTRL.EN = true → t.trace = s.trace) ∧
       (s.on Reg.TRC.CTRL.EN = false → t.trace.now = s.trace.now ++ [sync])) ∧
     (¬ due → exec .traceSync s = .next s) ∧
     (due → Completes .traceSync s (fun t => t.trace.sent = 0 ∧ t.mem = s.mem ∧ t.trace.fifo = s.trace.fifo ∧
       (s.on Reg.TRC.CTRL.EN = false → t.trace.now = s.trace.now) ∧
       (s.on Reg.TRC.CTRL.EN = true → t.trace.now = s.trace.now ++ [sync]))) ∧
     (∀ ws : List Word32,
       let lost : List Word32 := if s.trace.lost = 0 then [] else [traceHeader 7 15 0 (min s.trace.lost 65535)]
       let t := tracePacket ws s
       (s.trace.fifo.length + (lost ++ ws).length ≤ 1024 → t.trace.fifo = s.trace.fifo ++ lost ++ ws ∧ t.trace.lost = 0) ∧
       (1024 < s.trace.fifo.length + (lost ++ ws).length → t.trace.fifo = s.trace.fifo ∧ t.trace.lost = s.trace.lost + 1)) ∧
     (∀ p q : TracePkt, s.trace.now = [p, q] → p.src < 16 → q.src < 16 → s.trace.lost = 0 →
       s.trace.fifo.length + p.words.length + q.words.length ≤ 1024 →
       (enterPackets s).trace.fifo = s.trace.fifo ++ (if q.src < p.src then q.words ++ p.words else p.words ++ q.words) ∧
       (enterPackets s).trace.now = [])) ∧
    (let asks (m : Eng → Bool) (cause : Nat) (t : State) : Prop := ∀ e : Eng,
       (t.engine e).haltReq = (if m e = true ∧ s.engRuns e = true ∧ s.halted e = false ∧ isOpen then
         some ((s.engine e).haltReq.getD cause) else (s.engine e).haltReq) ∧
       (t.engine e).flow = (s.engine e).flow ∧ (t.engine e).g = (s.engine e).g
     let resumed (m : Eng → Bool) (step : Bool) (t : State) : Prop := ∀ e : Eng,
       if m e = true ∧ s.halted e = true ∧ (s.engine e).haltReq = none ∧ isOpen then
         t.halted e = false ∧ t.bit Reg.DBG.HALTED.ENG e = false ∧ t.get (Reg.DBG.E.STAT.TOUCHED e) = 1 ∧
           t.engine e = { s.engine e with stepping := step }
       else t.engine e = s.engine e ∧ t.halted e = s.halted e
     (∀ m : BitVec 14, Completes (.haltRequest m) s (fun t => asks (fun e => m.getLsbD e.val) 0 t ∧ t.mem = s.mem ∧ t.ports = s.ports)) ∧
     (let acts (g : Fin 4) : Prop := g ∈ s.hgDue ∧ s.on (Reg.HG.CTRL.EN g) = true ∧ isOpen
      let t := groupsAct s
      t.hgDue = [] ∧ (∀ g, acts g → t.get (Reg.HG.CTRL.ACTED g) = 1) ∧
      (∀ g, ¬ acts g → t.get (Reg.HG.CTRL.ACTED g) = s.get (Reg.HG.CTRL.ACTED g)) ∧
      (∀ (g : Fin 4) (e : Eng), acts g → (s.get (Reg.HG.NOTIFY.ENG g)).testBit e.val = true → t.bit (Reg.DBG.E.EVT.HG e) g = true) ∧
      ∀ e : Eng, (t.engine e).flow = (s.engine e).flow ∧ (t.engine e).g = (s.engine e).g ∧
        ((∃ g, acts g ∧ (s.get (Reg.HG.STOP.ENG g)).testBit e.val = true) → s.engRuns e = true →
          (t.engine e).haltReq = some ((s.engine e).haltReq.getD 1)) ∧
        ((∀ g, acts g → (s.get (Reg.HG.STOP.ENG g)).testBit e.val = false) ∨ s.engRuns e = false → t.engine e = s.engine e)) ∧
     (∀ g : Fin 4, (¬ isOpen → exec (.hgGo g) s = .next s) ∧
       (isOpen → exec (.hgGo g) s = .next { s with hgDue := if g ∈ s.hgDue then s.hgDue else s.hgDue ++ [g] }) ∧
       Completes (.hgResume g) s (fun t => resumed (fun e => (s.get (Reg.HG.STOP.ENG g)).testBit e.val) false t ∧ t.mem = s.mem)) ∧
     (∀ m : BitVec 14, Completes (.debugResume m) s (fun t => resumed (fun e => m.getLsbD e.val) false t ∧ t.mem = s.mem) ∧
       Completes (.debugStep m) s (fun t => resumed (fun e => m.getLsbD e.val) true t ∧ t.mem = s.mem))) ∧
    (∀ e : Eng,
      let x := s.engine e
      (x.haltReq = none → exec (.engineHalt e) s = .next s) ∧
      (∀ cause, x.haltReq = some cause → x.retry.isSome = true → exec (.engineHalt e) s = .next (retryEntry e s)) ∧
      (∀ cause, x.haltReq = some cause → x.retry = none → x.undo.isSome = true ∨ s.pinned e = true ∨ onLoan s e = true ∨ s.halted e = true →
        exec (.engineHalt e) s = .next s) ∧
      (∀ cause, x.haltReq = some cause → cause < 8 → x.retry = none → x.undo = none → s.pinned e = false → onLoan s e = false → s.halted e = false →
        Completes (.engineHalt e) s (fun t => t.halted e = true ∧ t.bit Reg.DBG.HALTED.ENG e = true ∧
          t.get (Reg.DBG.E.STAT.CAUSE e) = cause ∧ (t.engine e).resv = none ∧ (t.engine e).haltReq = none ∧
          (t.engine e).flow = x.flow ∧ (t.engine e).g = x.g ∧ t.mem = s.mem ∧
          pcOf (Reg.DBG.E.PC_L.PC e) (Reg.DBG.E.PC_H.PC e) t = x.flow.pc.toNat ∧
          (∀ k a, x.flow.xfer = some (k, a) → t.get (Reg.DBG.E.STAT.DS e) = 1 ∧
            pcOf (Reg.DBG.E.NPC_L.NPC e) (Reg.DBG.E.NPC_H.NPC e) t = a.toNat) ∧
          (x.flow.xfer = none → t.get (Reg.DBG.E.STAT.DS e) = 0 ∧
            pcOf (Reg.DBG.E.NPC_L.NPC e) (Reg.DBG.E.NPC_H.NPC e) t = (x.flow.pc + 6).toNat))) ∧
      (∀ v : BitVec 16,
        (¬ isOpen → exec (.debugPcWrite e v) s = .next s) ∧
        (isOpen → s.halted e = false → exec (.debugPcWrite e v) s = .next (s.put (Reg.DBG.E.PC_H.PC e) v.toNat)) ∧
        (isOpen → s.halted e = true → Completes (.debugPcWrite e v) s (fun t => t.get (Reg.DBG.E.STAT.DS e) = 0 ∧ t.mem = s.mem ∧
          t.engine e = { x with flow := { x.flow with
            pc := BitVec.ofNat 48 (s.get (Reg.DBG.E.PC_L.PC e) + 2 ^ 32 * v.toNat), xfer := none } })))) ∧
    (∀ e : Eng,
      let x := s.engine e
      let p := s.get (Reg.DBG.E.PSEL.PORT e)
      (¬ isOpen → exec (.pdataRead e) s = .next s ∧ ∀ v, exec (.pdataWrite e v) s = .next s) ∧
      (isOpen → s.halted e = false ∨ canRead s e p = false → Completes (.pdataRead e) s (fun t =>
        t.get (Reg.DBG.E.STAT.PERR e) = 1 ∧ t.ans = ⟨0, 0⟩ ∧ t.eng = s.eng ∧ t.mem = s.mem)) ∧
      (isOpen → s.halted e = true → (h : p < 64) → Completes (.pdataRead e) s (fun t =>
        t.ans = ⟨0, x.g[p].toNat % 2 ^ 32⟩ ∧ t.eng = s.eng ∧ t.mem = s.mem ∧
        pcOf (Reg.DBG.E.PDATA_L.DATA e) (Reg.DBG.E.PDATA_H.DATA e) t = x.g[p].toNat)) ∧
      (∀ v : BitVec 16, isOpen → s.halted e = false ∨ canWrite s e p = false → Completes (.pdataWrite e v) s (fun t =>
        t.get (Reg.DBG.E.STAT.PERR e) = 1 ∧ t.eng = s.eng ∧ t.mem = s.mem)) ∧
      (∀ v : BitVec 16, isOpen → s.halted e = true → (h : p < 64) → x.moves = [] → Completes (.pdataWrite e v) s (fun t =>
        (t.engine e).g = x.g.set p (BitVec.ofNat 48 (s.get (Reg.DBG.E.PDATA_L.DATA e) + 2 ^ 32 * v.toNat)) ∧ (t.engine e).moves = [] ∧
        (t.engine e).flow = x.flow ∧ t.mem = s.mem ∧ ∀ j : Eng, j ≠ e → t.engine j = s.engine j)) ∧
      (∀ v : BitVec 16, isOpen → s.halted e = true → canWrite s e p = true → x.moves ≠ [] → Completes (.pdataWrite e v) s (fun t =>
        t.engine e = { x with
          moves := x.moves ++ [(p, BitVec.ofNat 48 (s.get (Reg.DBG.E.PDATA_L.DATA e) + 2 ^ 32 * v.toNat))] } ∧ t.mem = s.mem)))

/-- The state after reset meets each invariant that every step keeps: its memory is canonical, its stacks and queues are within their
depths, no requester of the permit unit stands twice. -/
def Obligations.ResetMeetsTheInvariants : Prop :=
  Memory.wf State.reset.mem ∧ WithinDepth State.reset ∧ OneEach State.reset.permit

/-- Every step that answers a next state keeps memory in its canonical form: addresses strictly rise, and no cell equals what an unlisted
address reads as. So equal contents are equal data, whatever wrote them: a window, a sequencer, an engine, a loader, the tester, the erase
of an unlock (R286, R446). The form itself is the model's (log entry 3). -/
def Obligations.MemoryStaysCanonical : Prop :=
  ∀ s t : State, Memory.wf s.mem → step s = .next t → Memory.wf t.mem

/-- Every step that answers a next state keeps each stack, queue and FIFO within its depth: a CALL beyond the fourth return address faults
(R32), a message to a full queue waits (R246), a write to a full bit-line FIFO is dropped (R425), and so is a trace packet that does not fit
(R461, R462). -/
def Obligations.QueuesStayWithinDepth : Prop :=
  ∀ s t : State, WithinDepth s → step s = .next t → WithinDepth t

/-- Every step that answers a next state keeps each requester of the permit unit to at most one place: among the permits granted, in the
queue, or set aside (R402-R404). -/
def Obligations.PermitsStayDistinct : Prop :=
  ∀ s t : State, OneEach s.permit → step s = .next t → OneEach t.permit
end

