-- ==== Sys2Proof/Laws/Cells.lean ====
section
/-! SUPPORT. Sparse storage and register fields: a read after a write, a write leaves every other key alone, and every write
keeps the canonical form. -/

namespace Sys2Proof.Machine

/-! ### Lists of entries -/

@[simp] theorem lookup_insertAt_self {α : Type} (k : Nat) (v : α) (l : List (Nat × α)) :
    lookup k (insertAt k v l) = some v := by
  induction l with
  | nil => simp [insertAt, lookup]
  | cons e t ih =>
    obtain ⟨j, u⟩ := e
    simp only [insertAt]
    split
    · simp [lookup]
    · split
      · simp [lookup]
      · simp only [lookup]; rw [if_neg (by omega), ih]

theorem lookup_insertAt_ne {α : Type} {k j : Nat} (v : α) (l : List (Nat × α)) (h : j ≠ k) :
    lookup j (insertAt k v l) = lookup j l := by
  induction l with
  | nil => simp [insertAt, lookup]; omega
  | cons e t ih =>
    obtain ⟨i, u⟩ := e
    simp only [insertAt]
    split
    · simp only [lookup]; rw [if_neg (by omega)]
    · split
      · rename_i h2; subst h2; simp only [lookup]; rw [if_neg (by omega), if_neg (by omega)]
      · simp only [lookup]; split <;> simp_all

theorem lookup_eraseAt_ne {α : Type} {k j : Nat} (l : List (Nat × α)) (h : j ≠ k) :
    lookup j (eraseAt k l) = lookup j l := by
  induction l with
  | nil => rfl
  | cons e t ih =>
    obtain ⟨i, u⟩ := e
    simp only [eraseAt]
    split
    · rename_i h2; subst h2; rw [ih]; simp only [lookup]; rw [if_neg (by omega)]
    · simp only [lookup]; split <;> simp_all

@[simp] theorem lookup_eraseAt_self {α : Type} (k : Nat) (l : List (Nat × α)) : lookup k (eraseAt k l) = none := by
  induction l with
  | nil => rfl
  | cons e t ih =>
    obtain ⟨i, u⟩ := e
    simp only [eraseAt]
    split
    · exact ih
    · rename_i h2; simp only [lookup]; rw [if_neg h2]; exact ih

theorem lookup_putAt_ne {α : Type} [DecidableEq α] {k j : Nat} (d v : α) (l : List (Nat × α)) (h : j ≠ k) :
    lookup j (putAt d k v l) = lookup j l := by
  unfold putAt; split
  · exact lookup_eraseAt_ne l h
  · exact lookup_insertAt_ne v l h

/-! ### The canonical form -/

theorem sortedKeys_tail {α : Type} {e : Nat × α} {t : List (Nat × α)} (h : sortedKeys (e :: t) = true) :
    sortedKeys t = true := by
  cases t with
  | nil => rfl
  | cons e' t => simp only [sortedKeys, Bool.and_eq_true] at h; exact h.2

/-- In a list with rising keys every later key lies above the first. -/
theorem sortedKeys_lt {α : Type} {e : Nat × α} {t : List (Nat × α)} (h : sortedKeys (e :: t) = true) :
    ∀ x ∈ t, e.1 < x.1 := by
  induction t generalizing e with
  | nil => simp
  | cons e' t ih =>
    have h' := h
    simp only [sortedKeys, Bool.and_eq_true, decide_eq_true_eq] at h'
    intro x hx
    cases hx with
    | head => exact h'.1
    | tail _ hx => have := ih h'.2 x hx; omega

theorem sortedKeys_cons {α : Type} {e : Nat × α} {t : List (Nat × α)} (h : sortedKeys t = true)
    (hlt : ∀ x ∈ t, e.1 < x.1) : sortedKeys (e :: t) = true := by
  cases t with
  | nil => rfl
  | cons e' t => simp only [sortedKeys, Bool.and_eq_true, decide_eq_true_eq]; exact ⟨hlt e' (List.mem_cons_self), h⟩

theorem lookup_none_of_lt {α : Type} {k : Nat} {l : List (Nat × α)} (h : ∀ x ∈ l, k < x.1) : lookup k l = none := by
  induction l with
  | nil => rfl
  | cons e t ih =>
    have := h e (List.mem_cons_self)
    simp only [lookup]; rw [if_neg (by omega)]
    exact ih (fun x hx => h x (List.mem_cons_of_mem _ hx))

theorem lookup_putAt {α : Type} [DecidableEq α] (d v : α) (k : Nat) (l : List (Nat × α)) :
    (lookup k (putAt d k v l)).getD d = v := by
  unfold putAt; split
  · rename_i e; rw [lookup_eraseAt_self, e]; rfl
  · simp

theorem mem_insertAt {α : Type} {k : Nat} {v : α} {l : List (Nat × α)} {x : Nat × α} (h : x ∈ insertAt k v l) :
    x = (k, v) ∨ x ∈ l := by
  induction l with
  | nil => simp [insertAt] at h; exact .inl h
  | cons e t ih =>
    obtain ⟨i, u⟩ := e
    simp only [insertAt] at h
    split at h
    · cases h with
      | head => exact .inl rfl
      | tail _ h => exact .inr h
    · split at h
      · cases h with
        | head => exact .inl rfl
        | tail _ h => exact .inr (List.mem_cons_of_mem _ h)
      · cases h with
        | head => exact .inr (List.mem_cons_self)
        | tail _ h => exact (ih h).imp id (List.mem_cons_of_mem _)

theorem mem_eraseAt {α : Type} {k : Nat} {l : List (Nat × α)} {x : Nat × α} (h : x ∈ eraseAt k l) : x ∈ l := by
  induction l with
  | nil => exact h
  | cons e t ih =>
    obtain ⟨i, u⟩ := e
    simp only [eraseAt] at h
    split at h
    · exact List.mem_cons_of_mem _ (ih h)
    · cases h with
      | head => exact List.mem_cons_self
      | tail _ h => exact List.mem_cons_of_mem _ (ih h)

theorem sortedKeys_insertAt {α : Type} (k : Nat) (v : α) {l : List (Nat × α)} (h : sortedKeys l = true) :
    sortedKeys (insertAt k v l) = true := by
  induction l with
  | nil => rfl
  | cons e t ih =>
    have hlt := sortedKeys_lt h
    have ht := sortedKeys_tail h
    obtain ⟨i, u⟩ := e
    simp only [insertAt]
    split
    · rename_i h1
      refine sortedKeys_cons h (fun x hx => ?_)
      cases hx with
      | head => exact h1
      | tail _ hx => have := hlt x hx; simp only at this ⊢; omega
    · split
      · rename_i h2; subst h2; exact sortedKeys_cons ht hlt
      · refine sortedKeys_cons (ih ht) (fun x hx => ?_)
        cases mem_insertAt hx with
        | inl e => subst e; simp only; omega
        | inr hx => exact hlt x hx

theorem sortedKeys_eraseAt {α : Type} (k : Nat) {l : List (Nat × α)} (h : sortedKeys l = true) :
    sortedKeys (eraseAt k l) = true := by
  induction l with
  | nil => rfl
  | cons e t ih =>
    have hlt := sortedKeys_lt h
    have ht := sortedKeys_tail h
    obtain ⟨i, u⟩ := e
    simp only [eraseAt]
    split
    · exact ih ht
    · exact sortedKeys_cons (ih ht) (fun x hx => hlt x (mem_eraseAt hx))

theorem sortedKeys_putAt {α : Type} [DecidableEq α] (d v : α) (k : Nat) {l : List (Nat × α)} (h : sortedKeys l = true) :
    sortedKeys (putAt d k v l) = true := by
  unfold putAt; split
  · exact sortedKeys_eraseAt k h
  · exact sortedKeys_insertAt k v h

/-- A write keeps the canonical form. -/
theorem canonical_putAt {α : Type} [DecidableEq α] (d v : α) (k : Nat) {l : List (Nat × α)} (h : canonical d l = true) :
    canonical d (putAt d k v l) = true := by
  simp only [canonical, Bool.and_eq_true, List.all_eq_true, decide_eq_true_eq] at h ⊢
  refine ⟨sortedKeys_putAt d v k h.1, fun x hx => ?_⟩
  unfold putAt at hx
  split at hx
  · exact h.2 x (mem_eraseAt hx)
  · rename_i hv
    cases mem_insertAt hx with
    | inl e => subst e; exact hv
    | inr hx => exact h.2 x hx

theorem sortedKeys_filter {α : Type} (f : Nat × α → Bool) {l : List (Nat × α)} (h : sortedKeys l = true) :
    sortedKeys (l.filter f) = true := by
  induction l with
  | nil => rfl
  | cons e t ih =>
    simp only [List.filter]
    split
    · exact sortedKeys_cons (ih (sortedKeys_tail h)) (fun x hx => sortedKeys_lt h x (List.mem_filter.mp hx).1)
    · exact ih (sortedKeys_tail h)

theorem canonical_filter {α : Type} [DecidableEq α] (d : α) (f : Nat × α → Bool) {l : List (Nat × α)}
    (h : canonical d l = true) : canonical d (l.filter f) = true := by
  simp only [canonical, Bool.and_eq_true, List.all_eq_true] at h ⊢
  exact ⟨sortedKeys_filter f h.1, fun x hx => h.2 x (List.mem_filter.mp hx).1⟩

theorem sortedKeys_append {α : Type} {l m : List (Nat × α)} (hl : sortedKeys l = true) (hm : sortedKeys m = true)
    (h : ∀ x ∈ l, ∀ y ∈ m, x.1 < y.1) : sortedKeys (l ++ m) = true := by
  induction l with
  | nil => exact hm
  | cons e t ih =>
    refine sortedKeys_cons (ih (sortedKeys_tail hl) (fun x hx => h x (List.mem_cons_of_mem _ hx))) (fun x hx => ?_)
    cases List.mem_append.mp hx with
    | inl hx => exact sortedKeys_lt hl x hx
    | inr hx => exact h e (List.mem_cons_self) x hx

/-! ### Register fields -/

/-- A field reads what was written to it, cut to its width. -/
theorem State.get_put (s : State) (f : Fld) (v : Nat) : (s.put f v).get f = v % 2 ^ f.w :=
  lookup_putAt f.rst (v % 2 ^ f.w) (Fld.key f) s.cells

/-- A write leaves every other field alone. -/
theorem State.get_put_ne (s : State) (f g : Fld) (v : Nat) (h : Fld.key g ≠ Fld.key f) : (s.put f v).get g = s.get g := by
  simp only [State.put, State.get]; rw [lookup_putAt_ne _ _ _ h]

/-- A one-bit field reads 1 once it is set. -/
theorem State.get_raise (s : State) (f : Fld) (h : f.w = 1) : (s.raise f).get f = 1 := by
  have := State.get_put s f 1
  rw [h] at this; exact this

/-- Setting a field leaves every other field alone. -/
theorem State.get_raise_ne (s : State) (f g : Fld) (h : Fld.key g ≠ Fld.key f) : (s.raise f).get g = s.get g :=
  State.get_put_ne s f g 1 h

/-- The cells keep rising through a write. -/
theorem State.sorted_put (s : State) (f : Fld) (v : Nat) (h : sortedKeys s.cells = true) :
    sortedKeys (s.put f v).cells = true := sortedKeys_putAt _ _ _ h

end Sys2Proof.Machine
end

