-- ==== Sys2Proof/Laws/Dispatch.lean ====
section
/-! SUPPORT. The arms of `exec`, one lemma each: proofs cite these and never unfold the whole dispatch. -/

namespace Sys2Proof.Machine

@[simp] theorem exec_powerOnReset {s} : exec .powerOnReset s = execPowerOnReset s := rfl
@[simp] theorem exec_rstNAssert {ns} {s} : exec (.rstNAssert ns) s = execRstNAssert ns s := rfl
@[simp] theorem exec_blockReset {cause} {s} : exec (.blockReset cause) s = execBlockReset cause s := rfl
@[simp] theorem exec_startUp {host} {answers} {sfdp} {record} {fid} {s} : exec (.startUp host answers sfdp record fid) s = execStartUp host answers sfdp record fid s := rfl
@[simp] theorem exec_bootGo {s} : exec .bootGo s = execBootGo s := rfl
@[simp] theorem exec_clrfail {s} : exec .clrfail s = execClrfail s := rfl
@[simp] theorem exec_imageStaged {bytes} {err} {keyHash} {mono} {s} : exec (.imageStaged bytes err keyHash mono) s = execImageStaged bytes err keyHash mono s := rfl
@[simp] theorem exec_imageStart {s} : exec .imageStart s = execImageStart s := rfl
@[simp] theorem exec_engineReset {e} {s} : exec (.engineReset e) s = execEngineReset e s := rfl
@[simp] theorem exec_clusterReset {n} {keyHash} {s} : exec (.clusterReset n keyHash) s = execClusterReset n keyHash s := rfl
@[simp] theorem exec_grainAvailable {p} {bytes} {last} {thru} {before} {age} {tap} {s} : exec (.grainAvailable p bytes last thru before age tap) s = execGrainAvailable p bytes last thru before age tap s := rfl
@[simp] theorem exec_frameStart {p} {s} : exec (.frameStart p) s = execFrameStart p s := rfl
@[simp] theorem exec_releasePoint {p} {s} : exec (.releasePoint p) s = execReleasePoint p s := rfl
@[simp] theorem exec_fcsVerdict {p} {s} : exec (.fcsVerdict p) s = execFcsVerdict p s := rfl
@[simp] theorem exec_bufferCommit {p} {s} : exec (.bufferCommit p) s = execBufferCommit p s := rfl
@[simp] theorem exec_rxQueueVisible {p} {s} : exec (.rxQueueVisible p) s = execRxQueueVisible p s := rfl
@[simp] theorem exec_udf {p} {s} : exec (.udf p) s = execUdf p s := rfl
@[simp] theorem exec_illegalMicroword {p} {s} : exec (.illegalMicroword p) s = execIllegalMicroword p s := rfl
@[simp] theorem exec_uNop {p} {s} : exec (.uNop p) s = execUNop p s := rfl
@[simp] theorem exec_uAlu {p} {s} : exec (.uAlu p) s = execUAlu p s := rfl
@[simp] theorem exec_uAlui {p} {s} : exec (.uAlui p) s = execUAlui p s := rfl
@[simp] theorem exec_uLdi {p} {s} : exec (.uLdi p) s = execULdi p s := rfl
@[simp] theorem exec_uLdih {p} {s} : exec (.uLdih p) s = execULdih p s := rfl
@[simp] theorem exec_uMovs {p} {s} : exec (.uMovs p) s = execUMovs p s := rfl
@[simp] theorem exec_uMovt {p} {s} : exec (.uMovt p) s = execUMovt p s := rfl
@[simp] theorem exec_uExt {p} {s} : exec (.uExt p) s = execUExt p s := rfl
@[simp] theorem exec_uDep {p} {s} : exec (.uDep p) s = execUDep p s := rfl
@[simp] theorem exec_uIncf {p} {s} : exec (.uIncf p) s = execUIncf p s := rfl
@[simp] theorem exec_uFadd {p} {s} : exec (.uFadd p) s = execUFadd p s := rfl
@[simp] theorem exec_uCpy {p} {s} : exec (.uCpy p) s = execUCpy p s := rfl
@[simp] theorem exec_uFil {p} {s} : exec (.uFil p) s = execUFil p s := rfl
@[simp] theorem exec_uLdm {p} {s} : exec (.uLdm p) s = execULdm p s := rfl
@[simp] theorem exec_uStm {p} {s} : exec (.uStm p) s = execUStm p s := rfl
@[simp] theorem exec_uAtm {p} {s} : exec (.uAtm p) s = execUAtm p s := rfl
@[simp] theorem exec_uCmpr {p} {s} : exec (.uCmpr p) s = execUCmpr p s := rfl
@[simp] theorem exec_uCmp {p} {s} : exec (.uCmp p) s = execUCmp p s := rfl
@[simp] theorem exec_uCmpf {p} {s} : exec (.uCmpf p) s = execUCmpf p s := rfl
@[simp] theorem exec_uBr {p} {s} : exec (.uBr p) s = execUBr p s := rfl
@[simp] theorem exec_uJmp {p} {s} : exec (.uJmp p) s = execUJmp p s := rfl
@[simp] theorem exec_uCall {p} {s} : exec (.uCall p) s = execUCall p s := rfl
@[simp] theorem exec_uRet {p} {s} : exec (.uRet p) s = execURet p s := rfl
@[simp] theorem exec_uNxw {p} {s} : exec (.uNxw p) s = execUNxw p s := rfl
@[simp] theorem exec_uWjmp {p} {s} : exec (.uWjmp p) s = execUWjmp p s := rfl
@[simp] theorem exec_uNxg {p} {s} : exec (.uNxg p) s = execUNxg p s := rfl
@[simp] theorem exec_uSkto {p} {s} : exec (.uSkto p) s = execUSkto p s := rfl
@[simp] theorem exec_uEndf {p} {s} : exec (.uEndf p) s = execUEndf p s := rfl
@[simp] theorem exec_uCmt {p} {s} : exec (.uCmt p) s = execUCmt p s := rfl
@[simp] theorem exec_uDisc {p} {s} : exec (.uDisc p) s = execUDisc p s := rfl
@[simp] theorem exec_uWait {p} {s} : exec (.uWait p) s = execUWait p s := rfl
@[simp] theorem exec_uTsi {p} {s} : exec (.uTsi p) s = execUTsi p s := rfl
@[simp] theorem exec_uSetf {p} {s} : exec (.uSetf p) s = execUSetf p s := rfl
@[simp] theorem exec_uQue {p} {s} : exec (.uQue p) s = execUQue p s := rfl
@[simp] theorem exec_uSig {p} {s} : exec (.uSig p) s = execUSig p s := rfl
@[simp] theorem exec_wEnd {p} {s} : exec (.wEnd p) s = execWEnd p s := rfl
@[simp] theorem exec_wDrop {p} {s} : exec (.wDrop p) s = execWDrop p s := rfl
@[simp] theorem exec_wJmp {p} {s} : exec (.wJmp p) s = execWJmp p s := rfl
@[simp] theorem exec_wJf {p} {s} : exec (.wJf p) s = execWJf p s := rfl
@[simp] theorem exec_wNop {p} {s} : exec (.wNop p) s = execWNop p s := rfl
@[simp] theorem exec_wCommit {p} {s} : exec (.wCommit p) s = execWCommit p s := rfl
@[simp] theorem exec_wSignal {p} {s} : exec (.wSignal p) s = execWSignal p s := rfl
@[simp] theorem exec_wSeek {p} {s} : exec (.wSeek p) s = execWSeek p s := rfl
@[simp] theorem exec_wAdv {p} {s} : exec (.wAdv p) s = execWAdv p s := rfl
@[simp] theorem exec_wSkip {p} {s} : exec (.wSkip p) s = execWSkip p s := rfl
@[simp] theorem exec_wTagskip {p} {s} : exec (.wTagskip p) s = execWTagskip p s := rfl
@[simp] theorem exec_wAddw {p} {s} : exec (.wAddw p) s = execWAddw p s := rfl
@[simp] theorem exec_wAddl {p} {s} : exec (.wAddl p) s = execWAddl p s := rfl
@[simp] theorem exec_wSetf {p} {s} : exec (.wSetf p) s = execWSetf p s := rfl
@[simp] theorem exec_wMatet {p} {s} : exec (.wMatet p) s = execWMatet p s := rfl
@[simp] theorem exec_wMatda {p} {s} : exec (.wMatda p) s = execWMatda p s := rfl
@[simp] theorem exec_wMatch {p} {s} : exec (.wMatch p) s = execWMatch p s := rfl
@[simp] theorem exec_wTest {p} {s} : exec (.wTest p) s = execWTest p s := rfl
@[simp] theorem exec_wAge {p} {s} : exec (.wAge p) s = execWAge p s := rfl
@[simp] theorem exec_wRdb {p} {s} : exec (.wRdb p) s = execWRdb p s := rfl
@[simp] theorem exec_wWrb {p} {s} : exec (.wWrb p) s = execWWrb p s := rfl
@[simp] theorem exec_wRd {p} {s} : exec (.wRd p) s = execWRd p s := rfl
@[simp] theorem exec_wWr {p} {s} : exec (.wWr p) s = execWWr p s := rfl
@[simp] theorem exec_wTsrx {p} {s} : exec (.wTsrx p) s = execWTsrx p s := rfl
@[simp] theorem exec_wTstx {p} {s} : exec (.wTstx p) s = execWTstx p s := rfl
@[simp] theorem exec_wTsin {p} {s} : exec (.wTsin p) s = execWTsin p s := rfl
@[simp] theorem exec_wCorr {p} {s} : exec (.wCorr p) s = execWCorr p s := rfl
@[simp] theorem exec_wWaitt {p} {s} : exec (.wWaitt p) s = execWWaitt p s := rfl
@[simp] theorem exec_wWaitg {p} {s} : exec (.wWaitg p) s = execWWaitg p s := rfl
@[simp] theorem exec_wWaitw {p} {s} : exec (.wWaitw p) s = execWWaitw p s := rfl
@[simp] theorem exec_wQueue {p} {s} : exec (.wQueue p) s = execWQueue p s := rfl
@[simp] theorem exec_wQend {p} {s} : exec (.wQend p) s = execWQend p s := rfl
@[simp] theorem exec_wSink {p} {s} : exec (.wSink p) s = execWSink p s := rfl
@[simp] theorem exec_wSeqchk {p} {s} : exec (.wSeqchk p) s = execWSeqchk p s := rfl
@[simp] theorem exec_wSeqgen {p} {s} : exec (.wSeqgen p) s = execWSeqgen p s := rfl
@[simp] theorem exec_wHsrchk {p} {s} : exec (.wHsrchk p) s = execWHsrchk p s := rfl
@[simp] theorem exec_wPrpchk {p} {s} : exec (.wPrpchk p) s = execWPrpchk p s := rfl
@[simp] theorem exec_wTlhdr {p} {s} : exec (.wTlhdr p) s = execWTlhdr p s := rfl
@[simp] theorem exec_wTlsync {p} {s} : exec (.wTlsync p) s = execWTlsync p s := rfl
@[simp] theorem exec_wTlsum {p} {s} : exec (.wTlsum p) s = execWTlsum p s := rfl
@[simp] theorem exec_wTlread {p} {s} : exec (.wTlread p) s = execWTlread p s := rfl
@[simp] theorem exec_wTlslot {p} {s} : exec (.wTlslot p) s = execWTlslot p s := rfl
@[simp] theorem exec_wTlbuild {p} {s} : exec (.wTlbuild p) s = execWTlbuild p s := rfl
@[simp] theorem exec_wTlcarry {p} {s} : exec (.wTlcarry p) s = execWTlcarry p s := rfl
@[simp] theorem exec_wTwchk {p} {s} : exec (.wTwchk p) s = execWTwchk p s := rfl
@[simp] theorem exec_csldGo {p} {s} : exec (.csldGo p) s = execCsldGo p s := rfl
@[simp] theorem exec_csldFirstPassDone {p} {keyHash} {ext} {err} {s} : exec (.csldFirstPassDone p keyHash ext err) s = execCsldFirstPassDone p keyHash ext err s := rfl
@[simp] theorem exec_csldSecondPassDone {p} {ext} {err} {s} : exec (.csldSecondPassDone p ext err) s = execCsldSecondPassDone p ext err s := rfl
@[simp] theorem exec_csldAbort {p} {s} : exec (.csldAbort p) s = execCsldAbort p s := rfl
@[simp] theorem exec_wpmDataWrite {p} {v} {s} : exec (.wpmDataWrite p v) s = execWpmDataWrite p v s := rfl
@[simp] theorem exec_csEccWriteback {p} {s} : exec (.csEccWriteback p) s = execCsEccWriteback p s := rfl
@[simp] theorem exec_portEnable {p} {s} : exec (.portEnable p) s = execPortEnable p s := rfl
@[simp] theorem exec_portDisable {p} {s} : exec (.portDisable p) s = execPortDisable p s := rfl
@[simp] theorem exec_portDrainDone {p} {s} : exec (.portDrainDone p) s = execPortDrainDone p s := rfl
@[simp] theorem exec_take {p} {s} : exec (.take p) s = execTake p s := rfl
@[simp] theorem exec_publish {p} {s} : exec (.publish p) s = execPublish p s := rfl
@[simp] theorem exec_txDescriptorStart {p} {tap} {s} : exec (.txDescriptorStart p tap) s = execTxDescriptorStart p tap s := rfl
@[simp] theorem exec_txLaunch {p} {tap} {s} : exec (.txLaunch p tap) s = execTxLaunch p tap s := rfl
@[simp] theorem exec_thruLaunch {p} {s} : exec (.thruLaunch p) s = execThruLaunch p s := rfl
@[simp] theorem exec_txComplete {p} {s} : exec (.txComplete p) s = execTxComplete p s := rfl
@[simp] theorem exec_txPreempt {p} {sent} {fwd} {s} : exec (.txPreempt p sent fwd) s = execTxPreempt p sent fwd s := rfl
@[simp] theorem exec_gclChange {p} {s} : exec (.gclChange p) s = execGclChange p s := rfl
@[simp] theorem exec_gclActivate {p} {s} : exec (.gclActivate p) s = execGclActivate p s := rfl
@[simp] theorem exec_gateIntervalEnd {p} {s} : exec (.gateIntervalEnd p) s = execGateIntervalEnd p s := rfl
@[simp] theorem exec_streamResetTimer {n} {ix} {s} : exec (.streamResetTimer n ix) s = execStreamResetTimer n ix s := rfl
@[simp] theorem exec_dupForget {n} {s} : exec (.dupForget n) s = execDupForget n s := rfl
@[simp] theorem exec_miLinkUp {p} {rate} {s} : exec (.miLinkUp p rate) s = execMiLinkUp p rate s := rfl
@[simp] theorem exec_miLinkDown {p} {s} : exec (.miLinkDown p) s = execMiLinkDown p s := rfl
@[simp] theorem exec_transmitSlip {p} {s} : exec (.transmitSlip p) s = execTransmitSlip p s := rfl
@[simp] theorem exec_timeSet {d} {s} : exec (.timeSet d) s = execTimeSet d s := rfl
@[simp] theorem exec_timeStep {d} {s} : exec (.timeStep d) s = execTimeStep d s := rfl
@[simp] theorem exec_adjWrite {d} {v} {s} : exec (.adjWrite d v) s = execAdjWrite d v s := rfl
@[simp] theorem exec_calibrationRound {s} : exec .calibrationRound s = execCalibrationRound s := rfl
@[simp] theorem exec_portCalibrated {p} {s} : exec (.portCalibrated p) s = execPortCalibrated p s := rfl
@[simp] theorem exec_calstale {p} {s} : exec (.calstale p) s = execCalstale p s := rfl
@[simp] theorem exec_ppsPulse {k} {s} : exec (.ppsPulse k) s = execPpsPulse k s := rfl
@[simp] theorem exec_ppsPulseEnd {k} {s} : exec (.ppsPulseEnd k) s = execPpsPulseEnd k s := rfl
@[simp] theorem exec_compareWrite {n} {c} {v} {s} : exec (.compareWrite n c v) s = execCompareWrite n c v s := rfl
@[simp] theorem exec_disarm {n} {c} {s} : exec (.disarm n c) s = execDisarm n c s := rfl
@[simp] theorem exec_compareMatch {n} {c} {s} : exec (.compareMatch n c) s = execCompareMatch n c s := rfl
@[simp] theorem exec_counterWrap {n} {s} : exec (.counterWrap n) s = execCounterWrap n s := rfl
@[simp] theorem exec_capture {n} {ix} {src} {rising} {age} {s} : exec (.capture n ix src rising age) s = execCapture n ix src rising age s := rfl
@[simp] theorem exec_captureRead {n} {ix} {s} : exec (.captureRead n ix) s = execCaptureRead n ix s := rfl
@[simp] theorem exec_tmoSet {v} {s} : exec (.tmoSet v) s = execTmoSet v s := rfl
@[simp] theorem exec_tmoClear {v} {s} : exec (.tmoClear v) s = execTmoClear v s := rfl
@[simp] theorem exec_tmoToggle {v} {s} : exec (.tmoToggle v) s = execTmoToggle v s := rfl
@[simp] theorem exec_windowPeriodStart {n} {l} {s} : exec (.windowPeriodStart n l) s = execWindowPeriodStart n l s := rfl
@[simp] theorem exec_domainRestart {dom} {n} {s} : exec (.domainRestart dom n) s = execDomainRestart dom n s := rfl
@[simp] theorem exec_ringEnable {r} {en} {s} : exec (.ringEnable r en) s = execRingEnable r en s := rfl
@[simp] theorem exec_renum {r} {s} : exec (.renum r) s = execRenum r s := rfl
@[simp] theorem exec_check {r} {s} : exec (.check r) s = execCheck r s := rfl
@[simp] theorem exec_relisten {r} {s} : exec (.relisten r) s = execRelisten r s := rfl
@[simp] theorem exec_listenExpiry {r} {s} : exec (.listenExpiry r) s = execListenExpiry r s := rfl
@[simp] theorem exec_sheafLoss {r} {s} : exec (.sheafLoss r) s = execSheafLoss r s := rfl
@[simp] theorem exec_sheafLaunch {r} {s} : exec (.sheafLaunch r) s = execSheafLaunch r s := rfl
@[simp] theorem exec_checkScoutTimer {r} {s} : exec (.checkScoutTimer r) s = execCheckScoutTimer r s := rfl
@[simp] theorem exec_layoutTimeout {r} {s} : exec (.layoutTimeout r) s = execLayoutTimeout r s := rfl
@[simp] theorem exec_echoreq {r} {s} : exec (.echoreq r) s = execEchoreq r s := rfl
@[simp] theorem exec_routedForward {r} {body} {s} : exec (.routedForward r body) s = execRoutedForward r body s := rfl
@[simp] theorem exec_twinLevelWrite {v} {s} : exec (.twinLevelWrite v) s = execTwinLevelWrite v s := rfl
@[simp] theorem exec_helloSend {s} : exec .helloSend s = execHelloSend s := rfl
@[simp] theorem exec_helloReceive {f} {s} : exec (.helloReceive f) s = execHelloReceive f s := rfl
@[simp] theorem exec_seekTimeout {s} : exec .seekTimeout s = execSeekTimeout s := rfl
@[simp] theorem exec_heartbeatSend {s} : exec .heartbeatSend s = execHeartbeatSend s := rfl
@[simp] theorem exec_heartbeatReceive {f} {s} : exec (.heartbeatReceive f) s = execHeartbeatReceive f s := rfl
@[simp] theorem exec_aliveKick {s} : exec .aliveKick s = execAliveKick s := rfl
@[simp] theorem exec_aliveExpiry {s} : exec .aliveExpiry s = execAliveExpiry s := rfl
@[simp] theorem exec_partnerTimeout {s} : exec .partnerTimeout s = execPartnerTimeout s := rfl
@[simp] theorem exec_ptLinkDownTimeout {s} : exec .ptLinkDownTimeout s = execPtLinkDownTimeout s := rfl
@[simp] theorem exec_goneReceive {f} {s} : exec (.goneReceive f) s = execGoneReceive f s := rfl
@[simp] theorem exec_cut {s} : exec .cut s = execCut s := rfl
@[simp] theorem exec_cutReceive {f} {s} : exec (.cutReceive f) s = execCutReceive f s := rfl
@[simp] theorem exec_publishFrame {f} {s} : exec (.publishFrame f) s = execPublishFrame f s := rfl
@[simp] theorem exec_writeFrame {f} {s} : exec (.writeFrame f) s = execWriteFrame f s := rfl
@[simp] theorem exec_imageFrame {f} {s} : exec (.imageFrame f) s = execImageFrame f s := rfl
@[simp] theorem exec_resyncSend {s} : exec .resyncSend s = execResyncSend s := rfl
@[simp] theorem exec_desyncReceive {f} {s} : exec (.desyncReceive f) s = execDesyncReceive f s := rfl
@[simp] theorem exec_ptFrameLoss {f} {s} : exec (.ptFrameLoss f) s = execPtFrameLoss f s := rfl
@[simp] theorem exec_twnHandover {s} : exec .twnHandover s = execTwnHandover s := rfl
@[simp] theorem exec_handoverFrame {f} {s} : exec (.handoverFrame f) s = execHandoverFrame f s := rfl
@[simp] theorem exec_ackReceive {f} {s} : exec (.ackReceive f) s = execAckReceive f s := rfl
@[simp] theorem exec_handoverAckTimeout {s} : exec .handoverAckTimeout s = execHandoverAckTimeout s := rfl
@[simp] theorem exec_twnResync {s} : exec .twnResync s = execTwnResync s := rfl
@[simp] theorem exec_deltaovf {s} : exec .deltaovf s = execDeltaovf s := rfl
@[simp] theorem exec_dualMove {e} {s} : exec (.dualMove e) s = execDualMove e s := rfl
@[simp] theorem exec_longImmediate {e} {s} : exec (.longImmediate e) s = execLongImmediate e s := rfl
@[simp] theorem exec_compareAndBranch {e} {s} : exec (.compareAndBranch e) s = execCompareAndBranch e s := rfl
@[simp] theorem exec_repeatPrefix {e} {s} : exec (.repeatPrefix e) s = execRepeatPrefix e s := rfl
@[simp] theorem exec_trap {e} {s} : exec (.trap e) s = execTrap e s := rfl
@[simp] theorem exec_interruptEntry {e} {s} : exec (.interruptEntry e) s = execInterruptEntry e s := rfl
@[simp] theorem exec_impreciseReport {e} {s} : exec (.impreciseReport e) s = execImpreciseReport e s := rfl
@[simp] theorem exec_watchdogWarningEntry {e} {s} : exec (.watchdogWarningEntry e) s = execWatchdogWarningEntry e s := rfl
@[simp] theorem exec_engineWatchdogExpiry {e} {s} : exec (.engineWatchdogExpiry e) s = execEngineWatchdogExpiry e s := rfl
@[simp] theorem exec_aluAdd {e} {u} {b} {s} : exec (.aluAdd e u b) s = execAluAdd e u b s := rfl
@[simp] theorem exec_aluAddc {e} {u} {b} {s} : exec (.aluAddc e u b) s = execAluAddc e u b s := rfl
@[simp] theorem exec_aluSub {e} {u} {b} {s} : exec (.aluSub e u b) s = execAluSub e u b s := rfl
@[simp] theorem exec_aluSubc {e} {u} {b} {s} : exec (.aluSubc e u b) s = execAluSubc e u b s := rfl
@[simp] theorem exec_aluRsub {e} {u} {b} {s} : exec (.aluRsub e u b) s = execAluRsub e u b s := rfl
@[simp] theorem exec_aluAnd {e} {u} {b} {s} : exec (.aluAnd e u b) s = execAluAnd e u b s := rfl
@[simp] theorem exec_aluOr {e} {u} {b} {s} : exec (.aluOr e u b) s = execAluOr e u b s := rfl
@[simp] theorem exec_aluXor {e} {u} {b} {s} : exec (.aluXor e u b) s = execAluXor e u b s := rfl
@[simp] theorem exec_aluAndn {e} {u} {b} {s} : exec (.aluAndn e u b) s = execAluAndn e u b s := rfl
@[simp] theorem exec_aluMin {e} {u} {b} {s} : exec (.aluMin e u b) s = execAluMin e u b s := rfl
@[simp] theorem exec_aluMax {e} {u} {b} {s} : exec (.aluMax e u b) s = execAluMax e u b s := rfl
@[simp] theorem exec_aluMinu {e} {u} {b} {s} : exec (.aluMinu e u b) s = execAluMinu e u b s := rfl
@[simp] theorem exec_aluMaxu {e} {u} {b} {s} : exec (.aluMaxu e u b) s = execAluMaxu e u b s := rfl
@[simp] theorem exec_aluAbs {e} {u} {b} {s} : exec (.aluAbs e u b) s = execAluAbs e u b s := rfl
@[simp] theorem exec_aluNeg {e} {u} {b} {s} : exec (.aluNeg e u b) s = execAluNeg e u b s := rfl
@[simp] theorem exec_aluSeq {e} {u} {b} {s} : exec (.aluSeq e u b) s = execAluSeq e u b s := rfl
@[simp] theorem exec_aluSlt {e} {u} {b} {s} : exec (.aluSlt e u b) s = execAluSlt e u b s := rfl
@[simp] theorem exec_aluSltu {e} {u} {b} {s} : exec (.aluSltu e u b) s = execAluSltu e u b s := rfl
@[simp] theorem exec_aluAdds {e} {u} {b} {s} : exec (.aluAdds e u b) s = execAluAdds e u b s := rfl
@[simp] theorem exec_aluSubs {e} {u} {b} {s} : exec (.aluSubs e u b) s = execAluSubs e u b s := rfl
@[simp] theorem exec_aluPass {e} {u} {b} {s} : exec (.aluPass e u b) s = execAluPass e u b s := rfl
@[simp] theorem exec_mulMuls {e} {b} {s} : exec (.mulMuls e b) s = execMulMuls e b s := rfl
@[simp] theorem exec_mulMulu {e} {b} {s} : exec (.mulMulu e b) s = execMulMulu e b s := rfl
@[simp] theorem exec_mulMulsu {e} {b} {s} : exec (.mulMulsu e b) s = execMulMulsu e b s := rfl
@[simp] theorem exec_mulMac {e} {b} {s} : exec (.mulMac e b) s = execMulMac e b s := rfl
@[simp] theorem exec_mulMsu {e} {b} {s} : exec (.mulMsu e b) s = execMulMsu e b s := rfl
@[simp] theorem exec_mulComplete {e} {s} : exec (.mulComplete e) s = execMulComplete e s := rfl
@[simp] theorem exec_divDivs {e} {b} {s} : exec (.divDivs e b) s = execDivDivs e b s := rfl
@[simp] theorem exec_divDivu {e} {b} {s} : exec (.divDivu e b) s = execDivDivu e b s := rfl
@[simp] theorem exec_divComplete {e} {s} : exec (.divComplete e) s = execDivComplete e s := rfl
@[simp] theorem exec_shShl {e} {b} {s} : exec (.shShl e b) s = execShShl e b s := rfl
@[simp] theorem exec_shShr {e} {b} {s} : exec (.shShr e b) s = execShShr e b s := rfl
@[simp] theorem exec_shSar {e} {b} {s} : exec (.shSar e b) s = execShSar e b s := rfl
@[simp] theorem exec_shRol {e} {b} {s} : exec (.shRol e b) s = execShRol e b s := rfl
@[simp] theorem exec_shRor {e} {b} {s} : exec (.shRor e b) s = execShRor e b s := rfl
@[simp] theorem exec_shExtu {e} {b} {s} : exec (.shExtu e b) s = execShExtu e b s := rfl
@[simp] theorem exec_shExts {e} {b} {s} : exec (.shExts e b) s = execShExts e b s := rfl
@[simp] theorem exec_shIns {e} {b} {s} : exec (.shIns e b) s = execShIns e b s := rfl
@[simp] theorem exec_shClz {e} {b} {s} : exec (.shClz e b) s = execShClz e b s := rfl
@[simp] theorem exec_shCtz {e} {b} {s} : exec (.shCtz e b) s = execShCtz e b s := rfl
@[simp] theorem exec_shPopc {e} {b} {s} : exec (.shPopc e b) s = execShPopc e b s := rfl
@[simp] theorem exec_shBrev {e} {b} {s} : exec (.shBrev e b) s = execShBrev e b s := rfl
@[simp] theorem exec_shBswap {e} {b} {s} : exec (.shBswap e b) s = execShBswap e b s := rfl
@[simp] theorem exec_shBswap4 {e} {b} {s} : exec (.shBswap4 e b) s = execShBswap4 e b s := rfl
@[simp] theorem exec_shBswap2 {e} {b} {s} : exec (.shBswap2 e b) s = execShBswap2 e b s := rfl
@[simp] theorem exec_agLd {e} {n} {w} {s} : exec (.agLd e n w) s = execAgLd e n w s := rfl
@[simp] theorem exec_agLdx {e} {n} {v} {w} {s} : exec (.agLdx e n v w) s = execAgLdx e n v w s := rfl
@[simp] theorem exec_agSt {e} {n} {v} {w} {s} : exec (.agSt e n v w) s = execAgSt e n v w s := rfl
@[simp] theorem exec_agLr {e} {n} {w} {s} : exec (.agLr e n w) s = execAgLr e n w s := rfl
@[simp] theorem exec_agSc {e} {n} {v} {w} {s} : exec (.agSc e n v w) s = execAgSc e n v w s := rfl
@[simp] theorem exec_agSync {e} {n} {s} : exec (.agSync e n) s = execAgSync e n s := rfl
@[simp] theorem exec_loadComplete {e} {n} {s} : exec (.loadComplete e n) s = execLoadComplete e n s := rfl
@[simp] theorem exec_storeComplete {e} {ix} {s} : exec (.storeComplete e ix) s = execStoreComplete e ix s := rfl
@[simp] theorem exec_busErrorResponse {e} {n} {store} {s} : exec (.busErrorResponse e n store) s = execBusErrorResponse e n store s := rfl
@[simp] theorem exec_icacheFill {e} {which} {data} {err} {evict} {s} : exec (.icacheFill e which data err evict) s = execIcacheFill e which data err evict s := rfl
@[simp] theorem exec_tableWalk {e} {s} : exec (.tableWalk e) s = execTableWalk e s := rfl
@[simp] theorem exec_walkReadDone {e} {data} {err} {s} : exec (.walkReadDone e data err) s = execWalkReadDone e data err s := rfl
@[simp] theorem exec_brJmp {e} {v} {s} : exec (.brJmp e v) s = execBrJmp e v s := rfl
@[simp] theorem exec_brCall {e} {v} {s} : exec (.brCall e v) s = execBrCall e v s := rfl
@[simp] theorem exec_icInv {e} {v} {s} : exec (.icInv e v) s = execIcInv e v s := rfl
@[simp] theorem exec_icInvall {e} {s} : exec (.icInvall e) s = execIcInvall e s := rfl
@[simp] theorem exec_loopCntWrite {e} {v} {s} : exec (.loopCntWrite e v) s = execLoopCntWrite e v s := rfl
@[simp] theorem exec_excRet {e} {s} : exec (.excRet e) s = execExcRet e s := rfl
@[simp] theorem exec_excSwi {e} {v} {s} : exec (.excSwi e v) s = execExcSwi e v s := rfl
@[simp] theorem exec_excWdkick {e} {s} : exec (.excWdkick e) s = execExcWdkick e s := rfl
@[simp] theorem exec_excSrWrite {e} {v} {s} : exec (.excSrWrite e v) s = execExcSrWrite e v s := rfl
@[simp] theorem exec_semTake {e} {d} {s} : exec (.semTake e d) s = execSemTake e d s := rfl
@[simp] theorem exec_semGive {e} {v} {s} : exec (.semGive e v) s = execSemGive e v s := rfl
@[simp] theorem exec_edbRing {e} {v} {s} : exec (.edbRing e v) s = execEdbRing e v s := rfl
@[simp] theorem exec_edbClr {e} {v} {s} : exec (.edbClr e v) s = execEdbClr e v s := rfl
@[simp] theorem exec_msgSend {e} {v} {s} : exec (.msgSend e v) s = execMsgSend e v s := rfl
@[simp] theorem exec_msgDeliver {src} {tgt} {s} : exec (.msgDeliver src tgt) s = execMsgDeliver src tgt s := rfl
@[simp] theorem exec_msgRecv {e} {d} {s} : exec (.msgRecv e d) s = execMsgRecv e d s := rfl
@[simp] theorem exec_hdbRing {m} {v} {s} : exec (.hdbRing m v) s = execHdbRing m v s := rfl
@[simp] theorem exec_hdbClr {m} {v} {s} : exec (.hdbClr m v) s = execHdbClr m v s := rfl
@[simp] theorem exec_sqRxpop {c} {v} {s} : exec (.sqRxpop c v) s = execSqRxpop c v s := rfl
@[simp] theorem exec_sqEvpop {c} {v} {s} : exec (.sqEvpop c v) s = execSqEvpop c v s := rfl
@[simp] theorem exec_sqCmdpush {c} {s} : exec (.sqCmdpush c) s = execSqCmdpush c s := rfl
@[simp] theorem exec_crcD1 {e} {v} {s} : exec (.crcD1 e v) s = execCrcD1 e v s := rfl
@[simp] theorem exec_crcD2 {e} {v} {s} : exec (.crcD2 e v) s = execCrcD2 e v s := rfl
@[simp] theorem exec_crcD4 {e} {v} {s} : exec (.crcD4 e v) s = execCrcD4 e v s := rfl
@[simp] theorem exec_crcD6 {e} {v} {s} : exec (.crcD6 e v) s = execCrcD6 e v s := rfl
@[simp] theorem exec_tmHi {e} {k} {d} {s} : exec (.tmHi e k d) s = execTmHi e k d s := rfl
@[simp] theorem exec_tmLo {e} {k} {d} {s} : exec (.tmLo e k d) s = execTmLo e k d s := rfl
@[simp] theorem exec_tmAdjRead {e} {k} {d} {s} : exec (.tmAdjRead e k d) s = execTmAdjRead e k d s := rfl
@[simp] theorem exec_tmAdjWrite {e} {k} {v} {s} : exec (.tmAdjWrite e k v) s = execTmAdjWrite e k v s := rfl
@[simp] theorem exec_tmCmp {c} {v} {s} : exec (.tmCmp c v) s = execTmCmp c v s := rfl
@[simp] theorem exec_tmCap {c} {d} {s} : exec (.tmCap c d) s = execTmCap c d s := rfl
@[simp] theorem exec_trcNote {e} {t} {v} {s} : exec (.trcNote e t v) s = execTrcNote e t v s := rfl
@[simp] theorem exec_tlbWi {e} {d} {s} : exec (.tlbWi e d) s = execTlbWi e d s := rfl
@[simp] theorem exec_tlbWd {e} {d} {s} : exec (.tlbWd e d) s = execTlbWd e d s := rfl
@[simp] theorem exec_tlbW2 {e} {d} {s} : exec (.tlbW2 e d) s = execTlbW2 e d s := rfl
@[simp] theorem exec_tlbProbe {e} {d} {s} : exec (.tlbProbe e d) s = execTlbProbe e d s := rfl
@[simp] theorem exec_tlbInvva {e} {d} {s} : exec (.tlbInvva e d) s = execTlbInvva e d s := rfl
@[simp] theorem exec_tlbInvall {e} {d} {s} : exec (.tlbInvall e d) s = execTlbInvall e d s := rfl
@[simp] theorem exec_tlbInv2 {e} {d} {s} : exec (.tlbInv2 e d) s = execTlbInv2 e d s := rfl
@[simp] theorem exec_tlbInv2all {e} {d} {s} : exec (.tlbInv2all e d) s = execTlbInv2all e d s := rfl
@[simp] theorem exec_huskWrite {e} {s} : exec (.huskWrite e) s = execHuskWrite e s := rfl
@[simp] theorem exec_huskRead {e} {s} : exec (.huskRead e) s = execHuskRead e s := rfl
@[simp] theorem exec_hskAck {data} {err} {s} : exec (.hskAck data err) s = execHskAck data err s := rfl
@[simp] theorem exec_huskTimeout {s} : exec .huskTimeout s = execHuskTimeout s := rfl
@[simp] theorem exec_hskInt {e} {level} {s} : exec (.hskInt e level) s = execHskInt e level s := rfl
@[simp] theorem exec_spOwnerWrite {ix} {v} {s} : exec (.spOwnerWrite ix v) s = execSpOwnerWrite ix v s := rfl
@[simp] theorem exec_spHandoverDone {ix} {s} : exec (.spHandoverDone ix) s = execSpHandoverDone ix s := rfl
@[simp] theorem exec_setAliasWrite {req} {a} {bs} {s} : exec (.setAliasWrite req a bs) s = execSetAliasWrite req a bs s := rfl
@[simp] theorem exec_clearAliasWrite {req} {a} {bs} {s} : exec (.clearAliasWrite req a bs) s = execClearAliasWrite req a bs s := rfl
@[simp] theorem exec_semTakeRead {k} {s} : exec (.semTakeRead k) s = execSemTakeRead k s := rfl
@[simp] theorem exec_semGiveWrite {k} {s} : exec (.semGiveWrite k) s = execSemGiveWrite k s := rfl
@[simp] theorem exec_semForce {m} {s} : exec (.semForce m) s = execSemForce m s := rfl
@[simp] theorem exec_eccWriteback {k} {s} : exec (.eccWriteback k) s = execEccWriteback k s := rfl
@[simp] theorem exec_granaryTestStart {s} : exec .granaryTestStart s = execGranaryTestStart s := rfl
@[simp] theorem exec_granaryCopyDone {s} : exec .granaryCopyDone s = execGranaryCopyDone s := rfl
@[simp] theorem exec_granaryMarchDone {bad} {s} : exec (.granaryMarchDone bad) s = execGranaryMarchDone bad s := rfl
@[simp] theorem exec_memtGran {s} : exec .memtGran s = execMemtGran s := rfl
@[simp] theorem exec_memtSp {ix} {s} : exec (.memtSp ix) s = execMemtSp ix s := rfl
@[simp] theorem exec_scratchpadLoan {s} : exec .scratchpadLoan s = execScratchpadLoan s := rfl
@[simp] theorem exec_loanEnd {mismatch} {s} : exec (.loanEnd mismatch) s = execLoanEnd mismatch s := rfl
@[simp] theorem exec_shootdownGo {eng} {l2} {all} {ic} {s} : exec (.shootdownGo eng l2 all ic) s = execShootdownGo eng l2 all ic s := rfl
@[simp] theorem exec_shootdownDone {s} : exec .shootdownDone s = execShootdownDone s := rfl
@[simp] theorem exec_h2bWrite {sec} {c} {w} {v} {s} : exec (.h2bWrite sec c w v) s = execH2bWrite sec c w v s := rfl
@[simp] theorem exec_bbRing {sec} {c} {v} {s} : exec (.bbRing sec c v) s = execBbRing sec c v s := rfl
@[simp] theorem exec_hbClear {sec} {c} {v} {s} : exec (.hbClear sec c v) s = execHbClear sec c v s := rfl
@[simp] theorem exec_crossing {c} {s} : exec (.crossing c) s = execCrossing c s := rfl
@[simp] theorem exec_commandConsume {c} {s} : exec (.commandConsume c) s = execCommandConsume c s := rfl
@[simp] theorem exec_replyPost {c} {s} : exec (.replyPost c) s = execReplyPost c s := rfl
@[simp] theorem exec_counterPoll {s} : exec .counterPoll s = execCounterPoll s := rfl
@[simp] theorem exec_hostNop {c} {tag} {s} : exec (.hostNop c tag) s = execHostNop c tag s := rfl
@[simp] theorem exec_abort {c} {s} : exec (.abort c) s = execAbort c s := rfl
@[simp] theorem exec_info {c} {tag} {s} : exec (.info c tag) s = execInfo c tag s := rfl
@[simp] theorem exec_reset {c} {tag} {s} : exec (.reset c tag) s = execReset c tag s := rfl
@[simp] theorem exec_resetTakeEffect {s} : exec .resetTakeEffect s = execResetTakeEffect s := rfl
@[simp] theorem exec_engstart {c} {tag} {s} : exec (.engstart c tag) s = execEngstart c tag s := rfl
@[simp] theorem exec_engstop {c} {tag} {s} : exec (.engstop c tag) s = execEngstop c tag s := rfl
@[simp] theorem exec_events {c} {tag} {s} : exec (.events c tag) s = execEvents c tag s := rfl
@[simp] theorem exec_imginfo {c} {tag} {flash} {s} : exec (.imginfo c tag flash) s = execImginfo c tag flash s := rfl
@[simp] theorem exec_imgwrite {c} {tag} {ext} {err} {fail} {late} {s} : exec (.imgwrite c tag ext err fail late) s = execImgwrite c tag ext err fail late s := rfl
@[simp] theorem exec_imgverify {c} {tag} {flash} {keyHash} {mono} {late} {s} : exec (.imgverify c tag flash keyHash mono late) s = execImgverify c tag flash keyHash mono late s := rfl
@[simp] theorem exec_imgselect {c} {tag} {s} : exec (.imgselect c tag) s = execImgselect c tag s := rfl
@[simp] theorem exec_porten {c} {tag} {late} {s} : exec (.porten c tag late) s = execPorten c tag late s := rfl
@[simp] theorem exec_portcfg {c} {tag} {s} : exec (.portcfg c tag) s = execPortcfg c tag s := rfl
@[simp] theorem exec_portstat {c} {tag} {s} : exec (.portstat c tag) s = execPortstat c tag s := rfl
@[simp] theorem exec_csload {c} {tag} {late} {s} : exec (.csload c tag late) s = execCsload c tag late s := rfl
@[simp] theorem exec_wpwrite {c} {tag} {s} : exec (.wpwrite c tag) s = execWpwrite c tag s := rfl
@[simp] theorem exec_wpswitch {c} {tag} {late} {s} : exec (.wpswitch c tag late) s = execWpswitch c tag late s := rfl
@[simp] theorem exec_wpread {c} {tag} {s} : exec (.wpread c tag) s = execWpread c tag s := rfl
@[simp] theorem exec_timeget {c} {tag} {s} : exec (.timeget c tag) s = execTimeget c tag s := rfl
@[simp] theorem exec_timeset {c} {tag} {s} : exec (.timeset c tag) s = execTimeset c tag s := rfl
@[simp] theorem exec_timeadj {c} {tag} {s} : exec (.timeadj c tag) s = execTimeadj c tag s := rfl
@[simp] theorem exec_ptpcfg {c} {tag} {s} : exec (.ptpcfg c tag) s = execPtpcfg c tag s := rfl
@[simp] theorem exec_ringctl {c} {tag} {s} : exec (.ringctl c tag) s = execRingctl c tag s := rfl
@[simp] theorem exec_ringstat {c} {tag} {s} : exec (.ringstat c tag) s = execRingstat c tag s := rfl
@[simp] theorem exec_routeset {c} {tag} {s} : exec (.routeset c tag) s = execRouteset c tag s := rfl
@[simp] theorem exec_slotreq {c} {tag} {s} : exec (.slotreq c tag) s = execSlotreq c tag s := rfl
@[simp] theorem exec_twinstat {c} {tag} {s} : exec (.twinstat c tag) s = execTwinstat c tag s := rfl
@[simp] theorem exec_handover {c} {tag} {late} {s} : exec (.handover c tag late) s = execHandover c tag late s := rfl
@[simp] theorem exec_resync {c} {tag} {late} {s} : exec (.resync c tag late) s = execResync c tag late s := rfl
@[simp] theorem exec_twinlevel {c} {tag} {s} : exec (.twinlevel c tag) s = execTwinlevel c tag s := rfl
@[simp] theorem exec_mtpolicy {c} {tag} {s} : exec (.mtpolicy c tag) s = execMtpolicy c tag s := rfl
@[simp] theorem exec_mtstatus {c} {tag} {s} : exec (.mtstatus c tag) s = execMtstatus c tag s := rfl
@[simp] theorem exec_spowner {c} {tag} {s} : exec (.spowner c tag) s = execSpowner c tag s := rfl
@[simp] theorem exec_semfree {c} {tag} {s} : exec (.semfree c tag) s = execSemfree c tag s := rfl
@[simp] theorem exec_mode {c} {tag} {late} {s} : exec (.mode c tag late) s = execMode c tag late s := rfl
@[simp] theorem exec_grist {c} {tag} {s} : exec (.grist c tag) s = execGrist c tag s := rfl
@[simp] theorem exec_gristget {c} {tag} {s} : exec (.gristget c tag) s = execGristget c tag s := rfl
@[simp] theorem exec_permitstat {c} {tag} {s} : exec (.permitstat c tag) s = execPermitstat c tag s := rfl
@[simp] theorem exec_counters {c} {tag} {s} : exec (.counters c tag) s = execCounters c tag s := rfl
@[simp] theorem exec_faultlog {c} {tag} {s} : exec (.faultlog c tag) s = execFaultlog c tag s := rfl
@[simp] theorem exec_echo {c} {tag} {s} : exec (.echo c tag) s = execEcho c tag s := rfl
@[simp] theorem exec_dmaGo {c} {sec} {s} : exec (.dmaGo c sec) s = execDmaGo c sec s := rfl
@[simp] theorem exec_dmaDescriptorRead {c} {ext} {err} {s} : exec (.dmaDescriptorRead c ext err) s = execDmaDescriptorRead c ext err s := rfl
@[simp] theorem exec_dmaChunk {c} {ext} {err} {werr} {s} : exec (.dmaChunk c ext err werr) s = execDmaChunk c ext err werr s := rfl
@[simp] theorem exec_dmaAbort {c} {s} : exec (.dmaAbort c) s = execDmaAbort c s := rfl
@[simp] theorem exec_crySha256 {ext} {err} {s} : exec (.crySha256 ext err) s = execCrySha256 ext err s := rfl
@[simp] theorem exec_cryHmac {ext} {err} {s} : exec (.cryHmac ext err) s = execCryHmac ext err s := rfl
@[simp] theorem exec_cryVerify {ext} {err} {s} : exec (.cryVerify ext err) s = execCryVerify ext err s := rfl
@[simp] theorem exec_cryEncrypt {ext} {aad} {err} {werr} {s} : exec (.cryEncrypt ext aad err werr) s = execCryEncrypt ext aad err werr s := rfl
@[simp] theorem exec_cryDecrypt {ext} {aad} {err} {werr} {s} : exec (.cryDecrypt ext aad err werr) s = execCryDecrypt ext aad err werr s := rfl
@[simp] theorem exec_cryReservedOp {s} : exec .cryReservedOp s = execCryReservedOp s := rfl
@[simp] theorem exec_cryDone {s} : exec .cryDone s = execCryDone s := rfl
@[simp] theorem exec_cryAbort {s} : exec .cryAbort s = execCryAbort s := rfl
@[simp] theorem exec_powerRequest {d} {m} {s} : exec (.powerRequest d m) s = execPowerRequest d m s := rfl
@[simp] theorem exec_pchAck {keyHash} {s} : exec (.pchAck keyHash) s = execPchAck keyHash s := rfl
@[simp] theorem exec_pchTimeout {s} : exec .pchTimeout s = execPchTimeout s := rfl
@[simp] theorem exec_pchWake {s} : exec .pchWake s = execPchWake s := rfl
@[simp] theorem exec_wakeTimer {s} : exec .wakeTimer s = execWakeTimer s := rfl
@[simp] theorem exec_enginePark {m} {s} : exec (.enginePark m) s = execEnginePark m s := rfl
@[simp] theorem exec_engineWake {e} {s} : exec (.engineWake e) s = execEngineWake e s := rfl
@[simp] theorem exec_blockWatchdogExpiry {s} : exec .blockWatchdogExpiry s = execBlockWatchdogExpiry s := rfl
@[simp] theorem exec_glbWdogKick {s} : exec .glbWdogKick s = execGlbWdogKick s := rfl
@[simp] theorem exec_permitRequest {r} {op} {s} : exec (.permitRequest r op) s = execPermitRequest r op s := rfl
@[simp] theorem exec_permitGrant {s} : exec .permitGrant s = execPermitGrant s := rfl
@[simp] theorem exec_permitRelease {r} {s} : exec (.permitRelease r) s = execPermitRelease r s := rfl
@[simp] theorem exec_budgetChange {s} : exec .budgetChange s = execBudgetChange s := rfl
@[simp] theorem exec_slaveAccess {write} {cnt} {sz} {wrap} {tag} {sec} {addr} {beats} {credit} {s} : exec (.slaveAccess write cnt sz wrap tag sec addr beats credit) s = execSlaveAccess write cnt sz wrap tag sec addr beats credit s := rfl
@[simp] theorem exec_registerWrite {sec} {a} {v} {s} : exec (.registerWrite sec a v) s = execRegisterWrite sec a v s := rfl
@[simp] theorem exec_masterResponse {e} {wr} {data} {err} {credit} {s} : exec (.masterResponse e wr data err credit) s = execMasterResponse e wr data err credit s := rfl
@[simp] theorem exec_blTxd {k} {v} {s} : exec (.blTxd k v) s = execBlTxd k v s := rfl
@[simp] theorem exec_blTransmitStart {k} {s} : exec (.blTransmitStart k) s = execBlTransmitStart k s := rfl
@[simp] theorem exec_blTransmitEnd {k} {lost} {s} : exec (.blTransmitEnd k lost) s = execBlTransmitEnd k lost s := rfl
@[simp] theorem exec_blReceive {k} {data} {err} {par} {s} : exec (.blReceive k data err par) s = execBlReceive k data err par s := rfl
@[simp] theorem exec_blRxdRead {k} {s} : exec (.blRxdRead k) s = execBlRxdRead k s := rfl
@[simp] theorem exec_blTstart {k} {v} {s} : exec (.blTstart k v) s = execBlTstart k v s := rfl
@[simp] theorem exec_timedStartDue {k} {s} : exec (.timedStartDue k) s = execTimedStartDue k s := rfl
@[simp] theorem exec_blDisarm {k} {s} : exec (.blDisarm k) s = execBlDisarm k s := rfl
@[simp] theorem exec_debugUnlock {v} {s} : exec (.debugUnlock v) s = execDebugUnlock v s := rfl
@[simp] theorem exec_unlockEraseDone {s} : exec .unlockEraseDone s = execUnlockEraseDone s := rfl
@[simp] theorem exec_tapAccess {a} {write} {active} {v} {s} : exec (.tapAccess a write active v) s = execTapAccess a write active v s := rfl
@[simp] theorem exec_tapIdent {s} : exec .tapIdent s = execTapIdent s := rfl
@[simp] theorem exec_haltRequest {m} {s} : exec (.haltRequest m) s = execHaltRequest m s := rfl
@[simp] theorem exec_engineHalt {e} {s} : exec (.engineHalt e) s = execEngineHalt e s := rfl
@[simp] theorem exec_hgGo {g} {s} : exec (.hgGo g) s = execHgGo g s := rfl
@[simp] theorem exec_hgResume {g} {s} : exec (.hgResume g) s = execHgResume g s := rfl
@[simp] theorem exec_debugResume {m} {s} : exec (.debugResume m) s = execDebugResume m s := rfl
@[simp] theorem exec_debugStep {m} {s} : exec (.debugStep m) s = execDebugStep m s := rfl
@[simp] theorem exec_debugPcWrite {e} {v} {s} : exec (.debugPcWrite e v) s = execDebugPcWrite e v s := rfl
@[simp] theorem exec_pdataRead {e} {s} : exec (.pdataRead e) s = execPdataRead e s := rfl
@[simp] theorem exec_pdataWrite {e} {v} {s} : exec (.pdataWrite e v) s = execPdataWrite e v s := rfl
@[simp] theorem exec_traceEnable {on} {s} : exec (.traceEnable on) s = execTraceEnable on s := rfl
@[simp] theorem exec_traceSync {s} : exec .traceSync s = execTraceSync s := rfl
@[simp] theorem exec_scanMode {s} : exec .scanMode s = execScanMode s := rfl
@[simp] theorem exec_pchAckFall {s} : exec .pchAckFall s = execPchAckFall s := rfl
@[simp] theorem exec_rcRead {sec} {a} {s} : exec (.rcRead sec a) s = execRcRead sec a s := rfl
@[simp] theorem exec_creditGrant {lane} {s} : exec (.creditGrant lane) s = execCreditGrant lane s := rfl
@[simp] theorem exec_tapReset {s} : exec .tapReset s = execTapReset s := rfl
@[simp] theorem exec_ieee8023brVerification {p} {s} : exec (.ieee8023brVerification p) s = execIeee8023brVerification p s := rfl

end Sys2Proof.Machine
end

