-- ==== Sys2Proof/Laws/Memory.lean ====
section
/-! SUPPORT. On-block memory: a read after a write, a write leaves every other byte alone, and every write keeps the canonical
form. -/

namespace Sys2Proof.Machine

theorem lookup_append_lt {α : Type} {k : Nat} {l m : List (Nat × α)} (h : ∀ x ∈ l, x.1 ≠ k) : lookup k (l ++ m) = lookup k m := by
  induction l with
  | nil => rfl
  | cons e t ih =>
    show lookup k (e :: (t ++ m)) = _
    simp only [lookup]; rw [if_neg (h e (List.mem_cons_self))]
    exact ih (fun x hx => h x (List.mem_cons_of_mem _ hx))

theorem lookup_append_none {α : Type} {k : Nat} {l m : List (Nat × α)} (h : ∀ x ∈ m, x.1 ≠ k) : lookup k (l ++ m) = lookup k l := by
  induction l with
  | nil =>
    show lookup k m = none
    induction m with
    | nil => rfl
    | cons e t ih =>
      simp only [lookup]; rw [if_neg (h e (List.mem_cons_self))]
      exact ih (fun x hx => h x (List.mem_cons_of_mem _ hx))
  | cons e t ih =>
    show lookup k (e :: (t ++ m)) = lookup k (e :: t)
    simp only [lookup]; rw [ih]

theorem lookup_filter {α : Type} {k : Nat} (f : Nat → Bool) (l : List (Nat × α)) (h : f k = true) :
    lookup k (l.filter (fun e => f e.1)) = lookup k l := by
  induction l with
  | nil => rfl
  | cons e t ih =>
    simp only [List.filter]
    split
    · simp only [lookup]; rw [ih]
    · rename_i hf
      simp only [lookup]
      rw [ih, if_neg (fun he => by rw [he, h] at hf; exact absurd hf (by simp))]

theorem mem_runCells {a : Nat} {bs : List Byte} {x : Nat × Byte} (h : x ∈ runCells a bs) :
    a ≤ x.1 ∧ x.1 < a + bs.length ∧ x.2 ≠ 0 := by
  induction bs generalizing a with
  | nil => simp [runCells] at h
  | cons b t ih =>
    simp only [runCells] at h
    split at h
    · have := ih h; simp only [List.length_cons]; exact ⟨by omega, by omega, this.2.2⟩
    · rename_i hb
      cases h with
      | head => simp only [List.length_cons]; exact ⟨by omega, by omega, hb⟩
      | tail _ h => have := ih h; simp only [List.length_cons]; exact ⟨by omega, by omega, this.2.2⟩

theorem sortedKeys_runCells (a : Nat) (bs : List Byte) : sortedKeys (runCells a bs) = true := by
  induction bs generalizing a with
  | nil => rfl
  | cons b t ih =>
    simp only [runCells]
    split
    · exact ih (a + 1)
    · exact sortedKeys_cons (ih (a + 1)) (fun x hx => (mem_runCells hx).1)

theorem lookup_runCells (a i : Nat) (bs : List Byte) (h : i < bs.length) :
    (lookup (a + i) (runCells a bs)).getD 0 = bs.getD i 0 := by
  induction bs generalizing a i with
  | nil => simp at h
  | cons b t ih =>
    simp only [runCells]
    cases i with
    | zero =>
      split
      · rename_i hb
        rw [lookup_none_of_lt (fun x hx => by have := (mem_runCells hx).1; omega)]; simp [hb]
      · simp [lookup]
    | succ i =>
      have e : a + (i + 1) = a + 1 + i := by omega
      have hi : i < t.length := by simpa using h
      split
      · rw [e, ih (a + 1) i hi]; simp
      · simp only [lookup]; rw [if_neg (by omega), e, ih (a + 1) i hi]; simp

/-- A byte of memory after a run of bytes has been written. -/
theorem memByte_memSetAll (m : List Host.Cell) (a k : Nat) (bs : List Byte) :
    memByte (memSetAll m a bs) k = if a ≤ k ∧ k < a + bs.length then bs.getD (k - a) 0 else memByte m k := by
  unfold memByte memSetAll
  split
  · rename_i h
    rw [lookup_append_lt (fun x hx => by
      have := (List.mem_filter.mp hx).2; simp only [decide_eq_true_eq] at this; omega)]
    rw [lookup_append_none (fun x hx => by
      have := (List.mem_filter.mp hx).2; simp only [decide_eq_true_eq] at this; omega)]
    have e : k = a + (k - a) := by omega
    conv => lhs; rw [e]
    exact lookup_runCells a (k - a) bs (by omega)
  · rename_i h
    by_cases hk : k < a
    · rw [lookup_append_none (fun x hx => by
        cases List.mem_append.mp hx with
        | inl hx => have := (mem_runCells hx).1; omega
        | inr hx => have := (List.mem_filter.mp hx).2; simp only [decide_eq_true_eq] at this; omega)]
      rw [lookup_filter (fun j => decide (j < a)) m (by simpa using hk)]
    · rw [lookup_append_lt (fun x hx => by
        have := (List.mem_filter.mp hx).2; simp only [decide_eq_true_eq] at this; omega)]
      rw [lookup_append_lt (fun x hx => by have := (mem_runCells hx).2.1; omega)]
      rw [lookup_filter (fun j => decide (a + bs.length ≤ j)) m (by simp only [decide_eq_true_eq]; omega)]

/-- Writing one byte keeps the canonical form. -/
theorem wf_memSet (m : List Host.Cell) (a : Nat) (v : Byte) (h : Memory.wf m) : Memory.wf (memSet m a v) :=
  canonical_putAt 0 v a h

/-- Writing a run of bytes keeps the canonical form. -/
theorem wf_memSetAll (m : List Host.Cell) (a : Nat) (bs : List Byte) (h : Memory.wf m) : Memory.wf (memSetAll m a bs) := by
  have h1 := canonical_filter (0 : Byte) (fun e => decide (e.1 < a)) h
  have h2 := canonical_filter (0 : Byte) (fun e => decide (a + bs.length ≤ e.1)) h
  simp only [Memory.wf, canonical, Bool.and_eq_true, List.all_eq_true, decide_eq_true_eq] at h1 h2 ⊢
  unfold memSetAll
  constructor
  · refine sortedKeys_append h1.1 (sortedKeys_append (sortedKeys_runCells a bs) h2.1 ?_) ?_
    · intro x hx y hy
      have := (mem_runCells hx).2.1
      have := (List.mem_filter.mp hy).2
      simp only [decide_eq_true_eq] at this; omega
    · intro x hx y hy
      have hx := (List.mem_filter.mp hx).2
      simp only [decide_eq_true_eq] at hx
      cases List.mem_append.mp hy with
      | inl hy => have := (mem_runCells hy).1; omega
      | inr hy => have := (List.mem_filter.mp hy).2; simp only [decide_eq_true_eq] at this; omega
  · intro x hx
    cases List.mem_append.mp hx with
    | inl hx => exact h1.2 x hx
    | inr hx =>
      cases List.mem_append.mp hx with
      | inl hx => exact (mem_runCells hx).2.2
      | inr hx => exact h2.2 x hx

/-- A fold of updates that leave the memory alone leaves it alone. -/
theorem foldl_mem {α : Type} (g : State → α → State) (hg : ∀ t x, (g t x).mem = t.mem) (l : List α) (s : State) :
    (l.foldl g s).mem = s.mem := by
  induction l generalizing s with
  | nil => rfl
  | cons x l ih => rw [List.foldl_cons, ih, hg]

@[simp] theorem State.loseRows_mem (s : State) (a n : Nat) (by' : Option Nat) : (s.loseRows a n by').mem = s.mem := rfl

@[simp] theorem State.captureWrite_mem (s : State) (a : Nat) (bs : List Byte) : (s.captureWrite a bs).mem = s.mem := by
  unfold State.captureWrite; split <;> rfl

@[simp] theorem State.markPages_mem (s : State) (a n : Nat) : (s.markPages a n).mem = s.mem := by
  unfold State.markPages; split
  · split <;> rfl
  · rfl

@[simp] theorem State.storeBy_mem (s : State) (by' : Option Nat) (a : Nat) (bs : List Byte) :
    (s.storeBy by' a bs).mem = memSetAll s.mem a bs := by
  unfold State.storeBy
  simp only [State.markPages_mem, State.captureWrite_mem, State.loseRows_mem]
  rw [foldl_mem (fun t (e : Nat × Bool) => countCe e.1 t) (fun _ _ => rfl)]

@[simp] theorem State.store_mem (s : State) (a : Nat) (bs : List Byte) : (s.store a bs).mem = memSetAll s.mem a bs :=
  State.storeBy_mem s none a bs

/-- A write keeps memory in its canonical form. -/
theorem State.store_wf (s : State) (a : Nat) (bs : List Byte) (h : Memory.wf s.mem) : Memory.wf (s.store a bs).mem := by
  rw [State.store_mem]; exact wf_memSetAll _ _ _ h

/-- Read after write, and every other byte is left alone. -/
theorem State.byte_store (s : State) (a k : Nat) (bs : List Byte) :
    (s.store a bs).byte k = if a ≤ k ∧ k < a + bs.length then bs.getD (k - a) 0 else s.byte k := by
  simp only [State.byte, State.store_mem, memByte_memSetAll]

/-- The memory after reset is in its canonical form. -/
theorem State.reset_mem_wf : Memory.wf State.reset.mem := rfl

end Sys2Proof.Machine
end

