-- ==== Sys2Proof/Laws/Micro.lean ====
section
/-! SUPPORT. Ports, sequencers and frames: what an update leaves, how updates compose, and how a micro-op command runs. -/

namespace Sys2Proof.Machine

@[simp] theorem port_setPort (s : State) (p : Port) (x : PortSt) : (s.setPort p x).port p = x := by
  simp [State.setPort, State.port]

@[simp] theorem port_modPort (s : State) (p : Port) (g : PortSt → PortSt) : (s.modPort p g).port p = g (s.port p) := by
  simp [State.modPort]

theorem modSeq_modSeq (s : State) (p : Port) (g h : Seq → Seq) :
    (s.modSeq p g).modSeq p h = s.modSeq p (fun q => h (g q)) := by
  simp [State.modSeq, State.modPort, State.setPort, State.port]

theorem port_modSeq (s : State) (p : Port) (g : Seq → Seq) :
    (s.modSeq p g).port p = { s.port p with seq := g (s.port p).seq } := by
  simp [State.modSeq, State.modPort, State.setPort, State.port]

theorem modSeq_congr (s : State) (p : Port) (g h : Seq → Seq) (e : g (s.port p).seq = h (s.port p).seq) :
    s.modSeq p g = s.modSeq p h := by
  simp only [State.modSeq, State.modPort]; rw [e]

@[simp] theorem get_modPort (s : State) (p : Port) (g : PortSt → PortSt) (f : Fld) : (s.modPort p g).get f = s.get f := rfl

@[simp] theorem get_modSeq (s : State) (p : Port) (g : Seq → Seq) (f : Fld) : (s.modSeq p g).get f = s.get f := rfl

@[simp] theorem get_modFrame (s : State) (p : Port) (k : Word) (g : Frame → Frame) (f : Fld) :
    (s.modFrame p k g).get f = s.get f := rfl

@[simp] theorem port_put (s : State) (f : Fld) (v : Nat) (p : Port) : (s.put f v).port p = s.port p := rfl

@[simp] theorem mem_put (s : State) (f : Fld) (v : Nat) : (s.put f v).mem = s.mem := rfl

/-- The frames of a port after one of them has changed. -/
theorem tun_modFrame (s : State) (p : Port) (k : Word) (g : Frame → Frame) :
    ((s.modFrame p k g).port p).tun = (s.port p).tun.map (fun f => if f.fctr = k then g f else f) := by
  simp [State.modFrame, State.modPort, State.setPort, State.port]

@[simp] theorem Seq.reg_setReg (q : Seq) (r : BitVec 2) (v : Word) : (q.setReg r v).reg r = v := by
  simp [Seq.reg, Seq.setReg]

theorem Seq.reg_setReg_ne (q : Seq) (r i : BitVec 2) (v : Word) (h : i ≠ r) : (q.setReg r v).reg i = q.reg i := by
  have : i.toNat ≠ r.toNat := fun e => h (BitVec.eq_of_toNat_eq e)
  simp only [Seq.reg, Seq.setReg, Fin.getElem_fin, BitVec.val_toFin]
  rw [Vector.getElem_set_ne]; omega

/-- A change of the sequencer and a change of a frame do not meet. -/
theorem modFrame_modSeq (s : State) (p : Port) (k : Word) (g : Frame → Frame) (h : Seq → Seq) :
    (s.modSeq p h).modFrame p k g = (s.modFrame p k g).modSeq p h := by
  simp [State.modFrame, State.modSeq, State.modPort, State.setPort, State.port]

theorem seq_modFrame (s : State) (p : Port) (k : Word) (g : Frame → Frame) :
    ((s.modFrame p k g).port p).seq = (s.port p).seq := by
  simp [State.modFrame, State.modPort, State.setPort, State.port]

/-- A frame access that the window rule allows. -/
theorem frameAccess_ok (p : Port) (s : State) (f : Frame) (o n : Nat) (z g : State) (h : f.touch (s.tunDepth p) o n = .ok) :
    frameAccess p s f o n z g = some g := by simp only [frameAccess, h]

theorem nextU_eq (s : State) (p : Port) (g : Seq → Seq) : nextU p (s.modSeq p g) = microNext s p g := by
  simp only [nextU, jumpU, modSeq_modSeq, port_modSeq, microNext]
  simp only [State.modSeq, State.modPort, State.setPort, State.port]

theorem nextU_eq' (s : State) (p : Port) : nextU p s = microNext s p id := by
  simp only [nextU, jumpU, microNext, State.modSeq, State.modPort, State.setPort, State.port, id]

theorem nextU_def (p : Port) (s : State) :
    nextU p s = s.modSeq p (fun x => { x with upc := (s.port p).seq.upc + 1, fresh := false }) := rfl

/-- A micro-op command at its micro-op answers what the micro-op does, with its fetch noted, and the same state while it
stalls. -/
theorem micro_run {s : State} {p : Port} {f : Frame} {u : UOp} (h : AtMicro s p f u) (g : Frame → UOp → Option State) :
    microCmd p s g = .next (((g f u).map (noteFetch s p)).getD s) := by
  simp [microCmd, h.1, h.2.1, h.2.2]

/-- A wire-op command at its wire op answers what the routine does, with its fetch noted, and the same state while it
stalls. -/
theorem wire_run {s : State} {p : Port} {f : Frame} {n : Nat} (h : AtWire s p f n) (ops : Nat → Bool) (ho : ops n = true)
    (g : Frame → Option State) : wireCmd p s ops g = .next (((g f).map (noteFetch s p)).getD s) := by
  simp [wireCmd, h.1, h.2.1, h.2.2, ho]

/-- NXW where the dispatch entry holds no uncorrectable error; a single-bit error in it is noted. -/
theorem dispatch_sound (s : State) (p : Port) (f : Frame)
    (h : csBad s p (16384 + (BitVec.ofNat 8 ((lookup (1024 * s.get (Reg.WSQ.STAT.WPBANKACT p) + (s.port p).seq.wpc.toNat)
        (s.port p).wpm).getD 0 / 2 ^ 24)).toNat) = false) :
    dispatch s p f =
      let w := (lookup (1024 * s.get (Reg.WSQ.STAT.WPBANKACT p) + (s.port p).seq.wpc.toNat) (s.port p).wpm).getD 0
      noteSoft (s.modSeq p (fun x => { x with
        wpc := x.wpc + 1, wop := BitVec.ofNat 24 w, opc := BitVec.ofNat 8 (w / 2 ^ 24), fresh := true, step := 0, part := 0,
        upc := BitVec.ofNat 14 (s.get (Reg.WSQ.DISP.UADDR p (BitVec.ofNat 8 (w / 2 ^ 24)).toNat)) })) p
          (16384 + (BitVec.ofNat 8 (w / 2 ^ 24)).toNat) := by
  have hb : ∀ g k, csBad (s.modSeq p g) p k = csBad s p k := by intro g k; simp [csBad, port_modSeq]
  unfold dispatch
  simp only [hb, h, Bool.false_eq_true, if_false]

end Sys2Proof.Machine
end

