-- ==== Sys2Proof/Laws/Frames.lean ====
section
/-! SUPPORT. What ending, discarding and abandoning a program leave alone, and what they make of the frame. -/

namespace Sys2Proof.Machine

/-- Set a field, then count: a saturating counter reads one more. -/
theorem State.get_count (s : State) (f : Fld)  :
    (s.count f).get f = min (s.get f + 1) (2 ^ f.w - 1) := by
  have h2 : 0 < 2 ^ f.w := Nat.pow_pos (by omega)
  have e : min (s.get f + 1) (2 ^ f.w - 1) % 2 ^ f.w = min (s.get f + 1) (2 ^ f.w - 1) := Nat.mod_eq_of_lt (by omega)
  unfold State.count
  rw [State.get_put, e]

theorem State.get_count_ne (s : State) (f g : Fld) (h : Fld.key g ≠ Fld.key f) : (s.count f).get g = s.get g :=
  State.get_put_ne s f g _ h

@[simp] theorem mem_modSeq (s : State) (p : Port) (g : Seq → Seq) : (s.modSeq p g).mem = s.mem := rfl
@[simp] theorem ecc_modSeq (s : State) (p : Port) (g : Seq → Seq) : (s.modSeq p g).ecc = s.ecc := rfl
@[simp] theorem clusters_modSeq (s : State) (p : Port) (g : Seq → Seq) : (s.modSeq p g).clusters = s.clusters := rfl
@[simp] theorem time_modSeq (s : State) (p : Port) (g : Seq → Seq) : (s.modSeq p g).time = s.time := rfl
@[simp] theorem eng_modSeq (s : State) (p : Port) (g : Seq → Seq) : (s.modSeq p g).eng = s.eng := rfl
@[simp] theorem out_modSeq (s : State) (p : Port) (g : Seq → Seq) : (s.modSeq p g).out = s.out := rfl
@[simp] theorem free_modSeq (s : State) (p : Port) (g : Seq → Seq) : (s.modSeq p g).free = s.free := rfl
@[simp] theorem pending_modSeq (s : State) (p : Port) (g : Seq → Seq) : (s.modSeq p g).pending = s.pending := rfl
@[simp] theorem cells_modSeq (s : State) (p : Port) (g : Seq → Seq) : (s.modSeq p g).cells = s.cells := rfl
@[simp] theorem mem_modFrame (s : State) (p : Port) (k : Word) (g : Frame → Frame) : (s.modFrame p k g).mem = s.mem := rfl
@[simp] theorem ecc_modFrame (s : State) (p : Port) (k : Word) (g : Frame → Frame) : (s.modFrame p k g).ecc = s.ecc := rfl
@[simp] theorem clusters_modFrame (s : State) (p : Port) (k : Word) (g : Frame → Frame) : (s.modFrame p k g).clusters = s.clusters := rfl
@[simp] theorem time_modFrame (s : State) (p : Port) (k : Word) (g : Frame → Frame) : (s.modFrame p k g).time = s.time := rfl
@[simp] theorem eng_modFrame (s : State) (p : Port) (k : Word) (g : Frame → Frame) : (s.modFrame p k g).eng = s.eng := rfl
@[simp] theorem out_modFrame (s : State) (p : Port) (k : Word) (g : Frame → Frame) : (s.modFrame p k g).out = s.out := rfl
@[simp] theorem free_modFrame (s : State) (p : Port) (k : Word) (g : Frame → Frame) : (s.modFrame p k g).free = s.free := rfl
@[simp] theorem pending_modFrame (s : State) (p : Port) (k : Word) (g : Frame → Frame) : (s.modFrame p k g).pending = s.pending := rfl
@[simp] theorem cells_modFrame (s : State) (p : Port) (k : Word) (g : Frame → Frame) : (s.modFrame p k g).cells = s.cells := rfl
@[simp] theorem mem_raise (s : State) (f : Fld) : (s.raise f).mem = s.mem := rfl
@[simp] theorem ecc_raise (s : State) (f : Fld) : (s.raise f).ecc = s.ecc := rfl
@[simp] theorem clusters_raise (s : State) (f : Fld) : (s.raise f).clusters = s.clusters := rfl
@[simp] theorem time_raise (s : State) (f : Fld) : (s.raise f).time = s.time := rfl
@[simp] theorem eng_raise (s : State) (f : Fld) : (s.raise f).eng = s.eng := rfl
@[simp] theorem out_raise (s : State) (f : Fld) : (s.raise f).out = s.out := rfl
@[simp] theorem free_raise (s : State) (f : Fld) : (s.raise f).free = s.free := rfl
@[simp] theorem pending_raise (s : State) (f : Fld) : (s.raise f).pending = s.pending := rfl
@[simp] theorem ports_raise (s : State) (f : Fld) : (s.raise f).ports = s.ports := rfl
@[simp] theorem port_raise (s : State) (f : Fld) (p : Port) : (s.raise f).port p = s.port p := rfl
@[simp] theorem mem_lower (s : State) (f : Fld) : (s.lower f).mem = s.mem := rfl
@[simp] theorem ecc_lower (s : State) (f : Fld) : (s.lower f).ecc = s.ecc := rfl
@[simp] theorem clusters_lower (s : State) (f : Fld) : (s.lower f).clusters = s.clusters := rfl
@[simp] theorem time_lower (s : State) (f : Fld) : (s.lower f).time = s.time := rfl
@[simp] theorem eng_lower (s : State) (f : Fld) : (s.lower f).eng = s.eng := rfl
@[simp] theorem out_lower (s : State) (f : Fld) : (s.lower f).out = s.out := rfl
@[simp] theorem free_lower (s : State) (f : Fld) : (s.lower f).free = s.free := rfl
@[simp] theorem pending_lower (s : State) (f : Fld) : (s.lower f).pending = s.pending := rfl
@[simp] theorem ports_lower (s : State) (f : Fld) : (s.lower f).ports = s.ports := rfl
@[simp] theorem port_lower (s : State) (f : Fld) (p : Port) : (s.lower f).port p = s.port p := rfl
@[simp] theorem mem_count (s : State) (f : Fld) : (s.count f).mem = s.mem := rfl
@[simp] theorem ecc_count (s : State) (f : Fld) : (s.count f).ecc = s.ecc := rfl
@[simp] theorem clusters_count (s : State) (f : Fld) : (s.count f).clusters = s.clusters := rfl
@[simp] theorem time_count (s : State) (f : Fld) : (s.count f).time = s.time := rfl
@[simp] theorem eng_count (s : State) (f : Fld) : (s.count f).eng = s.eng := rfl
@[simp] theorem out_count (s : State) (f : Fld) : (s.count f).out = s.out := rfl
@[simp] theorem free_count (s : State) (f : Fld) : (s.count f).free = s.free := rfl
@[simp] theorem pending_count (s : State) (f : Fld) : (s.count f).pending = s.pending := rfl
@[simp] theorem ports_count (s : State) (f : Fld) : (s.count f).ports = s.ports := rfl
@[simp] theorem port_count (s : State) (f : Fld) (p : Port) : (s.count f).port p = s.port p := rfl

@[simp] theorem tun_modSeq (s : State) (p : Port) (g : Seq → Seq) : ((s.modSeq p g).port p).tun = (s.port p).tun := by
  simp [port_modSeq]

/-- The frame in the tun has written FILL since the last commit. -/
theorem poisonIfWrote_wrote (s : State) (p : Port) (f : Frame)
    (h : (s.port p).tun.any (fun g => g.fctr == f.fctr && g.fate.wroteFill) = true) :
    poisonIfWrote s p f = s.raise (Reg.PI.INROLE.POISON p) := by simp only [poisonIfWrote, h, if_true]

@[simp] theorem tun_poisonIfWrote (s : State) (p : Port) (f : Frame) : ((poisonIfWrote s p f).port p).tun = (s.port p).tun := by
  unfold poisonIfWrote; split <;> rfl

theorem get_poisonIfWrote_ne (s : State) (p : Port) (f : Frame) (g : Fld)
    (h : Fld.key g ≠ Fld.key (Reg.PI.INROLE.POISON p)) : (poisonIfWrote s p f).get g = s.get g := by
  unfold poisonIfWrote; split
  · exact State.get_raise_ne _ _ _ h
  · rfl

/-- A stomp marks the frame, unless its last grain has left and a free value says that its FCS has, too (R53). -/
theorem stompFrame_eq (s : State) (p : Port) (f : Frame) :
    stompFrame s p f = if stompReaches s f then markStomped (tookIf f.allLeft s) p f else tookIf f.allLeft s := by
  cases h : f.allLeft <;> simp only [stompFrame, stompReaches, tookIf, h, Bool.not_true, Bool.not_false, Bool.true_or, Bool.false_or,
    if_true, Bool.false_eq_true, if_false]

theorem markStomped_eq (s : State) (p : Port) (f : Frame) : markStomped s p f =
    if f.fate.chaffed then s.modFrame p f.fctr (fun g => { g with fate := { g.fate with stomp := true, chaffed := true } })
    else (s.modFrame p f.fctr (fun g => { g with fate := { g.fate with stomp := true, chaffed := true } })).count (Reg.WSQ.CHAFF.CNT p) := rfl

@[simp] theorem get_tookIf (b : Bool) (s : State) (g : Fld) : (tookIf b s).get g = s.get g := by cases b <;> rfl
@[simp] theorem cells_tookIf (b : Bool) (s : State) : (tookIf b s).cells = s.cells := by cases b <;> rfl
@[simp] theorem port_tookIf (b : Bool) (s : State) (p : Port) : (tookIf b s).port p = s.port p := by cases b <;> rfl

theorem get_stompFrame_ne (s : State) (p : Port) (f : Frame) (g : Fld)
    (h : Fld.key g ≠ Fld.key (Reg.WSQ.CHAFF.CNT p)) : (stompFrame s p f).get g = s.get g := by
  rw [stompFrame_eq, markStomped_eq]; split
  · split
    · simp
    · rw [State.get_count_ne _ _ _ h]; simp
  · simp

@[simp] theorem get_closeProgram (s : State) (p : Port) (f : Frame) (k : Bool) (g : Fld) :
    (closeProgram s p f k).get g = s.get g := rfl

@[simp] theorem cells_closeProgram (s : State) (p : Port) (f : Frame) (k : Bool) :
    (closeProgram s p f k).cells = s.cells := rfl

theorem tun_closeProgram (s : State) (p : Port) (f : Frame) (k : Bool) : ((closeProgram s p f k).port p).tun =
    (s.port p).tun.map (fun g => if g.fctr = f.fctr then
      { g with prog := .done, fate := { g.fate with cmt := g.fate.cmt && k } } else g) := by
  simp only [closeProgram, tun_modSeq, tun_modFrame]

theorem tun_stompFrame (s : State) (p : Port) (f : Frame) : ((stompFrame s p f).port p).tun =
    (s.port p).tun.map (fun g => if g.fctr = f.fctr then
      { g with fate := { g.fate with stomp := g.fate.stomp || stompReaches s f, chaffed := g.fate.chaffed || stompReaches s f } }
      else g) := by
  rw [stompFrame_eq, markStomped_eq]
  cases h : stompReaches s f
  · simp
  · simp only [if_true, Bool.or_true]; split
    · rw [tun_modFrame, port_tookIf]
    · rw [port_count, tun_modFrame, port_tookIf]

@[simp] theorem mem_closeProgram (s : State) (p : Port) (f : Frame) (k : Bool) : (closeProgram s p f k).mem = s.mem := rfl
@[simp] theorem mem_poisonIfWrote (s : State) (p : Port) (f : Frame) : (poisonIfWrote s p f).mem = s.mem := by
  unfold poisonIfWrote; split <;> rfl
@[simp] theorem mem_stompFrame (s : State) (p : Port) (f : Frame) : (stompFrame s p f).mem = s.mem := by
  simp only [stompFrame, markStomped]; split
  · split
    · split <;> rfl
    · rfl
  · split <;> rfl
@[simp] theorem mem_recordUndef (s : State) (p : Port) (u : Nat) : (recordUndef s p u).mem = s.mem := rfl
@[simp] theorem ecc_closeProgram (s : State) (p : Port) (f : Frame) (k : Bool) : (closeProgram s p f k).ecc = s.ecc := rfl
@[simp] theorem ecc_poisonIfWrote (s : State) (p : Port) (f : Frame) : (poisonIfWrote s p f).ecc = s.ecc := by
  unfold poisonIfWrote; split <;> rfl
@[simp] theorem ecc_stompFrame (s : State) (p : Port) (f : Frame) : (stompFrame s p f).ecc = s.ecc := by
  simp only [stompFrame, markStomped]; split
  · split
    · split <;> rfl
    · rfl
  · split <;> rfl
@[simp] theorem ecc_recordUndef (s : State) (p : Port) (u : Nat) : (recordUndef s p u).ecc = s.ecc := rfl
@[simp] theorem clusters_closeProgram (s : State) (p : Port) (f : Frame) (k : Bool) : (closeProgram s p f k).clusters = s.clusters := rfl
@[simp] theorem clusters_poisonIfWrote (s : State) (p : Port) (f : Frame) : (poisonIfWrote s p f).clusters = s.clusters := by
  unfold poisonIfWrote; split <;> rfl
@[simp] theorem clusters_stompFrame (s : State) (p : Port) (f : Frame) : (stompFrame s p f).clusters = s.clusters := by
  simp only [stompFrame, markStomped]; split
  · split
    · split <;> rfl
    · rfl
  · split <;> rfl
@[simp] theorem clusters_recordUndef (s : State) (p : Port) (u : Nat) : (recordUndef s p u).clusters = s.clusters := rfl
@[simp] theorem time_closeProgram (s : State) (p : Port) (f : Frame) (k : Bool) : (closeProgram s p f k).time = s.time := rfl
@[simp] theorem time_poisonIfWrote (s : State) (p : Port) (f : Frame) : (poisonIfWrote s p f).time = s.time := by
  unfold poisonIfWrote; split <;> rfl
@[simp] theorem time_stompFrame (s : State) (p : Port) (f : Frame) : (stompFrame s p f).time = s.time := by
  simp only [stompFrame, markStomped]; split
  · split
    · split <;> rfl
    · rfl
  · split <;> rfl
@[simp] theorem time_recordUndef (s : State) (p : Port) (u : Nat) : (recordUndef s p u).time = s.time := rfl
@[simp] theorem eng_closeProgram (s : State) (p : Port) (f : Frame) (k : Bool) : (closeProgram s p f k).eng = s.eng := rfl
@[simp] theorem eng_poisonIfWrote (s : State) (p : Port) (f : Frame) : (poisonIfWrote s p f).eng = s.eng := by
  unfold poisonIfWrote; split <;> rfl
@[simp] theorem eng_stompFrame (s : State) (p : Port) (f : Frame) : (stompFrame s p f).eng = s.eng := by
  simp only [stompFrame, markStomped]; split
  · split
    · split <;> rfl
    · rfl
  · split <;> rfl
@[simp] theorem eng_recordUndef (s : State) (p : Port) (u : Nat) : (recordUndef s p u).eng = s.eng := rfl
@[simp] theorem out_closeProgram (s : State) (p : Port) (f : Frame) (k : Bool) : (closeProgram s p f k).out = s.out := rfl
@[simp] theorem out_poisonIfWrote (s : State) (p : Port) (f : Frame) : (poisonIfWrote s p f).out = s.out := by
  unfold poisonIfWrote; split <;> rfl
@[simp] theorem out_stompFrame (s : State) (p : Port) (f : Frame) : (stompFrame s p f).out = s.out := by
  simp only [stompFrame, markStomped]; split
  · split
    · split <;> rfl
    · rfl
  · split <;> rfl
@[simp] theorem out_recordUndef (s : State) (p : Port) (u : Nat) : (recordUndef s p u).out = s.out := rfl
@[simp] theorem free_closeProgram (s : State) (p : Port) (f : Frame) (k : Bool) : (closeProgram s p f k).free = s.free := rfl
@[simp] theorem free_poisonIfWrote (s : State) (p : Port) (f : Frame) : (poisonIfWrote s p f).free = s.free := by
  unfold poisonIfWrote; split <;> rfl
theorem free_stompFrame (s : State) (p : Port) (f : Frame) : (stompFrame s p f).free = s.free + f.allLeft.toNat := by
  simp only [stompFrame, markStomped]; split <;> rename_i h
  · rw [h]; split
    · split <;> rfl
    · rfl
  · simp only [Bool.not_eq_true] at h; rw [h]; split <;> rfl
@[simp] theorem free_recordUndef (s : State) (p : Port) (u : Nat) : (recordUndef s p u).free = s.free := rfl
@[simp] theorem pending_closeProgram (s : State) (p : Port) (f : Frame) (k : Bool) : (closeProgram s p f k).pending = s.pending := rfl
@[simp] theorem pending_poisonIfWrote (s : State) (p : Port) (f : Frame) : (poisonIfWrote s p f).pending = s.pending := by
  unfold poisonIfWrote; split <;> rfl
@[simp] theorem pending_stompFrame (s : State) (p : Port) (f : Frame) : (stompFrame s p f).pending = s.pending := by
  simp only [stompFrame, markStomped]; split
  · split
    · split <;> rfl
    · rfl
  · split <;> rfl
@[simp] theorem pending_recordUndef (s : State) (p : Port) (u : Nat) : (recordUndef s p u).pending = s.pending := rfl

/-! ### Frames that go out (R53) -/

theorem tun_retireFrames (s : State) (p : Port) : ((retireFrames s p).port p).tun = (s.port p).tun.filter (fun f => !f.isOver) := by
  simp [retireFrames]

/-- What settling leaves alone, said once: everything but the frames of the port and the outputs. -/
theorem settleFrame_keeps (s : State) (p : Port) (k : Word) :
    ∃ ports out, settleFrame s p k = { s with ports := ports, out := out } ∧
      (out = s.out ∨ ∃ (g : Frame) (e : Nat), g.egress = some e ∧ out = .frame e g.wire :: s.out) := by
  unfold settleFrame
  split
  · rename_i g hg
    split
    · unfold sendFrame
      cases h : g.egress with
      | none => exact ⟨_, _, rfl, .inl rfl⟩
      | some e =>
        simp only []
        split
        · exact ⟨_, _, rfl, .inl rfl⟩
        · exact ⟨_, _, rfl, .inr ⟨g, e, h, rfl⟩⟩
    · exact ⟨_, _, rfl, .inl rfl⟩
  · exact ⟨_, _, rfl, .inl rfl⟩


theorem port_emit_frame (s : State) (e : Nat) (bs : List Byte) (p : Port) : (s.emit (.frame e bs)).port p = s.port p := rfl

/-- A frame that does not go out yet is settled: frames whose handling is over leave the record. -/
theorem settleFrame_stays (s : State) (p : Port) (k : Word) (h : ∀ g ∈ (s.port p).tun, g.fctr = k → g.mayGo = false) :
    settleFrame s p k = retireFrames s p := by
  unfold settleFrame
  split
  · rename_i g hg
    have hm := List.mem_of_find?_eq_some hg
    have hk : g.fctr = k := by simpa using List.find?_some hg
    rw [h g hm hk]; rfl
  · rfl

theorem tun_settleFrame (s : State) (p : Port) (k : Word) (h : ∀ g ∈ (s.port p).tun, g.fctr = k → g.mayGo = false) :
    ((settleFrame s p k).port p).tun = (s.port p).tun.filter (fun f => !f.isOver) := by
  rw [settleFrame_stays s p k h, tun_retireFrames]

/-- A frame that may go leaves on its egress as it is settled. -/
theorem out_settleFrame (s : State) (p : Port) (k : Word) (g : Frame) (e : Nat) (h : (s.port p).tun.find? (fun x => x.fctr == k) = some g)
    (hm : g.mayGo = true) (he : g.egress = some e) (hg : g.fate.gone = false) (hl : 5 ≤ g.bytes.length) :
    (settleFrame s p k).out = .frame e g.wire :: s.out := by
  unfold settleFrame; rw [h]
  have hl' : ¬ g.bytes.length < 5 := by omega
  simp only [hm, if_true, sendFrame, he, hg, Bool.false_or, decide_eq_true_eq, if_neg hl']; rfl

theorem tun_sendFrame (s : State) (p : Port) (f : Frame) : ((sendFrame s p f).port p).tun =
    (s.port p).tun.map (fun x => if x.fctr = f.fctr then { x with sent := true } else x) := by
  unfold sendFrame; split
  · split
    · exact tun_modFrame _ _ _ _
    · rw [port_emit_frame]; exact tun_modFrame _ _ _ _
  · exact tun_modFrame _ _ _ _

/-- Settling one frame leaves every other frame in place whose handling is not over. -/
theorem kept_settleFrame {s : State} {p : Port} {k : Word} {x : Frame} (h : x ∈ (s.port p).tun) (hk : x.fctr ≠ k) (ho : x.isOver = false) :
    x ∈ ((settleFrame s p k).port p).tun := by
  unfold settleFrame
  split
  · rename_i g hg
    have e : g.fctr = k := by simpa using List.find?_some hg
    split
    · rw [tun_retireFrames, tun_sendFrame]
      refine List.mem_filter.2 ⟨List.mem_map.2 ⟨x, h, if_neg (by rw [e]; exact hk)⟩, by rw [ho]; rfl⟩
    · rw [tun_retireFrames]; exact List.mem_filter.2 ⟨h, by rw [ho]; rfl⟩
  · rw [tun_retireFrames]; exact List.mem_filter.2 ⟨h, by rw [ho]; rfl⟩

/-- Every frame that remains after settling was there before, but for `sent`. -/
theorem settled_frame {s : State} {p : Port} {k : Word} {g : Frame} (h : g ∈ ((settleFrame s p k).port p).tun) :
    ∃ x ∈ (s.port p).tun, g = x ∨ g = { x with sent := true } := by
  unfold settleFrame at h
  split at h
  · split at h
    · rw [tun_retireFrames, tun_sendFrame] at h
      obtain ⟨x, hx, rfl⟩ := List.mem_map.1 (List.mem_filter.1 h).1
      refine ⟨x, hx, ?_⟩
      split
      · exact .inr rfl
      · exact .inl rfl
    · rw [tun_retireFrames] at h; exact ⟨g, (List.mem_filter.1 h).1, .inl rfl⟩
  · rw [tun_retireFrames] at h; exact ⟨g, (List.mem_filter.1 h).1, .inl rfl⟩

@[simp] theorem mem_settleFrame (s : State) (p : Port) (k : Word) : (settleFrame s p k).mem = s.mem := by
  obtain ⟨_, _, e, -⟩ := settleFrame_keeps s p k; rw [e]
@[simp] theorem ecc_settleFrame (s : State) (p : Port) (k : Word) : (settleFrame s p k).ecc = s.ecc := by
  obtain ⟨_, _, e, -⟩ := settleFrame_keeps s p k; rw [e]
@[simp] theorem cells_settleFrame (s : State) (p : Port) (k : Word) : (settleFrame s p k).cells = s.cells := by
  obtain ⟨_, _, e, -⟩ := settleFrame_keeps s p k; rw [e]
@[simp] theorem clusters_settleFrame (s : State) (p : Port) (k : Word) : (settleFrame s p k).clusters = s.clusters := by
  obtain ⟨_, _, e, -⟩ := settleFrame_keeps s p k; rw [e]
@[simp] theorem time_settleFrame (s : State) (p : Port) (k : Word) : (settleFrame s p k).time = s.time := by
  obtain ⟨_, _, e, -⟩ := settleFrame_keeps s p k; rw [e]
@[simp] theorem eng_settleFrame (s : State) (p : Port) (k : Word) : (settleFrame s p k).eng = s.eng := by
  obtain ⟨_, _, e, -⟩ := settleFrame_keeps s p k; rw [e]
@[simp] theorem free_settleFrame (s : State) (p : Port) (k : Word) : (settleFrame s p k).free = s.free := by
  obtain ⟨_, _, e, -⟩ := settleFrame_keeps s p k; rw [e]
@[simp] theorem pending_settleFrame (s : State) (p : Port) (k : Word) : (settleFrame s p k).pending = s.pending := by
  obtain ⟨_, _, e, -⟩ := settleFrame_keeps s p k; rw [e]

@[simp] theorem get_settleFrame (s : State) (p : Port) (k : Word) (g : Fld) : (settleFrame s p k).get g = s.get g := by
  obtain ⟨_, _, e, -⟩ := settleFrame_keeps s p k; rw [e]; rfl

/-- A frame before it is settled, once it has been abandoned: its program is over, its commit cancelled, and it is stomped (R33,
R43, R52). -/
theorem abandonFrame_eq (s : State) (p : Port) (f : Frame) :
    ∃ t, abandonFrame s p f = settleFrame t p f.fctr ∧ t.out = s.out ∧ (t.port p).tun = (s.port p).tun.map (fun g => if g.fctr = f.fctr then
      { g with prog := .done, fate := { g.fate with cmt := false, stomped := true, stomp := g.fate.stomp || stompReaches s f,
                                                    chaffed := g.fate.chaffed || stompReaches s f } } else g) := by
  refine ⟨_, rfl, by simp, ?_⟩
  have e : stompReaches ((poisonIfWrote (closeProgram s p f false) p f).modFrame p f.fctr
      (fun g => { g with fate := { g.fate with stomped := true } })) f = stompReaches s f := by
    simp [stompReaches, State.freeVal]
  simp only [tun_stompFrame, e, tun_modFrame, tun_poisonIfWrote, tun_closeProgram]
  rw [List.map_map, List.map_map]
  apply List.map_congr_left
  intro x _
  simp only [Function.comp]
  by_cases e : x.fctr = f.fctr <;> simp [e]

/-- DISC before the frame is settled: its program is over, its commit cancelled, and it is stomped where its transmission has
begun, else gone (R54). -/
theorem discardFrame_eq (s : State) (p : Port) (f : Frame) :
    ∃ t, discardFrame s p f = settleFrame t p f.fctr ∧ (t.port p).tun = (s.port p).tun.map (fun g => if g.fctr = f.fctr then
      { g with prog := .done, fate := { g.fate with cmt := false, stomp := g.fate.stomp || f.txStart && stompReaches s f,
                                                    chaffed := g.fate.chaffed || f.txStart && stompReaches s f,
                                                    gone := g.fate.gone || !f.txStart } } else g) := by
  refine ⟨_, rfl, ?_⟩
  have e : stompReaches (poisonIfWrote (closeProgram s p f false) p f) f = stompReaches s f := by
    simp [stompReaches, State.freeVal]
  cases h : f.txStart
  · simp only [Bool.false_eq_true, if_false, tun_modFrame, tun_poisonIfWrote, tun_closeProgram]
    rw [List.map_map]
    apply List.map_congr_left
    intro x _
    simp only [Function.comp]
    by_cases e : x.fctr = f.fctr <;> simp [e]
  · simp only [if_true, tun_stompFrame, e, tun_poisonIfWrote, tun_closeProgram]
    rw [List.map_map]
    apply List.map_congr_left
    intro x _
    simp only [Function.comp]
    by_cases e : x.fctr = f.fctr <;> simp [e]

@[simp] theorem mem_discardFrame (s : State) (p : Port) (f : Frame) : (discardFrame s p f).mem = s.mem := by
  unfold discardFrame; simp only []; split <;> simp

theorem get_abandonFrame_ne (s : State) (p : Port) (f : Frame) (g : Fld)
    (h : Fld.key g ≠ Fld.key (Reg.PI.INROLE.POISON p)) (h' : Fld.key g ≠ Fld.key (Reg.WSQ.CHAFF.CNT p)) :
    (abandonFrame s p f).get g = s.get g := by
  unfold abandonFrame
  simp only [get_settleFrame, get_stompFrame_ne _ _ _ _ h', get_modFrame, get_poisonIfWrote_ne _ _ _ _ h, get_closeProgram]

@[simp] theorem mem_abandonFrame (s : State) (p : Port) (f : Frame) : (abandonFrame s p f).mem = s.mem := by
  unfold abandonFrame; simp
@[simp] theorem ecc_abandonFrame (s : State) (p : Port) (f : Frame) : (abandonFrame s p f).ecc = s.ecc := by
  unfold abandonFrame; simp
@[simp] theorem clusters_abandonFrame (s : State) (p : Port) (f : Frame) : (abandonFrame s p f).clusters = s.clusters := by
  unfold abandonFrame; simp
@[simp] theorem time_abandonFrame (s : State) (p : Port) (f : Frame) : (abandonFrame s p f).time = s.time := by
  unfold abandonFrame; simp
@[simp] theorem eng_abandonFrame (s : State) (p : Port) (f : Frame) : (abandonFrame s p f).eng = s.eng := by
  unfold abandonFrame; simp
theorem free_abandonFrame (s : State) (p : Port) (f : Frame) : (abandonFrame s p f).free = s.free + f.allLeft.toNat := by
  unfold abandonFrame; simp [free_stompFrame]
@[simp] theorem pending_abandonFrame (s : State) (p : Port) (f : Frame) : (abandonFrame s p f).pending = s.pending := by
  unfold abandonFrame; simp
/-- Abandoning a frame sends nothing but the frame itself. -/
theorem out_abandonFrame (s : State) (p : Port) (f : Frame) :
    (abandonFrame s p f).out = s.out ∨ ∃ (g : Frame) (e : Nat), g.egress = some e ∧ (abandonFrame s p f).out = .frame e g.wire :: s.out := by
  unfold abandonFrame
  obtain ⟨_, o, e, h⟩ := settleFrame_keeps (stompFrame ((poisonIfWrote (closeProgram s p f false) p f).modFrame p f.fctr
    (fun g => { g with fate := { g.fate with stomped := true } })) p f) p f.fctr
  rw [e]; simpa using h

@[simp] theorem port_recordUndef (s : State) (p : Port) (u : Nat) (q : Port) : (recordUndef s p u).port q = s.port q := rfl

end Sys2Proof.Machine
end

