-- ==== Sys2Proof/Laws/State.lean ====
section
/-! SUPPORT. Every named update of the state against every field of it: the field it changes, and the fields it leaves. -/

namespace Sys2Proof.Machine

@[simp] theorem State.put_mem (s : State) (f : Fld) (v : Nat) : (s.put f v).mem = s.mem := rfl
@[simp] theorem State.put_ecc (s : State) (f : Fld) (v : Nat) : (s.put f v).ecc = s.ecc := rfl
@[simp] theorem State.put_ports (s : State) (f : Fld) (v : Nat) : (s.put f v).ports = s.ports := rfl
@[simp] theorem State.put_clusters (s : State) (f : Fld) (v : Nat) : (s.put f v).clusters = s.clusters := rfl
@[simp] theorem State.put_time (s : State) (f : Fld) (v : Nat) : (s.put f v).time = s.time := rfl
@[simp] theorem State.put_pps (s : State) (f : Fld) (v : Nat) : (s.put f v).pps = s.pps := rfl
@[simp] theorem State.put_calib (s : State) (f : Fld) (v : Nat) : (s.put f v).calib = s.calib := rfl
@[simp] theorem State.put_pinActs (s : State) (f : Fld) (v : Nat) : (s.put f v).pinActs = s.pinActs := rfl
@[simp] theorem State.put_pinSets (s : State) (f : Fld) (v : Nat) : (s.put f v).pinSets = s.pinSets := rfl
@[simp] theorem State.put_eng (s : State) (f : Fld) (v : Nat) : (s.put f v).eng = s.eng := rfl
@[simp] theorem State.put_l2 (s : State) (f : Fld) (v : Nat) : (s.put f v).l2 = s.l2 := rfl
@[simp] theorem State.put_sd (s : State) (f : Fld) (v : Nat) : (s.put f v).sd = s.sd := rfl
@[simp] theorem State.put_husk (s : State) (f : Fld) (v : Nat) : (s.put f v).husk = s.husk := rfl
@[simp] theorem State.put_huskLast (s : State) (f : Fld) (v : Nat) : (s.put f v).huskLast = s.huskLast := rfl
@[simp] theorem State.put_hskInt (s : State) (f : Fld) (v : Nat) : (s.put f v).hskInt = s.hskInt := rfl
@[simp] theorem State.put_parcels (s : State) (f : Fld) (v : Nat) : (s.put f v).parcels = s.parcels := rfl
@[simp] theorem State.put_hgDue (s : State) (f : Fld) (v : Nat) : (s.put f v).hgDue = s.hgDue := rfl
@[simp] theorem State.put_trace (s : State) (f : Fld) (v : Nat) : (s.put f v).trace = s.trace := rfl
@[simp] theorem State.put_alive (s : State) (f : Fld) (v : Nat) : (s.put f v).alive = s.alive := rfl
@[simp] theorem State.put_capture (s : State) (f : Fld) (v : Nat) : (s.put f v).capture = s.capture := rfl
@[simp] theorem State.put_tester (s : State) (f : Fld) (v : Nat) : (s.put f v).tester = s.tester := rfl
@[simp] theorem State.put_rings (s : State) (f : Fld) (v : Nat) : (s.put f v).rings = s.rings := rfl
@[simp] theorem State.put_twin (s : State) (f : Fld) (v : Nat) : (s.put f v).twin = s.twin := rfl
@[simp] theorem State.put_chans (s : State) (f : Fld) (v : Nat) : (s.put f v).chans = s.chans := rfl
@[simp] theorem State.put_accum (s : State) (f : Fld) (v : Nat) : (s.put f v).accum = s.accum := rfl
@[simp] theorem State.put_ptp (s : State) (f : Fld) (v : Nat) : (s.put f v).ptp = s.ptp := rfl
@[simp] theorem State.put_resetDue (s : State) (f : Fld) (v : Nat) : (s.put f v).resetDue = s.resetDue := rfl
@[simp] theorem State.put_dma (s : State) (f : Fld) (v : Nat) : (s.put f v).dma = s.dma := rfl
@[simp] theorem State.put_dmaPermit (s : State) (f : Fld) (v : Nat) : (s.put f v).dmaPermit = s.dmaPermit := rfl
@[simp] theorem State.put_dmaLast (s : State) (f : Fld) (v : Nat) : (s.put f v).dmaLast = s.dmaLast := rfl
@[simp] theorem State.put_cry (s : State) (f : Fld) (v : Nat) : (s.put f v).cry = s.cry := rfl
@[simp] theorem State.put_cryStop (s : State) (f : Fld) (v : Nat) : (s.put f v).cryStop = s.cryStop := rfl
@[simp] theorem State.put_bits (s : State) (f : Fld) (v : Nat) : (s.put f v).bits = s.bits := rfl
@[simp] theorem State.put_boot (s : State) (f : Fld) (v : Nat) : (s.put f v).boot = s.boot := rfl
@[simp] theorem State.put_power (s : State) (f : Fld) (v : Nat) : (s.put f v).power = s.power := rfl
@[simp] theorem State.put_tap (s : State) (f : Fld) (v : Nat) : (s.put f v).tap = s.tap := rfl
@[simp] theorem State.put_credits (s : State) (f : Fld) (v : Nat) : (s.put f v).credits = s.credits := rfl
@[simp] theorem State.put_mlQueue (s : State) (f : Fld) (v : Nat) : (s.put f v).mlQueue = s.mlQueue := rfl
@[simp] theorem State.put_bulk (s : State) (f : Fld) (v : Nat) : (s.put f v).bulk = s.bulk := rfl
@[simp] theorem State.put_slQueue (s : State) (f : Fld) (v : Nat) : (s.put f v).slQueue = s.slQueue := rfl
@[simp] theorem State.put_slCmds (s : State) (f : Fld) (v : Nat) : (s.put f v).slCmds = s.slCmds := rfl
@[simp] theorem State.put_permit (s : State) (f : Fld) (v : Nat) : (s.put f v).permit = s.permit := rfl
@[simp] theorem State.put_stopped (s : State) (f : Fld) (v : Nat) : (s.put f v).stopped = s.stopped := rfl
@[simp] theorem State.put_ans (s : State) (f : Fld) (v : Nat) : (s.put f v).ans = s.ans := rfl
@[simp] theorem State.put_free (s : State) (f : Fld) (v : Nat) : (s.put f v).free = s.free := rfl
@[simp] theorem State.put_out (s : State) (f : Fld) (v : Nat) : (s.put f v).out = s.out := rfl
@[simp] theorem State.put_pending (s : State) (f : Fld) (v : Nat) : (s.put f v).pending = s.pending := rfl

@[simp] theorem State.clearCells_mem (s : State) (a b : Nat) : (s.clearCells a b).mem = s.mem := rfl
@[simp] theorem State.clearCells_ecc (s : State) (a b : Nat) : (s.clearCells a b).ecc = s.ecc := rfl
@[simp] theorem State.clearCells_ports (s : State) (a b : Nat) : (s.clearCells a b).ports = s.ports := rfl
@[simp] theorem State.clearCells_clusters (s : State) (a b : Nat) : (s.clearCells a b).clusters = s.clusters := rfl
@[simp] theorem State.clearCells_time (s : State) (a b : Nat) : (s.clearCells a b).time = s.time := rfl
@[simp] theorem State.clearCells_pps (s : State) (a b : Nat) : (s.clearCells a b).pps = s.pps := rfl
@[simp] theorem State.clearCells_calib (s : State) (a b : Nat) : (s.clearCells a b).calib = s.calib := rfl
@[simp] theorem State.clearCells_pinActs (s : State) (a b : Nat) : (s.clearCells a b).pinActs = s.pinActs := rfl
@[simp] theorem State.clearCells_pinSets (s : State) (a b : Nat) : (s.clearCells a b).pinSets = s.pinSets := rfl
@[simp] theorem State.clearCells_eng (s : State) (a b : Nat) : (s.clearCells a b).eng = s.eng := rfl
@[simp] theorem State.clearCells_l2 (s : State) (a b : Nat) : (s.clearCells a b).l2 = s.l2 := rfl
@[simp] theorem State.clearCells_sd (s : State) (a b : Nat) : (s.clearCells a b).sd = s.sd := rfl
@[simp] theorem State.clearCells_husk (s : State) (a b : Nat) : (s.clearCells a b).husk = s.husk := rfl
@[simp] theorem State.clearCells_huskLast (s : State) (a b : Nat) : (s.clearCells a b).huskLast = s.huskLast := rfl
@[simp] theorem State.clearCells_hskInt (s : State) (a b : Nat) : (s.clearCells a b).hskInt = s.hskInt := rfl
@[simp] theorem State.clearCells_parcels (s : State) (a b : Nat) : (s.clearCells a b).parcels = s.parcels := rfl
@[simp] theorem State.clearCells_hgDue (s : State) (a b : Nat) : (s.clearCells a b).hgDue = s.hgDue := rfl
@[simp] theorem State.clearCells_trace (s : State) (a b : Nat) : (s.clearCells a b).trace = s.trace := rfl
@[simp] theorem State.clearCells_alive (s : State) (a b : Nat) : (s.clearCells a b).alive = s.alive := rfl
@[simp] theorem State.clearCells_capture (s : State) (a b : Nat) : (s.clearCells a b).capture = s.capture := rfl
@[simp] theorem State.clearCells_tester (s : State) (a b : Nat) : (s.clearCells a b).tester = s.tester := rfl
@[simp] theorem State.clearCells_rings (s : State) (a b : Nat) : (s.clearCells a b).rings = s.rings := rfl
@[simp] theorem State.clearCells_twin (s : State) (a b : Nat) : (s.clearCells a b).twin = s.twin := rfl
@[simp] theorem State.clearCells_chans (s : State) (a b : Nat) : (s.clearCells a b).chans = s.chans := rfl
@[simp] theorem State.clearCells_accum (s : State) (a b : Nat) : (s.clearCells a b).accum = s.accum := rfl
@[simp] theorem State.clearCells_ptp (s : State) (a b : Nat) : (s.clearCells a b).ptp = s.ptp := rfl
@[simp] theorem State.clearCells_resetDue (s : State) (a b : Nat) : (s.clearCells a b).resetDue = s.resetDue := rfl
@[simp] theorem State.clearCells_dma (s : State) (a b : Nat) : (s.clearCells a b).dma = s.dma := rfl
@[simp] theorem State.clearCells_dmaPermit (s : State) (a b : Nat) : (s.clearCells a b).dmaPermit = s.dmaPermit := rfl
@[simp] theorem State.clearCells_dmaLast (s : State) (a b : Nat) : (s.clearCells a b).dmaLast = s.dmaLast := rfl
@[simp] theorem State.clearCells_cry (s : State) (a b : Nat) : (s.clearCells a b).cry = s.cry := rfl
@[simp] theorem State.clearCells_cryStop (s : State) (a b : Nat) : (s.clearCells a b).cryStop = s.cryStop := rfl
@[simp] theorem State.clearCells_bits (s : State) (a b : Nat) : (s.clearCells a b).bits = s.bits := rfl
@[simp] theorem State.clearCells_boot (s : State) (a b : Nat) : (s.clearCells a b).boot = s.boot := rfl
@[simp] theorem State.clearCells_power (s : State) (a b : Nat) : (s.clearCells a b).power = s.power := rfl
@[simp] theorem State.clearCells_tap (s : State) (a b : Nat) : (s.clearCells a b).tap = s.tap := rfl
@[simp] theorem State.clearCells_credits (s : State) (a b : Nat) : (s.clearCells a b).credits = s.credits := rfl
@[simp] theorem State.clearCells_mlQueue (s : State) (a b : Nat) : (s.clearCells a b).mlQueue = s.mlQueue := rfl
@[simp] theorem State.clearCells_bulk (s : State) (a b : Nat) : (s.clearCells a b).bulk = s.bulk := rfl
@[simp] theorem State.clearCells_slQueue (s : State) (a b : Nat) : (s.clearCells a b).slQueue = s.slQueue := rfl
@[simp] theorem State.clearCells_slCmds (s : State) (a b : Nat) : (s.clearCells a b).slCmds = s.slCmds := rfl
@[simp] theorem State.clearCells_permit (s : State) (a b : Nat) : (s.clearCells a b).permit = s.permit := rfl
@[simp] theorem State.clearCells_stopped (s : State) (a b : Nat) : (s.clearCells a b).stopped = s.stopped := rfl
@[simp] theorem State.clearCells_ans (s : State) (a b : Nat) : (s.clearCells a b).ans = s.ans := rfl
@[simp] theorem State.clearCells_free (s : State) (a b : Nat) : (s.clearCells a b).free = s.free := rfl
@[simp] theorem State.clearCells_out (s : State) (a b : Nat) : (s.clearCells a b).out = s.out := rfl
@[simp] theorem State.clearCells_pending (s : State) (a b : Nat) : (s.clearCells a b).pending = s.pending := rfl

@[simp] theorem State.took_cells (s : State) : (s.took).cells = s.cells := rfl
@[simp] theorem State.took_mem (s : State) : (s.took).mem = s.mem := rfl
@[simp] theorem State.took_ecc (s : State) : (s.took).ecc = s.ecc := rfl
@[simp] theorem State.took_ports (s : State) : (s.took).ports = s.ports := rfl
@[simp] theorem State.took_clusters (s : State) : (s.took).clusters = s.clusters := rfl
@[simp] theorem State.took_time (s : State) : (s.took).time = s.time := rfl
@[simp] theorem State.took_pps (s : State) : (s.took).pps = s.pps := rfl
@[simp] theorem State.took_calib (s : State) : (s.took).calib = s.calib := rfl
@[simp] theorem State.took_pinActs (s : State) : (s.took).pinActs = s.pinActs := rfl
@[simp] theorem State.took_pinSets (s : State) : (s.took).pinSets = s.pinSets := rfl
@[simp] theorem State.took_eng (s : State) : (s.took).eng = s.eng := rfl
@[simp] theorem State.took_l2 (s : State) : (s.took).l2 = s.l2 := rfl
@[simp] theorem State.took_sd (s : State) : (s.took).sd = s.sd := rfl
@[simp] theorem State.took_husk (s : State) : (s.took).husk = s.husk := rfl
@[simp] theorem State.took_huskLast (s : State) : (s.took).huskLast = s.huskLast := rfl
@[simp] theorem State.took_hskInt (s : State) : (s.took).hskInt = s.hskInt := rfl
@[simp] theorem State.took_parcels (s : State) : (s.took).parcels = s.parcels := rfl
@[simp] theorem State.took_hgDue (s : State) : (s.took).hgDue = s.hgDue := rfl
@[simp] theorem State.took_trace (s : State) : (s.took).trace = s.trace := rfl
@[simp] theorem State.took_alive (s : State) : (s.took).alive = s.alive := rfl
@[simp] theorem State.took_capture (s : State) : (s.took).capture = s.capture := rfl
@[simp] theorem State.took_tester (s : State) : (s.took).tester = s.tester := rfl
@[simp] theorem State.took_rings (s : State) : (s.took).rings = s.rings := rfl
@[simp] theorem State.took_twin (s : State) : (s.took).twin = s.twin := rfl
@[simp] theorem State.took_chans (s : State) : (s.took).chans = s.chans := rfl
@[simp] theorem State.took_accum (s : State) : (s.took).accum = s.accum := rfl
@[simp] theorem State.took_ptp (s : State) : (s.took).ptp = s.ptp := rfl
@[simp] theorem State.took_resetDue (s : State) : (s.took).resetDue = s.resetDue := rfl
@[simp] theorem State.took_dma (s : State) : (s.took).dma = s.dma := rfl
@[simp] theorem State.took_dmaPermit (s : State) : (s.took).dmaPermit = s.dmaPermit := rfl
@[simp] theorem State.took_dmaLast (s : State) : (s.took).dmaLast = s.dmaLast := rfl
@[simp] theorem State.took_cry (s : State) : (s.took).cry = s.cry := rfl
@[simp] theorem State.took_cryStop (s : State) : (s.took).cryStop = s.cryStop := rfl
@[simp] theorem State.took_bits (s : State) : (s.took).bits = s.bits := rfl
@[simp] theorem State.took_boot (s : State) : (s.took).boot = s.boot := rfl
@[simp] theorem State.took_power (s : State) : (s.took).power = s.power := rfl
@[simp] theorem State.took_tap (s : State) : (s.took).tap = s.tap := rfl
@[simp] theorem State.took_credits (s : State) : (s.took).credits = s.credits := rfl
@[simp] theorem State.took_mlQueue (s : State) : (s.took).mlQueue = s.mlQueue := rfl
@[simp] theorem State.took_bulk (s : State) : (s.took).bulk = s.bulk := rfl
@[simp] theorem State.took_slQueue (s : State) : (s.took).slQueue = s.slQueue := rfl
@[simp] theorem State.took_slCmds (s : State) : (s.took).slCmds = s.slCmds := rfl
@[simp] theorem State.took_permit (s : State) : (s.took).permit = s.permit := rfl
@[simp] theorem State.took_stopped (s : State) : (s.took).stopped = s.stopped := rfl
@[simp] theorem State.took_ans (s : State) : (s.took).ans = s.ans := rfl
@[simp] theorem State.took_free (s : State) : (s.took).free = s.free + 1 := rfl
@[simp] theorem State.took_out (s : State) : (s.took).out = s.out := rfl
@[simp] theorem State.took_pending (s : State) : (s.took).pending = s.pending := rfl

@[simp] theorem State.setPort_cells (s : State) (p : Port) (x : PortSt) : (s.setPort p x).cells = s.cells := rfl
@[simp] theorem State.setPort_mem (s : State) (p : Port) (x : PortSt) : (s.setPort p x).mem = s.mem := rfl
@[simp] theorem State.setPort_ecc (s : State) (p : Port) (x : PortSt) : (s.setPort p x).ecc = s.ecc := rfl
@[simp] theorem State.setPort_ports (s : State) (p : Port) (x : PortSt) : (s.setPort p x).ports = s.ports.set p x := rfl
@[simp] theorem State.setPort_clusters (s : State) (p : Port) (x : PortSt) : (s.setPort p x).clusters = s.clusters := rfl
@[simp] theorem State.setPort_time (s : State) (p : Port) (x : PortSt) : (s.setPort p x).time = s.time := rfl
@[simp] theorem State.setPort_pps (s : State) (p : Port) (x : PortSt) : (s.setPort p x).pps = s.pps := rfl
@[simp] theorem State.setPort_calib (s : State) (p : Port) (x : PortSt) : (s.setPort p x).calib = s.calib := rfl
@[simp] theorem State.setPort_pinActs (s : State) (p : Port) (x : PortSt) : (s.setPort p x).pinActs = s.pinActs := rfl
@[simp] theorem State.setPort_pinSets (s : State) (p : Port) (x : PortSt) : (s.setPort p x).pinSets = s.pinSets := rfl
@[simp] theorem State.setPort_eng (s : State) (p : Port) (x : PortSt) : (s.setPort p x).eng = s.eng := rfl
@[simp] theorem State.setPort_l2 (s : State) (p : Port) (x : PortSt) : (s.setPort p x).l2 = s.l2 := rfl
@[simp] theorem State.setPort_sd (s : State) (p : Port) (x : PortSt) : (s.setPort p x).sd = s.sd := rfl
@[simp] theorem State.setPort_husk (s : State) (p : Port) (x : PortSt) : (s.setPort p x).husk = s.husk := rfl
@[simp] theorem State.setPort_huskLast (s : State) (p : Port) (x : PortSt) : (s.setPort p x).huskLast = s.huskLast := rfl
@[simp] theorem State.setPort_hskInt (s : State) (p : Port) (x : PortSt) : (s.setPort p x).hskInt = s.hskInt := rfl
@[simp] theorem State.setPort_parcels (s : State) (p : Port) (x : PortSt) : (s.setPort p x).parcels = s.parcels := rfl
@[simp] theorem State.setPort_hgDue (s : State) (p : Port) (x : PortSt) : (s.setPort p x).hgDue = s.hgDue := rfl
@[simp] theorem State.setPort_trace (s : State) (p : Port) (x : PortSt) : (s.setPort p x).trace = s.trace := rfl
@[simp] theorem State.setPort_alive (s : State) (p : Port) (x : PortSt) : (s.setPort p x).alive = s.alive := rfl
@[simp] theorem State.setPort_capture (s : State) (p : Port) (x : PortSt) : (s.setPort p x).capture = s.capture := rfl
@[simp] theorem State.setPort_tester (s : State) (p : Port) (x : PortSt) : (s.setPort p x).tester = s.tester := rfl
@[simp] theorem State.setPort_rings (s : State) (p : Port) (x : PortSt) : (s.setPort p x).rings = s.rings := rfl
@[simp] theorem State.setPort_twin (s : State) (p : Port) (x : PortSt) : (s.setPort p x).twin = s.twin := rfl
@[simp] theorem State.setPort_chans (s : State) (p : Port) (x : PortSt) : (s.setPort p x).chans = s.chans := rfl
@[simp] theorem State.setPort_accum (s : State) (p : Port) (x : PortSt) : (s.setPort p x).accum = s.accum := rfl
@[simp] theorem State.setPort_ptp (s : State) (p : Port) (x : PortSt) : (s.setPort p x).ptp = s.ptp := rfl
@[simp] theorem State.setPort_resetDue (s : State) (p : Port) (x : PortSt) : (s.setPort p x).resetDue = s.resetDue := rfl
@[simp] theorem State.setPort_dma (s : State) (p : Port) (x : PortSt) : (s.setPort p x).dma = s.dma := rfl
@[simp] theorem State.setPort_dmaPermit (s : State) (p : Port) (x : PortSt) : (s.setPort p x).dmaPermit = s.dmaPermit := rfl
@[simp] theorem State.setPort_dmaLast (s : State) (p : Port) (x : PortSt) : (s.setPort p x).dmaLast = s.dmaLast := rfl
@[simp] theorem State.setPort_cry (s : State) (p : Port) (x : PortSt) : (s.setPort p x).cry = s.cry := rfl
@[simp] theorem State.setPort_cryStop (s : State) (p : Port) (x : PortSt) : (s.setPort p x).cryStop = s.cryStop := rfl
@[simp] theorem State.setPort_bits (s : State) (p : Port) (x : PortSt) : (s.setPort p x).bits = s.bits := rfl
@[simp] theorem State.setPort_boot (s : State) (p : Port) (x : PortSt) : (s.setPort p x).boot = s.boot := rfl
@[simp] theorem State.setPort_power (s : State) (p : Port) (x : PortSt) : (s.setPort p x).power = s.power := rfl
@[simp] theorem State.setPort_tap (s : State) (p : Port) (x : PortSt) : (s.setPort p x).tap = s.tap := rfl
@[simp] theorem State.setPort_credits (s : State) (p : Port) (x : PortSt) : (s.setPort p x).credits = s.credits := rfl
@[simp] theorem State.setPort_mlQueue (s : State) (p : Port) (x : PortSt) : (s.setPort p x).mlQueue = s.mlQueue := rfl
@[simp] theorem State.setPort_bulk (s : State) (p : Port) (x : PortSt) : (s.setPort p x).bulk = s.bulk := rfl
@[simp] theorem State.setPort_slQueue (s : State) (p : Port) (x : PortSt) : (s.setPort p x).slQueue = s.slQueue := rfl
@[simp] theorem State.setPort_slCmds (s : State) (p : Port) (x : PortSt) : (s.setPort p x).slCmds = s.slCmds := rfl
@[simp] theorem State.setPort_permit (s : State) (p : Port) (x : PortSt) : (s.setPort p x).permit = s.permit := rfl
@[simp] theorem State.setPort_stopped (s : State) (p : Port) (x : PortSt) : (s.setPort p x).stopped = s.stopped := rfl
@[simp] theorem State.setPort_ans (s : State) (p : Port) (x : PortSt) : (s.setPort p x).ans = s.ans := rfl
@[simp] theorem State.setPort_free (s : State) (p : Port) (x : PortSt) : (s.setPort p x).free = s.free := rfl
@[simp] theorem State.setPort_out (s : State) (p : Port) (x : PortSt) : (s.setPort p x).out = s.out := rfl
@[simp] theorem State.setPort_pending (s : State) (p : Port) (x : PortSt) : (s.setPort p x).pending = s.pending := rfl

@[simp] theorem State.setClu_cells (s : State) (n : Clu) (x : ClusterSt) : (s.setClu n x).cells = s.cells := rfl
@[simp] theorem State.setClu_mem (s : State) (n : Clu) (x : ClusterSt) : (s.setClu n x).mem = s.mem := rfl
@[simp] theorem State.setClu_ecc (s : State) (n : Clu) (x : ClusterSt) : (s.setClu n x).ecc = s.ecc := rfl
@[simp] theorem State.setClu_ports (s : State) (n : Clu) (x : ClusterSt) : (s.setClu n x).ports = s.ports := rfl
@[simp] theorem State.setClu_clusters (s : State) (n : Clu) (x : ClusterSt) : (s.setClu n x).clusters = s.clusters.set n x := rfl
@[simp] theorem State.setClu_time (s : State) (n : Clu) (x : ClusterSt) : (s.setClu n x).time = s.time := rfl
@[simp] theorem State.setClu_pps (s : State) (n : Clu) (x : ClusterSt) : (s.setClu n x).pps = s.pps := rfl
@[simp] theorem State.setClu_calib (s : State) (n : Clu) (x : ClusterSt) : (s.setClu n x).calib = s.calib := rfl
@[simp] theorem State.setClu_pinActs (s : State) (n : Clu) (x : ClusterSt) : (s.setClu n x).pinActs = s.pinActs := rfl
@[simp] theorem State.setClu_pinSets (s : State) (n : Clu) (x : ClusterSt) : (s.setClu n x).pinSets = s.pinSets := rfl
@[simp] theorem State.setClu_eng (s : State) (n : Clu) (x : ClusterSt) : (s.setClu n x).eng = s.eng := rfl
@[simp] theorem State.setClu_l2 (s : State) (n : Clu) (x : ClusterSt) : (s.setClu n x).l2 = s.l2 := rfl
@[simp] theorem State.setClu_sd (s : State) (n : Clu) (x : ClusterSt) : (s.setClu n x).sd = s.sd := rfl
@[simp] theorem State.setClu_husk (s : State) (n : Clu) (x : ClusterSt) : (s.setClu n x).husk = s.husk := rfl
@[simp] theorem State.setClu_huskLast (s : State) (n : Clu) (x : ClusterSt) : (s.setClu n x).huskLast = s.huskLast := rfl
@[simp] theorem State.setClu_hskInt (s : State) (n : Clu) (x : ClusterSt) : (s.setClu n x).hskInt = s.hskInt := rfl
@[simp] theorem State.setClu_parcels (s : State) (n : Clu) (x : ClusterSt) : (s.setClu n x).parcels = s.parcels := rfl
@[simp] theorem State.setClu_hgDue (s : State) (n : Clu) (x : ClusterSt) : (s.setClu n x).hgDue = s.hgDue := rfl
@[simp] theorem State.setClu_trace (s : State) (n : Clu) (x : ClusterSt) : (s.setClu n x).trace = s.trace := rfl
@[simp] theorem State.setClu_alive (s : State) (n : Clu) (x : ClusterSt) : (s.setClu n x).alive = s.alive := rfl
@[simp] theorem State.setClu_capture (s : State) (n : Clu) (x : ClusterSt) : (s.setClu n x).capture = s.capture := rfl
@[simp] theorem State.setClu_tester (s : State) (n : Clu) (x : ClusterSt) : (s.setClu n x).tester = s.tester := rfl
@[simp] theorem State.setClu_rings (s : State) (n : Clu) (x : ClusterSt) : (s.setClu n x).rings = s.rings := rfl
@[simp] theorem State.setClu_twin (s : State) (n : Clu) (x : ClusterSt) : (s.setClu n x).twin = s.twin := rfl
@[simp] theorem State.setClu_chans (s : State) (n : Clu) (x : ClusterSt) : (s.setClu n x).chans = s.chans := rfl
@[simp] theorem State.setClu_accum (s : State) (n : Clu) (x : ClusterSt) : (s.setClu n x).accum = s.accum := rfl
@[simp] theorem State.setClu_ptp (s : State) (n : Clu) (x : ClusterSt) : (s.setClu n x).ptp = s.ptp := rfl
@[simp] theorem State.setClu_resetDue (s : State) (n : Clu) (x : ClusterSt) : (s.setClu n x).resetDue = s.resetDue := rfl
@[simp] theorem State.setClu_dma (s : State) (n : Clu) (x : ClusterSt) : (s.setClu n x).dma = s.dma := rfl
@[simp] theorem State.setClu_dmaPermit (s : State) (n : Clu) (x : ClusterSt) : (s.setClu n x).dmaPermit = s.dmaPermit := rfl
@[simp] theorem State.setClu_dmaLast (s : State) (n : Clu) (x : ClusterSt) : (s.setClu n x).dmaLast = s.dmaLast := rfl
@[simp] theorem State.setClu_cry (s : State) (n : Clu) (x : ClusterSt) : (s.setClu n x).cry = s.cry := rfl
@[simp] theorem State.setClu_cryStop (s : State) (n : Clu) (x : ClusterSt) : (s.setClu n x).cryStop = s.cryStop := rfl
@[simp] theorem State.setClu_bits (s : State) (n : Clu) (x : ClusterSt) : (s.setClu n x).bits = s.bits := rfl
@[simp] theorem State.setClu_boot (s : State) (n : Clu) (x : ClusterSt) : (s.setClu n x).boot = s.boot := rfl
@[simp] theorem State.setClu_power (s : State) (n : Clu) (x : ClusterSt) : (s.setClu n x).power = s.power := rfl
@[simp] theorem State.setClu_tap (s : State) (n : Clu) (x : ClusterSt) : (s.setClu n x).tap = s.tap := rfl
@[simp] theorem State.setClu_credits (s : State) (n : Clu) (x : ClusterSt) : (s.setClu n x).credits = s.credits := rfl
@[simp] theorem State.setClu_mlQueue (s : State) (n : Clu) (x : ClusterSt) : (s.setClu n x).mlQueue = s.mlQueue := rfl
@[simp] theorem State.setClu_bulk (s : State) (n : Clu) (x : ClusterSt) : (s.setClu n x).bulk = s.bulk := rfl
@[simp] theorem State.setClu_slQueue (s : State) (n : Clu) (x : ClusterSt) : (s.setClu n x).slQueue = s.slQueue := rfl
@[simp] theorem State.setClu_slCmds (s : State) (n : Clu) (x : ClusterSt) : (s.setClu n x).slCmds = s.slCmds := rfl
@[simp] theorem State.setClu_permit (s : State) (n : Clu) (x : ClusterSt) : (s.setClu n x).permit = s.permit := rfl
@[simp] theorem State.setClu_stopped (s : State) (n : Clu) (x : ClusterSt) : (s.setClu n x).stopped = s.stopped := rfl
@[simp] theorem State.setClu_ans (s : State) (n : Clu) (x : ClusterSt) : (s.setClu n x).ans = s.ans := rfl
@[simp] theorem State.setClu_free (s : State) (n : Clu) (x : ClusterSt) : (s.setClu n x).free = s.free := rfl
@[simp] theorem State.setClu_out (s : State) (n : Clu) (x : ClusterSt) : (s.setClu n x).out = s.out := rfl
@[simp] theorem State.setClu_pending (s : State) (n : Clu) (x : ClusterSt) : (s.setClu n x).pending = s.pending := rfl

@[simp] theorem State.setDom_cells (s : State) (d : Fin 4) (x : TimeDom) : (s.setDom d x).cells = s.cells := rfl
@[simp] theorem State.setDom_mem (s : State) (d : Fin 4) (x : TimeDom) : (s.setDom d x).mem = s.mem := rfl
@[simp] theorem State.setDom_ecc (s : State) (d : Fin 4) (x : TimeDom) : (s.setDom d x).ecc = s.ecc := rfl
@[simp] theorem State.setDom_ports (s : State) (d : Fin 4) (x : TimeDom) : (s.setDom d x).ports = s.ports := rfl
@[simp] theorem State.setDom_clusters (s : State) (d : Fin 4) (x : TimeDom) : (s.setDom d x).clusters = s.clusters := rfl
@[simp] theorem State.setDom_time (s : State) (d : Fin 4) (x : TimeDom) : (s.setDom d x).time = s.time.set d x := rfl
@[simp] theorem State.setDom_pps (s : State) (d : Fin 4) (x : TimeDom) : (s.setDom d x).pps = s.pps := rfl
@[simp] theorem State.setDom_calib (s : State) (d : Fin 4) (x : TimeDom) : (s.setDom d x).calib = s.calib := rfl
@[simp] theorem State.setDom_pinActs (s : State) (d : Fin 4) (x : TimeDom) : (s.setDom d x).pinActs = s.pinActs := rfl
@[simp] theorem State.setDom_pinSets (s : State) (d : Fin 4) (x : TimeDom) : (s.setDom d x).pinSets = s.pinSets := rfl
@[simp] theorem State.setDom_eng (s : State) (d : Fin 4) (x : TimeDom) : (s.setDom d x).eng = s.eng := rfl
@[simp] theorem State.setDom_l2 (s : State) (d : Fin 4) (x : TimeDom) : (s.setDom d x).l2 = s.l2 := rfl
@[simp] theorem State.setDom_sd (s : State) (d : Fin 4) (x : TimeDom) : (s.setDom d x).sd = s.sd := rfl
@[simp] theorem State.setDom_husk (s : State) (d : Fin 4) (x : TimeDom) : (s.setDom d x).husk = s.husk := rfl
@[simp] theorem State.setDom_huskLast (s : State) (d : Fin 4) (x : TimeDom) : (s.setDom d x).huskLast = s.huskLast := rfl
@[simp] theorem State.setDom_hskInt (s : State) (d : Fin 4) (x : TimeDom) : (s.setDom d x).hskInt = s.hskInt := rfl
@[simp] theorem State.setDom_parcels (s : State) (d : Fin 4) (x : TimeDom) : (s.setDom d x).parcels = s.parcels := rfl
@[simp] theorem State.setDom_hgDue (s : State) (d : Fin 4) (x : TimeDom) : (s.setDom d x).hgDue = s.hgDue := rfl
@[simp] theorem State.setDom_trace (s : State) (d : Fin 4) (x : TimeDom) : (s.setDom d x).trace = s.trace := rfl
@[simp] theorem State.setDom_alive (s : State) (d : Fin 4) (x : TimeDom) : (s.setDom d x).alive = s.alive := rfl
@[simp] theorem State.setDom_capture (s : State) (d : Fin 4) (x : TimeDom) : (s.setDom d x).capture = s.capture := rfl
@[simp] theorem State.setDom_tester (s : State) (d : Fin 4) (x : TimeDom) : (s.setDom d x).tester = s.tester := rfl
@[simp] theorem State.setDom_rings (s : State) (d : Fin 4) (x : TimeDom) : (s.setDom d x).rings = s.rings := rfl
@[simp] theorem State.setDom_twin (s : State) (d : Fin 4) (x : TimeDom) : (s.setDom d x).twin = s.twin := rfl
@[simp] theorem State.setDom_chans (s : State) (d : Fin 4) (x : TimeDom) : (s.setDom d x).chans = s.chans := rfl
@[simp] theorem State.setDom_accum (s : State) (d : Fin 4) (x : TimeDom) : (s.setDom d x).accum = s.accum := rfl
@[simp] theorem State.setDom_ptp (s : State) (d : Fin 4) (x : TimeDom) : (s.setDom d x).ptp = s.ptp := rfl
@[simp] theorem State.setDom_resetDue (s : State) (d : Fin 4) (x : TimeDom) : (s.setDom d x).resetDue = s.resetDue := rfl
@[simp] theorem State.setDom_dma (s : State) (d : Fin 4) (x : TimeDom) : (s.setDom d x).dma = s.dma := rfl
@[simp] theorem State.setDom_dmaPermit (s : State) (d : Fin 4) (x : TimeDom) : (s.setDom d x).dmaPermit = s.dmaPermit := rfl
@[simp] theorem State.setDom_dmaLast (s : State) (d : Fin 4) (x : TimeDom) : (s.setDom d x).dmaLast = s.dmaLast := rfl
@[simp] theorem State.setDom_cry (s : State) (d : Fin 4) (x : TimeDom) : (s.setDom d x).cry = s.cry := rfl
@[simp] theorem State.setDom_cryStop (s : State) (d : Fin 4) (x : TimeDom) : (s.setDom d x).cryStop = s.cryStop := rfl
@[simp] theorem State.setDom_bits (s : State) (d : Fin 4) (x : TimeDom) : (s.setDom d x).bits = s.bits := rfl
@[simp] theorem State.setDom_boot (s : State) (d : Fin 4) (x : TimeDom) : (s.setDom d x).boot = s.boot := rfl
@[simp] theorem State.setDom_power (s : State) (d : Fin 4) (x : TimeDom) : (s.setDom d x).power = s.power := rfl
@[simp] theorem State.setDom_tap (s : State) (d : Fin 4) (x : TimeDom) : (s.setDom d x).tap = s.tap := rfl
@[simp] theorem State.setDom_credits (s : State) (d : Fin 4) (x : TimeDom) : (s.setDom d x).credits = s.credits := rfl
@[simp] theorem State.setDom_mlQueue (s : State) (d : Fin 4) (x : TimeDom) : (s.setDom d x).mlQueue = s.mlQueue := rfl
@[simp] theorem State.setDom_bulk (s : State) (d : Fin 4) (x : TimeDom) : (s.setDom d x).bulk = s.bulk := rfl
@[simp] theorem State.setDom_slQueue (s : State) (d : Fin 4) (x : TimeDom) : (s.setDom d x).slQueue = s.slQueue := rfl
@[simp] theorem State.setDom_slCmds (s : State) (d : Fin 4) (x : TimeDom) : (s.setDom d x).slCmds = s.slCmds := rfl
@[simp] theorem State.setDom_permit (s : State) (d : Fin 4) (x : TimeDom) : (s.setDom d x).permit = s.permit := rfl
@[simp] theorem State.setDom_stopped (s : State) (d : Fin 4) (x : TimeDom) : (s.setDom d x).stopped = s.stopped := rfl
@[simp] theorem State.setDom_ans (s : State) (d : Fin 4) (x : TimeDom) : (s.setDom d x).ans = s.ans := rfl
@[simp] theorem State.setDom_free (s : State) (d : Fin 4) (x : TimeDom) : (s.setDom d x).free = s.free := rfl
@[simp] theorem State.setDom_out (s : State) (d : Fin 4) (x : TimeDom) : (s.setDom d x).out = s.out := rfl
@[simp] theorem State.setDom_pending (s : State) (d : Fin 4) (x : TimeDom) : (s.setDom d x).pending = s.pending := rfl

@[simp] theorem State.setEng_cells (s : State) (e : Eng) (x : EngSt) : (s.setEng e x).cells = s.cells := rfl
@[simp] theorem State.setEng_mem (s : State) (e : Eng) (x : EngSt) : (s.setEng e x).mem = s.mem := rfl
@[simp] theorem State.setEng_ecc (s : State) (e : Eng) (x : EngSt) : (s.setEng e x).ecc = s.ecc := rfl
@[simp] theorem State.setEng_ports (s : State) (e : Eng) (x : EngSt) : (s.setEng e x).ports = s.ports := rfl
@[simp] theorem State.setEng_clusters (s : State) (e : Eng) (x : EngSt) : (s.setEng e x).clusters = s.clusters := rfl
@[simp] theorem State.setEng_time (s : State) (e : Eng) (x : EngSt) : (s.setEng e x).time = s.time := rfl
@[simp] theorem State.setEng_pps (s : State) (e : Eng) (x : EngSt) : (s.setEng e x).pps = s.pps := rfl
@[simp] theorem State.setEng_calib (s : State) (e : Eng) (x : EngSt) : (s.setEng e x).calib = s.calib := rfl
@[simp] theorem State.setEng_pinActs (s : State) (e : Eng) (x : EngSt) : (s.setEng e x).pinActs = s.pinActs := rfl
@[simp] theorem State.setEng_pinSets (s : State) (e : Eng) (x : EngSt) : (s.setEng e x).pinSets = s.pinSets := rfl
@[simp] theorem State.setEng_eng (s : State) (e : Eng) (x : EngSt) : (s.setEng e x).eng = s.eng.set e x := rfl
@[simp] theorem State.setEng_l2 (s : State) (e : Eng) (x : EngSt) : (s.setEng e x).l2 = s.l2 := rfl
@[simp] theorem State.setEng_sd (s : State) (e : Eng) (x : EngSt) : (s.setEng e x).sd = s.sd := rfl
@[simp] theorem State.setEng_husk (s : State) (e : Eng) (x : EngSt) : (s.setEng e x).husk = s.husk := rfl
@[simp] theorem State.setEng_huskLast (s : State) (e : Eng) (x : EngSt) : (s.setEng e x).huskLast = s.huskLast := rfl
@[simp] theorem State.setEng_hskInt (s : State) (e : Eng) (x : EngSt) : (s.setEng e x).hskInt = s.hskInt := rfl
@[simp] theorem State.setEng_parcels (s : State) (e : Eng) (x : EngSt) : (s.setEng e x).parcels = s.parcels := rfl
@[simp] theorem State.setEng_hgDue (s : State) (e : Eng) (x : EngSt) : (s.setEng e x).hgDue = s.hgDue := rfl
@[simp] theorem State.setEng_trace (s : State) (e : Eng) (x : EngSt) : (s.setEng e x).trace = s.trace := rfl
@[simp] theorem State.setEng_alive (s : State) (e : Eng) (x : EngSt) : (s.setEng e x).alive = s.alive := rfl
@[simp] theorem State.setEng_capture (s : State) (e : Eng) (x : EngSt) : (s.setEng e x).capture = s.capture := rfl
@[simp] theorem State.setEng_tester (s : State) (e : Eng) (x : EngSt) : (s.setEng e x).tester = s.tester := rfl
@[simp] theorem State.setEng_rings (s : State) (e : Eng) (x : EngSt) : (s.setEng e x).rings = s.rings := rfl
@[simp] theorem State.setEng_twin (s : State) (e : Eng) (x : EngSt) : (s.setEng e x).twin = s.twin := rfl
@[simp] theorem State.setEng_chans (s : State) (e : Eng) (x : EngSt) : (s.setEng e x).chans = s.chans := rfl
@[simp] theorem State.setEng_accum (s : State) (e : Eng) (x : EngSt) : (s.setEng e x).accum = s.accum := rfl
@[simp] theorem State.setEng_ptp (s : State) (e : Eng) (x : EngSt) : (s.setEng e x).ptp = s.ptp := rfl
@[simp] theorem State.setEng_resetDue (s : State) (e : Eng) (x : EngSt) : (s.setEng e x).resetDue = s.resetDue := rfl
@[simp] theorem State.setEng_dma (s : State) (e : Eng) (x : EngSt) : (s.setEng e x).dma = s.dma := rfl
@[simp] theorem State.setEng_dmaPermit (s : State) (e : Eng) (x : EngSt) : (s.setEng e x).dmaPermit = s.dmaPermit := rfl
@[simp] theorem State.setEng_dmaLast (s : State) (e : Eng) (x : EngSt) : (s.setEng e x).dmaLast = s.dmaLast := rfl
@[simp] theorem State.setEng_cry (s : State) (e : Eng) (x : EngSt) : (s.setEng e x).cry = s.cry := rfl
@[simp] theorem State.setEng_cryStop (s : State) (e : Eng) (x : EngSt) : (s.setEng e x).cryStop = s.cryStop := rfl
@[simp] theorem State.setEng_bits (s : State) (e : Eng) (x : EngSt) : (s.setEng e x).bits = s.bits := rfl
@[simp] theorem State.setEng_boot (s : State) (e : Eng) (x : EngSt) : (s.setEng e x).boot = s.boot := rfl
@[simp] theorem State.setEng_power (s : State) (e : Eng) (x : EngSt) : (s.setEng e x).power = s.power := rfl
@[simp] theorem State.setEng_tap (s : State) (e : Eng) (x : EngSt) : (s.setEng e x).tap = s.tap := rfl
@[simp] theorem State.setEng_credits (s : State) (e : Eng) (x : EngSt) : (s.setEng e x).credits = s.credits := rfl
@[simp] theorem State.setEng_mlQueue (s : State) (e : Eng) (x : EngSt) : (s.setEng e x).mlQueue = s.mlQueue := rfl
@[simp] theorem State.setEng_bulk (s : State) (e : Eng) (x : EngSt) : (s.setEng e x).bulk = s.bulk := rfl
@[simp] theorem State.setEng_slQueue (s : State) (e : Eng) (x : EngSt) : (s.setEng e x).slQueue = s.slQueue := rfl
@[simp] theorem State.setEng_slCmds (s : State) (e : Eng) (x : EngSt) : (s.setEng e x).slCmds = s.slCmds := rfl
@[simp] theorem State.setEng_permit (s : State) (e : Eng) (x : EngSt) : (s.setEng e x).permit = s.permit := rfl
@[simp] theorem State.setEng_stopped (s : State) (e : Eng) (x : EngSt) : (s.setEng e x).stopped = s.stopped := rfl
@[simp] theorem State.setEng_ans (s : State) (e : Eng) (x : EngSt) : (s.setEng e x).ans = s.ans := rfl
@[simp] theorem State.setEng_free (s : State) (e : Eng) (x : EngSt) : (s.setEng e x).free = s.free := rfl
@[simp] theorem State.setEng_out (s : State) (e : Eng) (x : EngSt) : (s.setEng e x).out = s.out := rfl
@[simp] theorem State.setEng_pending (s : State) (e : Eng) (x : EngSt) : (s.setEng e x).pending = s.pending := rfl

@[simp] theorem State.modEng_cells (s : State) (e : Eng) (g : EngSt → EngSt) : (s.modEng e g).cells = s.cells := rfl
@[simp] theorem State.modEng_mem (s : State) (e : Eng) (g : EngSt → EngSt) : (s.modEng e g).mem = s.mem := rfl
@[simp] theorem State.modEng_ecc (s : State) (e : Eng) (g : EngSt → EngSt) : (s.modEng e g).ecc = s.ecc := rfl
@[simp] theorem State.modEng_ports (s : State) (e : Eng) (g : EngSt → EngSt) : (s.modEng e g).ports = s.ports := rfl
@[simp] theorem State.modEng_clusters (s : State) (e : Eng) (g : EngSt → EngSt) : (s.modEng e g).clusters = s.clusters := rfl
@[simp] theorem State.modEng_time (s : State) (e : Eng) (g : EngSt → EngSt) : (s.modEng e g).time = s.time := rfl
@[simp] theorem State.modEng_pps (s : State) (e : Eng) (g : EngSt → EngSt) : (s.modEng e g).pps = s.pps := rfl
@[simp] theorem State.modEng_calib (s : State) (e : Eng) (g : EngSt → EngSt) : (s.modEng e g).calib = s.calib := rfl
@[simp] theorem State.modEng_pinActs (s : State) (e : Eng) (g : EngSt → EngSt) : (s.modEng e g).pinActs = s.pinActs := rfl
@[simp] theorem State.modEng_pinSets (s : State) (e : Eng) (g : EngSt → EngSt) : (s.modEng e g).pinSets = s.pinSets := rfl
@[simp] theorem State.modEng_l2 (s : State) (e : Eng) (g : EngSt → EngSt) : (s.modEng e g).l2 = s.l2 := rfl
@[simp] theorem State.modEng_sd (s : State) (e : Eng) (g : EngSt → EngSt) : (s.modEng e g).sd = s.sd := rfl
@[simp] theorem State.modEng_husk (s : State) (e : Eng) (g : EngSt → EngSt) : (s.modEng e g).husk = s.husk := rfl
@[simp] theorem State.modEng_huskLast (s : State) (e : Eng) (g : EngSt → EngSt) : (s.modEng e g).huskLast = s.huskLast := rfl
@[simp] theorem State.modEng_hskInt (s : State) (e : Eng) (g : EngSt → EngSt) : (s.modEng e g).hskInt = s.hskInt := rfl
@[simp] theorem State.modEng_parcels (s : State) (e : Eng) (g : EngSt → EngSt) : (s.modEng e g).parcels = s.parcels := rfl
@[simp] theorem State.modEng_hgDue (s : State) (e : Eng) (g : EngSt → EngSt) : (s.modEng e g).hgDue = s.hgDue := rfl
@[simp] theorem State.modEng_trace (s : State) (e : Eng) (g : EngSt → EngSt) : (s.modEng e g).trace = s.trace := rfl
@[simp] theorem State.modEng_alive (s : State) (e : Eng) (g : EngSt → EngSt) : (s.modEng e g).alive = s.alive := rfl
@[simp] theorem State.modEng_capture (s : State) (e : Eng) (g : EngSt → EngSt) : (s.modEng e g).capture = s.capture := rfl
@[simp] theorem State.modEng_tester (s : State) (e : Eng) (g : EngSt → EngSt) : (s.modEng e g).tester = s.tester := rfl
@[simp] theorem State.modEng_rings (s : State) (e : Eng) (g : EngSt → EngSt) : (s.modEng e g).rings = s.rings := rfl
@[simp] theorem State.modEng_twin (s : State) (e : Eng) (g : EngSt → EngSt) : (s.modEng e g).twin = s.twin := rfl
@[simp] theorem State.modEng_chans (s : State) (e : Eng) (g : EngSt → EngSt) : (s.modEng e g).chans = s.chans := rfl
@[simp] theorem State.modEng_accum (s : State) (e : Eng) (g : EngSt → EngSt) : (s.modEng e g).accum = s.accum := rfl
@[simp] theorem State.modEng_ptp (s : State) (e : Eng) (g : EngSt → EngSt) : (s.modEng e g).ptp = s.ptp := rfl
@[simp] theorem State.modEng_resetDue (s : State) (e : Eng) (g : EngSt → EngSt) : (s.modEng e g).resetDue = s.resetDue := rfl
@[simp] theorem State.modEng_dma (s : State) (e : Eng) (g : EngSt → EngSt) : (s.modEng e g).dma = s.dma := rfl
@[simp] theorem State.modEng_dmaPermit (s : State) (e : Eng) (g : EngSt → EngSt) : (s.modEng e g).dmaPermit = s.dmaPermit := rfl
@[simp] theorem State.modEng_dmaLast (s : State) (e : Eng) (g : EngSt → EngSt) : (s.modEng e g).dmaLast = s.dmaLast := rfl
@[simp] theorem State.modEng_cry (s : State) (e : Eng) (g : EngSt → EngSt) : (s.modEng e g).cry = s.cry := rfl
@[simp] theorem State.modEng_cryStop (s : State) (e : Eng) (g : EngSt → EngSt) : (s.modEng e g).cryStop = s.cryStop := rfl
@[simp] theorem State.modEng_bits (s : State) (e : Eng) (g : EngSt → EngSt) : (s.modEng e g).bits = s.bits := rfl
@[simp] theorem State.modEng_boot (s : State) (e : Eng) (g : EngSt → EngSt) : (s.modEng e g).boot = s.boot := rfl
@[simp] theorem State.modEng_power (s : State) (e : Eng) (g : EngSt → EngSt) : (s.modEng e g).power = s.power := rfl
@[simp] theorem State.modEng_tap (s : State) (e : Eng) (g : EngSt → EngSt) : (s.modEng e g).tap = s.tap := rfl
@[simp] theorem State.modEng_credits (s : State) (e : Eng) (g : EngSt → EngSt) : (s.modEng e g).credits = s.credits := rfl
@[simp] theorem State.modEng_mlQueue (s : State) (e : Eng) (g : EngSt → EngSt) : (s.modEng e g).mlQueue = s.mlQueue := rfl
@[simp] theorem State.modEng_bulk (s : State) (e : Eng) (g : EngSt → EngSt) : (s.modEng e g).bulk = s.bulk := rfl
@[simp] theorem State.modEng_slQueue (s : State) (e : Eng) (g : EngSt → EngSt) : (s.modEng e g).slQueue = s.slQueue := rfl
@[simp] theorem State.modEng_slCmds (s : State) (e : Eng) (g : EngSt → EngSt) : (s.modEng e g).slCmds = s.slCmds := rfl
@[simp] theorem State.modEng_permit (s : State) (e : Eng) (g : EngSt → EngSt) : (s.modEng e g).permit = s.permit := rfl
@[simp] theorem State.modEng_stopped (s : State) (e : Eng) (g : EngSt → EngSt) : (s.modEng e g).stopped = s.stopped := rfl
@[simp] theorem State.modEng_ans (s : State) (e : Eng) (g : EngSt → EngSt) : (s.modEng e g).ans = s.ans := rfl
@[simp] theorem State.modEng_free (s : State) (e : Eng) (g : EngSt → EngSt) : (s.modEng e g).free = s.free := rfl
@[simp] theorem State.modEng_out (s : State) (e : Eng) (g : EngSt → EngSt) : (s.modEng e g).out = s.out := rfl
@[simp] theorem State.modEng_pending (s : State) (e : Eng) (g : EngSt → EngSt) : (s.modEng e g).pending = s.pending := rfl

@[simp] theorem State.setL2_cells (s : State) (n : Nat) (t : Tlb) : (s.setL2 n t).cells = s.cells := rfl
@[simp] theorem State.setL2_mem (s : State) (n : Nat) (t : Tlb) : (s.setL2 n t).mem = s.mem := rfl
@[simp] theorem State.setL2_ecc (s : State) (n : Nat) (t : Tlb) : (s.setL2 n t).ecc = s.ecc := rfl
@[simp] theorem State.setL2_ports (s : State) (n : Nat) (t : Tlb) : (s.setL2 n t).ports = s.ports := rfl
@[simp] theorem State.setL2_clusters (s : State) (n : Nat) (t : Tlb) : (s.setL2 n t).clusters = s.clusters := rfl
@[simp] theorem State.setL2_time (s : State) (n : Nat) (t : Tlb) : (s.setL2 n t).time = s.time := rfl
@[simp] theorem State.setL2_pps (s : State) (n : Nat) (t : Tlb) : (s.setL2 n t).pps = s.pps := rfl
@[simp] theorem State.setL2_calib (s : State) (n : Nat) (t : Tlb) : (s.setL2 n t).calib = s.calib := rfl
@[simp] theorem State.setL2_pinActs (s : State) (n : Nat) (t : Tlb) : (s.setL2 n t).pinActs = s.pinActs := rfl
@[simp] theorem State.setL2_pinSets (s : State) (n : Nat) (t : Tlb) : (s.setL2 n t).pinSets = s.pinSets := rfl
@[simp] theorem State.setL2_eng (s : State) (n : Nat) (t : Tlb) : (s.setL2 n t).eng = s.eng := rfl
@[simp] theorem State.setL2_sd (s : State) (n : Nat) (t : Tlb) : (s.setL2 n t).sd = s.sd := rfl
@[simp] theorem State.setL2_husk (s : State) (n : Nat) (t : Tlb) : (s.setL2 n t).husk = s.husk := rfl
@[simp] theorem State.setL2_huskLast (s : State) (n : Nat) (t : Tlb) : (s.setL2 n t).huskLast = s.huskLast := rfl
@[simp] theorem State.setL2_hskInt (s : State) (n : Nat) (t : Tlb) : (s.setL2 n t).hskInt = s.hskInt := rfl
@[simp] theorem State.setL2_parcels (s : State) (n : Nat) (t : Tlb) : (s.setL2 n t).parcels = s.parcels := rfl
@[simp] theorem State.setL2_hgDue (s : State) (n : Nat) (t : Tlb) : (s.setL2 n t).hgDue = s.hgDue := rfl
@[simp] theorem State.setL2_trace (s : State) (n : Nat) (t : Tlb) : (s.setL2 n t).trace = s.trace := rfl
@[simp] theorem State.setL2_alive (s : State) (n : Nat) (t : Tlb) : (s.setL2 n t).alive = s.alive := rfl
@[simp] theorem State.setL2_capture (s : State) (n : Nat) (t : Tlb) : (s.setL2 n t).capture = s.capture := rfl
@[simp] theorem State.setL2_tester (s : State) (n : Nat) (t : Tlb) : (s.setL2 n t).tester = s.tester := rfl
@[simp] theorem State.setL2_rings (s : State) (n : Nat) (t : Tlb) : (s.setL2 n t).rings = s.rings := rfl
@[simp] theorem State.setL2_twin (s : State) (n : Nat) (t : Tlb) : (s.setL2 n t).twin = s.twin := rfl
@[simp] theorem State.setL2_chans (s : State) (n : Nat) (t : Tlb) : (s.setL2 n t).chans = s.chans := rfl
@[simp] theorem State.setL2_accum (s : State) (n : Nat) (t : Tlb) : (s.setL2 n t).accum = s.accum := rfl
@[simp] theorem State.setL2_ptp (s : State) (n : Nat) (t : Tlb) : (s.setL2 n t).ptp = s.ptp := rfl
@[simp] theorem State.setL2_resetDue (s : State) (n : Nat) (t : Tlb) : (s.setL2 n t).resetDue = s.resetDue := rfl
@[simp] theorem State.setL2_dma (s : State) (n : Nat) (t : Tlb) : (s.setL2 n t).dma = s.dma := rfl
@[simp] theorem State.setL2_dmaPermit (s : State) (n : Nat) (t : Tlb) : (s.setL2 n t).dmaPermit = s.dmaPermit := rfl
@[simp] theorem State.setL2_dmaLast (s : State) (n : Nat) (t : Tlb) : (s.setL2 n t).dmaLast = s.dmaLast := rfl
@[simp] theorem State.setL2_cry (s : State) (n : Nat) (t : Tlb) : (s.setL2 n t).cry = s.cry := rfl
@[simp] theorem State.setL2_cryStop (s : State) (n : Nat) (t : Tlb) : (s.setL2 n t).cryStop = s.cryStop := rfl
@[simp] theorem State.setL2_bits (s : State) (n : Nat) (t : Tlb) : (s.setL2 n t).bits = s.bits := rfl
@[simp] theorem State.setL2_boot (s : State) (n : Nat) (t : Tlb) : (s.setL2 n t).boot = s.boot := rfl
@[simp] theorem State.setL2_power (s : State) (n : Nat) (t : Tlb) : (s.setL2 n t).power = s.power := rfl
@[simp] theorem State.setL2_tap (s : State) (n : Nat) (t : Tlb) : (s.setL2 n t).tap = s.tap := rfl
@[simp] theorem State.setL2_credits (s : State) (n : Nat) (t : Tlb) : (s.setL2 n t).credits = s.credits := rfl
@[simp] theorem State.setL2_mlQueue (s : State) (n : Nat) (t : Tlb) : (s.setL2 n t).mlQueue = s.mlQueue := rfl
@[simp] theorem State.setL2_bulk (s : State) (n : Nat) (t : Tlb) : (s.setL2 n t).bulk = s.bulk := rfl
@[simp] theorem State.setL2_slQueue (s : State) (n : Nat) (t : Tlb) : (s.setL2 n t).slQueue = s.slQueue := rfl
@[simp] theorem State.setL2_slCmds (s : State) (n : Nat) (t : Tlb) : (s.setL2 n t).slCmds = s.slCmds := rfl
@[simp] theorem State.setL2_permit (s : State) (n : Nat) (t : Tlb) : (s.setL2 n t).permit = s.permit := rfl
@[simp] theorem State.setL2_stopped (s : State) (n : Nat) (t : Tlb) : (s.setL2 n t).stopped = s.stopped := rfl
@[simp] theorem State.setL2_ans (s : State) (n : Nat) (t : Tlb) : (s.setL2 n t).ans = s.ans := rfl
@[simp] theorem State.setL2_free (s : State) (n : Nat) (t : Tlb) : (s.setL2 n t).free = s.free := rfl
@[simp] theorem State.setL2_out (s : State) (n : Nat) (t : Tlb) : (s.setL2 n t).out = s.out := rfl
@[simp] theorem State.setL2_pending (s : State) (n : Nat) (t : Tlb) : (s.setL2 n t).pending = s.pending := rfl

@[simp] theorem State.setPps_cells (s : State) (k : Fin 4) (x : PpsSt) : (s.setPps k x).cells = s.cells := rfl
@[simp] theorem State.setPps_mem (s : State) (k : Fin 4) (x : PpsSt) : (s.setPps k x).mem = s.mem := rfl
@[simp] theorem State.setPps_ecc (s : State) (k : Fin 4) (x : PpsSt) : (s.setPps k x).ecc = s.ecc := rfl
@[simp] theorem State.setPps_ports (s : State) (k : Fin 4) (x : PpsSt) : (s.setPps k x).ports = s.ports := rfl
@[simp] theorem State.setPps_clusters (s : State) (k : Fin 4) (x : PpsSt) : (s.setPps k x).clusters = s.clusters := rfl
@[simp] theorem State.setPps_time (s : State) (k : Fin 4) (x : PpsSt) : (s.setPps k x).time = s.time := rfl
@[simp] theorem State.setPps_pps (s : State) (k : Fin 4) (x : PpsSt) : (s.setPps k x).pps = s.pps.set k x := rfl
@[simp] theorem State.setPps_calib (s : State) (k : Fin 4) (x : PpsSt) : (s.setPps k x).calib = s.calib := rfl
@[simp] theorem State.setPps_pinActs (s : State) (k : Fin 4) (x : PpsSt) : (s.setPps k x).pinActs = s.pinActs := rfl
@[simp] theorem State.setPps_pinSets (s : State) (k : Fin 4) (x : PpsSt) : (s.setPps k x).pinSets = s.pinSets := rfl
@[simp] theorem State.setPps_eng (s : State) (k : Fin 4) (x : PpsSt) : (s.setPps k x).eng = s.eng := rfl
@[simp] theorem State.setPps_l2 (s : State) (k : Fin 4) (x : PpsSt) : (s.setPps k x).l2 = s.l2 := rfl
@[simp] theorem State.setPps_sd (s : State) (k : Fin 4) (x : PpsSt) : (s.setPps k x).sd = s.sd := rfl
@[simp] theorem State.setPps_husk (s : State) (k : Fin 4) (x : PpsSt) : (s.setPps k x).husk = s.husk := rfl
@[simp] theorem State.setPps_huskLast (s : State) (k : Fin 4) (x : PpsSt) : (s.setPps k x).huskLast = s.huskLast := rfl
@[simp] theorem State.setPps_hskInt (s : State) (k : Fin 4) (x : PpsSt) : (s.setPps k x).hskInt = s.hskInt := rfl
@[simp] theorem State.setPps_parcels (s : State) (k : Fin 4) (x : PpsSt) : (s.setPps k x).parcels = s.parcels := rfl
@[simp] theorem State.setPps_hgDue (s : State) (k : Fin 4) (x : PpsSt) : (s.setPps k x).hgDue = s.hgDue := rfl
@[simp] theorem State.setPps_trace (s : State) (k : Fin 4) (x : PpsSt) : (s.setPps k x).trace = s.trace := rfl
@[simp] theorem State.setPps_alive (s : State) (k : Fin 4) (x : PpsSt) : (s.setPps k x).alive = s.alive := rfl
@[simp] theorem State.setPps_capture (s : State) (k : Fin 4) (x : PpsSt) : (s.setPps k x).capture = s.capture := rfl
@[simp] theorem State.setPps_tester (s : State) (k : Fin 4) (x : PpsSt) : (s.setPps k x).tester = s.tester := rfl
@[simp] theorem State.setPps_rings (s : State) (k : Fin 4) (x : PpsSt) : (s.setPps k x).rings = s.rings := rfl
@[simp] theorem State.setPps_twin (s : State) (k : Fin 4) (x : PpsSt) : (s.setPps k x).twin = s.twin := rfl
@[simp] theorem State.setPps_chans (s : State) (k : Fin 4) (x : PpsSt) : (s.setPps k x).chans = s.chans := rfl
@[simp] theorem State.setPps_accum (s : State) (k : Fin 4) (x : PpsSt) : (s.setPps k x).accum = s.accum := rfl
@[simp] theorem State.setPps_ptp (s : State) (k : Fin 4) (x : PpsSt) : (s.setPps k x).ptp = s.ptp := rfl
@[simp] theorem State.setPps_resetDue (s : State) (k : Fin 4) (x : PpsSt) : (s.setPps k x).resetDue = s.resetDue := rfl
@[simp] theorem State.setPps_dma (s : State) (k : Fin 4) (x : PpsSt) : (s.setPps k x).dma = s.dma := rfl
@[simp] theorem State.setPps_dmaPermit (s : State) (k : Fin 4) (x : PpsSt) : (s.setPps k x).dmaPermit = s.dmaPermit := rfl
@[simp] theorem State.setPps_dmaLast (s : State) (k : Fin 4) (x : PpsSt) : (s.setPps k x).dmaLast = s.dmaLast := rfl
@[simp] theorem State.setPps_cry (s : State) (k : Fin 4) (x : PpsSt) : (s.setPps k x).cry = s.cry := rfl
@[simp] theorem State.setPps_cryStop (s : State) (k : Fin 4) (x : PpsSt) : (s.setPps k x).cryStop = s.cryStop := rfl
@[simp] theorem State.setPps_bits (s : State) (k : Fin 4) (x : PpsSt) : (s.setPps k x).bits = s.bits := rfl
@[simp] theorem State.setPps_boot (s : State) (k : Fin 4) (x : PpsSt) : (s.setPps k x).boot = s.boot := rfl
@[simp] theorem State.setPps_power (s : State) (k : Fin 4) (x : PpsSt) : (s.setPps k x).power = s.power := rfl
@[simp] theorem State.setPps_tap (s : State) (k : Fin 4) (x : PpsSt) : (s.setPps k x).tap = s.tap := rfl
@[simp] theorem State.setPps_credits (s : State) (k : Fin 4) (x : PpsSt) : (s.setPps k x).credits = s.credits := rfl
@[simp] theorem State.setPps_mlQueue (s : State) (k : Fin 4) (x : PpsSt) : (s.setPps k x).mlQueue = s.mlQueue := rfl
@[simp] theorem State.setPps_bulk (s : State) (k : Fin 4) (x : PpsSt) : (s.setPps k x).bulk = s.bulk := rfl
@[simp] theorem State.setPps_slQueue (s : State) (k : Fin 4) (x : PpsSt) : (s.setPps k x).slQueue = s.slQueue := rfl
@[simp] theorem State.setPps_slCmds (s : State) (k : Fin 4) (x : PpsSt) : (s.setPps k x).slCmds = s.slCmds := rfl
@[simp] theorem State.setPps_permit (s : State) (k : Fin 4) (x : PpsSt) : (s.setPps k x).permit = s.permit := rfl
@[simp] theorem State.setPps_stopped (s : State) (k : Fin 4) (x : PpsSt) : (s.setPps k x).stopped = s.stopped := rfl
@[simp] theorem State.setPps_ans (s : State) (k : Fin 4) (x : PpsSt) : (s.setPps k x).ans = s.ans := rfl
@[simp] theorem State.setPps_free (s : State) (k : Fin 4) (x : PpsSt) : (s.setPps k x).free = s.free := rfl
@[simp] theorem State.setPps_out (s : State) (k : Fin 4) (x : PpsSt) : (s.setPps k x).out = s.out := rfl
@[simp] theorem State.setPps_pending (s : State) (k : Fin 4) (x : PpsSt) : (s.setPps k x).pending = s.pending := rfl

@[simp] theorem State.modDma_cells (s : State) (c : Ch) (g : DmaSt → DmaSt) : (s.modDma c g).cells = s.cells := rfl
@[simp] theorem State.modDma_mem (s : State) (c : Ch) (g : DmaSt → DmaSt) : (s.modDma c g).mem = s.mem := rfl
@[simp] theorem State.modDma_ecc (s : State) (c : Ch) (g : DmaSt → DmaSt) : (s.modDma c g).ecc = s.ecc := rfl
@[simp] theorem State.modDma_ports (s : State) (c : Ch) (g : DmaSt → DmaSt) : (s.modDma c g).ports = s.ports := rfl
@[simp] theorem State.modDma_clusters (s : State) (c : Ch) (g : DmaSt → DmaSt) : (s.modDma c g).clusters = s.clusters := rfl
@[simp] theorem State.modDma_time (s : State) (c : Ch) (g : DmaSt → DmaSt) : (s.modDma c g).time = s.time := rfl
@[simp] theorem State.modDma_pps (s : State) (c : Ch) (g : DmaSt → DmaSt) : (s.modDma c g).pps = s.pps := rfl
@[simp] theorem State.modDma_calib (s : State) (c : Ch) (g : DmaSt → DmaSt) : (s.modDma c g).calib = s.calib := rfl
@[simp] theorem State.modDma_pinActs (s : State) (c : Ch) (g : DmaSt → DmaSt) : (s.modDma c g).pinActs = s.pinActs := rfl
@[simp] theorem State.modDma_pinSets (s : State) (c : Ch) (g : DmaSt → DmaSt) : (s.modDma c g).pinSets = s.pinSets := rfl
@[simp] theorem State.modDma_eng (s : State) (c : Ch) (g : DmaSt → DmaSt) : (s.modDma c g).eng = s.eng := rfl
@[simp] theorem State.modDma_l2 (s : State) (c : Ch) (g : DmaSt → DmaSt) : (s.modDma c g).l2 = s.l2 := rfl
@[simp] theorem State.modDma_sd (s : State) (c : Ch) (g : DmaSt → DmaSt) : (s.modDma c g).sd = s.sd := rfl
@[simp] theorem State.modDma_husk (s : State) (c : Ch) (g : DmaSt → DmaSt) : (s.modDma c g).husk = s.husk := rfl
@[simp] theorem State.modDma_huskLast (s : State) (c : Ch) (g : DmaSt → DmaSt) : (s.modDma c g).huskLast = s.huskLast := rfl
@[simp] theorem State.modDma_hskInt (s : State) (c : Ch) (g : DmaSt → DmaSt) : (s.modDma c g).hskInt = s.hskInt := rfl
@[simp] theorem State.modDma_parcels (s : State) (c : Ch) (g : DmaSt → DmaSt) : (s.modDma c g).parcels = s.parcels := rfl
@[simp] theorem State.modDma_hgDue (s : State) (c : Ch) (g : DmaSt → DmaSt) : (s.modDma c g).hgDue = s.hgDue := rfl
@[simp] theorem State.modDma_trace (s : State) (c : Ch) (g : DmaSt → DmaSt) : (s.modDma c g).trace = s.trace := rfl
@[simp] theorem State.modDma_alive (s : State) (c : Ch) (g : DmaSt → DmaSt) : (s.modDma c g).alive = s.alive := rfl
@[simp] theorem State.modDma_capture (s : State) (c : Ch) (g : DmaSt → DmaSt) : (s.modDma c g).capture = s.capture := rfl
@[simp] theorem State.modDma_tester (s : State) (c : Ch) (g : DmaSt → DmaSt) : (s.modDma c g).tester = s.tester := rfl
@[simp] theorem State.modDma_rings (s : State) (c : Ch) (g : DmaSt → DmaSt) : (s.modDma c g).rings = s.rings := rfl
@[simp] theorem State.modDma_twin (s : State) (c : Ch) (g : DmaSt → DmaSt) : (s.modDma c g).twin = s.twin := rfl
@[simp] theorem State.modDma_chans (s : State) (c : Ch) (g : DmaSt → DmaSt) : (s.modDma c g).chans = s.chans := rfl
@[simp] theorem State.modDma_accum (s : State) (c : Ch) (g : DmaSt → DmaSt) : (s.modDma c g).accum = s.accum := rfl
@[simp] theorem State.modDma_ptp (s : State) (c : Ch) (g : DmaSt → DmaSt) : (s.modDma c g).ptp = s.ptp := rfl
@[simp] theorem State.modDma_resetDue (s : State) (c : Ch) (g : DmaSt → DmaSt) : (s.modDma c g).resetDue = s.resetDue := rfl
@[simp] theorem State.modDma_dmaPermit (s : State) (c : Ch) (g : DmaSt → DmaSt) : (s.modDma c g).dmaPermit = s.dmaPermit := rfl
@[simp] theorem State.modDma_dmaLast (s : State) (c : Ch) (g : DmaSt → DmaSt) : (s.modDma c g).dmaLast = s.dmaLast := rfl
@[simp] theorem State.modDma_cry (s : State) (c : Ch) (g : DmaSt → DmaSt) : (s.modDma c g).cry = s.cry := rfl
@[simp] theorem State.modDma_cryStop (s : State) (c : Ch) (g : DmaSt → DmaSt) : (s.modDma c g).cryStop = s.cryStop := rfl
@[simp] theorem State.modDma_bits (s : State) (c : Ch) (g : DmaSt → DmaSt) : (s.modDma c g).bits = s.bits := rfl
@[simp] theorem State.modDma_boot (s : State) (c : Ch) (g : DmaSt → DmaSt) : (s.modDma c g).boot = s.boot := rfl
@[simp] theorem State.modDma_power (s : State) (c : Ch) (g : DmaSt → DmaSt) : (s.modDma c g).power = s.power := rfl
@[simp] theorem State.modDma_tap (s : State) (c : Ch) (g : DmaSt → DmaSt) : (s.modDma c g).tap = s.tap := rfl
@[simp] theorem State.modDma_credits (s : State) (c : Ch) (g : DmaSt → DmaSt) : (s.modDma c g).credits = s.credits := rfl
@[simp] theorem State.modDma_mlQueue (s : State) (c : Ch) (g : DmaSt → DmaSt) : (s.modDma c g).mlQueue = s.mlQueue := rfl
@[simp] theorem State.modDma_bulk (s : State) (c : Ch) (g : DmaSt → DmaSt) : (s.modDma c g).bulk = s.bulk := rfl
@[simp] theorem State.modDma_slQueue (s : State) (c : Ch) (g : DmaSt → DmaSt) : (s.modDma c g).slQueue = s.slQueue := rfl
@[simp] theorem State.modDma_slCmds (s : State) (c : Ch) (g : DmaSt → DmaSt) : (s.modDma c g).slCmds = s.slCmds := rfl
@[simp] theorem State.modDma_permit (s : State) (c : Ch) (g : DmaSt → DmaSt) : (s.modDma c g).permit = s.permit := rfl
@[simp] theorem State.modDma_stopped (s : State) (c : Ch) (g : DmaSt → DmaSt) : (s.modDma c g).stopped = s.stopped := rfl
@[simp] theorem State.modDma_ans (s : State) (c : Ch) (g : DmaSt → DmaSt) : (s.modDma c g).ans = s.ans := rfl
@[simp] theorem State.modDma_free (s : State) (c : Ch) (g : DmaSt → DmaSt) : (s.modDma c g).free = s.free := rfl
@[simp] theorem State.modDma_out (s : State) (c : Ch) (g : DmaSt → DmaSt) : (s.modDma c g).out = s.out := rfl
@[simp] theorem State.modDma_pending (s : State) (c : Ch) (g : DmaSt → DmaSt) : (s.modDma c g).pending = s.pending := rfl

@[simp] theorem State.modRing_cells (s : State) (r : Clu) (g : RingSt → RingSt) : (s.modRing r g).cells = s.cells := rfl
@[simp] theorem State.modRing_mem (s : State) (r : Clu) (g : RingSt → RingSt) : (s.modRing r g).mem = s.mem := rfl
@[simp] theorem State.modRing_ecc (s : State) (r : Clu) (g : RingSt → RingSt) : (s.modRing r g).ecc = s.ecc := rfl
@[simp] theorem State.modRing_ports (s : State) (r : Clu) (g : RingSt → RingSt) : (s.modRing r g).ports = s.ports := rfl
@[simp] theorem State.modRing_clusters (s : State) (r : Clu) (g : RingSt → RingSt) : (s.modRing r g).clusters = s.clusters := rfl
@[simp] theorem State.modRing_time (s : State) (r : Clu) (g : RingSt → RingSt) : (s.modRing r g).time = s.time := rfl
@[simp] theorem State.modRing_pps (s : State) (r : Clu) (g : RingSt → RingSt) : (s.modRing r g).pps = s.pps := rfl
@[simp] theorem State.modRing_calib (s : State) (r : Clu) (g : RingSt → RingSt) : (s.modRing r g).calib = s.calib := rfl
@[simp] theorem State.modRing_pinActs (s : State) (r : Clu) (g : RingSt → RingSt) : (s.modRing r g).pinActs = s.pinActs := rfl
@[simp] theorem State.modRing_pinSets (s : State) (r : Clu) (g : RingSt → RingSt) : (s.modRing r g).pinSets = s.pinSets := rfl
@[simp] theorem State.modRing_eng (s : State) (r : Clu) (g : RingSt → RingSt) : (s.modRing r g).eng = s.eng := rfl
@[simp] theorem State.modRing_l2 (s : State) (r : Clu) (g : RingSt → RingSt) : (s.modRing r g).l2 = s.l2 := rfl
@[simp] theorem State.modRing_sd (s : State) (r : Clu) (g : RingSt → RingSt) : (s.modRing r g).sd = s.sd := rfl
@[simp] theorem State.modRing_husk (s : State) (r : Clu) (g : RingSt → RingSt) : (s.modRing r g).husk = s.husk := rfl
@[simp] theorem State.modRing_huskLast (s : State) (r : Clu) (g : RingSt → RingSt) : (s.modRing r g).huskLast = s.huskLast := rfl
@[simp] theorem State.modRing_hskInt (s : State) (r : Clu) (g : RingSt → RingSt) : (s.modRing r g).hskInt = s.hskInt := rfl
@[simp] theorem State.modRing_parcels (s : State) (r : Clu) (g : RingSt → RingSt) : (s.modRing r g).parcels = s.parcels := rfl
@[simp] theorem State.modRing_hgDue (s : State) (r : Clu) (g : RingSt → RingSt) : (s.modRing r g).hgDue = s.hgDue := rfl
@[simp] theorem State.modRing_trace (s : State) (r : Clu) (g : RingSt → RingSt) : (s.modRing r g).trace = s.trace := rfl
@[simp] theorem State.modRing_alive (s : State) (r : Clu) (g : RingSt → RingSt) : (s.modRing r g).alive = s.alive := rfl
@[simp] theorem State.modRing_capture (s : State) (r : Clu) (g : RingSt → RingSt) : (s.modRing r g).capture = s.capture := rfl
@[simp] theorem State.modRing_tester (s : State) (r : Clu) (g : RingSt → RingSt) : (s.modRing r g).tester = s.tester := rfl
@[simp] theorem State.modRing_twin (s : State) (r : Clu) (g : RingSt → RingSt) : (s.modRing r g).twin = s.twin := rfl
@[simp] theorem State.modRing_chans (s : State) (r : Clu) (g : RingSt → RingSt) : (s.modRing r g).chans = s.chans := rfl
@[simp] theorem State.modRing_accum (s : State) (r : Clu) (g : RingSt → RingSt) : (s.modRing r g).accum = s.accum := rfl
@[simp] theorem State.modRing_ptp (s : State) (r : Clu) (g : RingSt → RingSt) : (s.modRing r g).ptp = s.ptp := rfl
@[simp] theorem State.modRing_resetDue (s : State) (r : Clu) (g : RingSt → RingSt) : (s.modRing r g).resetDue = s.resetDue := rfl
@[simp] theorem State.modRing_dma (s : State) (r : Clu) (g : RingSt → RingSt) : (s.modRing r g).dma = s.dma := rfl
@[simp] theorem State.modRing_dmaPermit (s : State) (r : Clu) (g : RingSt → RingSt) : (s.modRing r g).dmaPermit = s.dmaPermit := rfl
@[simp] theorem State.modRing_dmaLast (s : State) (r : Clu) (g : RingSt → RingSt) : (s.modRing r g).dmaLast = s.dmaLast := rfl
@[simp] theorem State.modRing_cry (s : State) (r : Clu) (g : RingSt → RingSt) : (s.modRing r g).cry = s.cry := rfl
@[simp] theorem State.modRing_cryStop (s : State) (r : Clu) (g : RingSt → RingSt) : (s.modRing r g).cryStop = s.cryStop := rfl
@[simp] theorem State.modRing_bits (s : State) (r : Clu) (g : RingSt → RingSt) : (s.modRing r g).bits = s.bits := rfl
@[simp] theorem State.modRing_boot (s : State) (r : Clu) (g : RingSt → RingSt) : (s.modRing r g).boot = s.boot := rfl
@[simp] theorem State.modRing_power (s : State) (r : Clu) (g : RingSt → RingSt) : (s.modRing r g).power = s.power := rfl
@[simp] theorem State.modRing_tap (s : State) (r : Clu) (g : RingSt → RingSt) : (s.modRing r g).tap = s.tap := rfl
@[simp] theorem State.modRing_credits (s : State) (r : Clu) (g : RingSt → RingSt) : (s.modRing r g).credits = s.credits := rfl
@[simp] theorem State.modRing_mlQueue (s : State) (r : Clu) (g : RingSt → RingSt) : (s.modRing r g).mlQueue = s.mlQueue := rfl
@[simp] theorem State.modRing_bulk (s : State) (r : Clu) (g : RingSt → RingSt) : (s.modRing r g).bulk = s.bulk := rfl
@[simp] theorem State.modRing_slQueue (s : State) (r : Clu) (g : RingSt → RingSt) : (s.modRing r g).slQueue = s.slQueue := rfl
@[simp] theorem State.modRing_slCmds (s : State) (r : Clu) (g : RingSt → RingSt) : (s.modRing r g).slCmds = s.slCmds := rfl
@[simp] theorem State.modRing_permit (s : State) (r : Clu) (g : RingSt → RingSt) : (s.modRing r g).permit = s.permit := rfl
@[simp] theorem State.modRing_stopped (s : State) (r : Clu) (g : RingSt → RingSt) : (s.modRing r g).stopped = s.stopped := rfl
@[simp] theorem State.modRing_ans (s : State) (r : Clu) (g : RingSt → RingSt) : (s.modRing r g).ans = s.ans := rfl
@[simp] theorem State.modRing_free (s : State) (r : Clu) (g : RingSt → RingSt) : (s.modRing r g).free = s.free := rfl
@[simp] theorem State.modRing_out (s : State) (r : Clu) (g : RingSt → RingSt) : (s.modRing r g).out = s.out := rfl
@[simp] theorem State.modRing_pending (s : State) (r : Clu) (g : RingSt → RingSt) : (s.modRing r g).pending = s.pending := rfl

@[simp] theorem State.modChan_cells (s : State) (c : Fin 4) (g : ChanSt → ChanSt) : (s.modChan c g).cells = s.cells := rfl
@[simp] theorem State.modChan_mem (s : State) (c : Fin 4) (g : ChanSt → ChanSt) : (s.modChan c g).mem = s.mem := rfl
@[simp] theorem State.modChan_ecc (s : State) (c : Fin 4) (g : ChanSt → ChanSt) : (s.modChan c g).ecc = s.ecc := rfl
@[simp] theorem State.modChan_ports (s : State) (c : Fin 4) (g : ChanSt → ChanSt) : (s.modChan c g).ports = s.ports := rfl
@[simp] theorem State.modChan_clusters (s : State) (c : Fin 4) (g : ChanSt → ChanSt) : (s.modChan c g).clusters = s.clusters := rfl
@[simp] theorem State.modChan_time (s : State) (c : Fin 4) (g : ChanSt → ChanSt) : (s.modChan c g).time = s.time := rfl
@[simp] theorem State.modChan_pps (s : State) (c : Fin 4) (g : ChanSt → ChanSt) : (s.modChan c g).pps = s.pps := rfl
@[simp] theorem State.modChan_calib (s : State) (c : Fin 4) (g : ChanSt → ChanSt) : (s.modChan c g).calib = s.calib := rfl
@[simp] theorem State.modChan_pinActs (s : State) (c : Fin 4) (g : ChanSt → ChanSt) : (s.modChan c g).pinActs = s.pinActs := rfl
@[simp] theorem State.modChan_pinSets (s : State) (c : Fin 4) (g : ChanSt → ChanSt) : (s.modChan c g).pinSets = s.pinSets := rfl
@[simp] theorem State.modChan_eng (s : State) (c : Fin 4) (g : ChanSt → ChanSt) : (s.modChan c g).eng = s.eng := rfl
@[simp] theorem State.modChan_l2 (s : State) (c : Fin 4) (g : ChanSt → ChanSt) : (s.modChan c g).l2 = s.l2 := rfl
@[simp] theorem State.modChan_sd (s : State) (c : Fin 4) (g : ChanSt → ChanSt) : (s.modChan c g).sd = s.sd := rfl
@[simp] theorem State.modChan_husk (s : State) (c : Fin 4) (g : ChanSt → ChanSt) : (s.modChan c g).husk = s.husk := rfl
@[simp] theorem State.modChan_huskLast (s : State) (c : Fin 4) (g : ChanSt → ChanSt) : (s.modChan c g).huskLast = s.huskLast := rfl
@[simp] theorem State.modChan_hskInt (s : State) (c : Fin 4) (g : ChanSt → ChanSt) : (s.modChan c g).hskInt = s.hskInt := rfl
@[simp] theorem State.modChan_parcels (s : State) (c : Fin 4) (g : ChanSt → ChanSt) : (s.modChan c g).parcels = s.parcels := rfl
@[simp] theorem State.modChan_hgDue (s : State) (c : Fin 4) (g : ChanSt → ChanSt) : (s.modChan c g).hgDue = s.hgDue := rfl
@[simp] theorem State.modChan_trace (s : State) (c : Fin 4) (g : ChanSt → ChanSt) : (s.modChan c g).trace = s.trace := rfl
@[simp] theorem State.modChan_alive (s : State) (c : Fin 4) (g : ChanSt → ChanSt) : (s.modChan c g).alive = s.alive := rfl
@[simp] theorem State.modChan_capture (s : State) (c : Fin 4) (g : ChanSt → ChanSt) : (s.modChan c g).capture = s.capture := rfl
@[simp] theorem State.modChan_tester (s : State) (c : Fin 4) (g : ChanSt → ChanSt) : (s.modChan c g).tester = s.tester := rfl
@[simp] theorem State.modChan_rings (s : State) (c : Fin 4) (g : ChanSt → ChanSt) : (s.modChan c g).rings = s.rings := rfl
@[simp] theorem State.modChan_twin (s : State) (c : Fin 4) (g : ChanSt → ChanSt) : (s.modChan c g).twin = s.twin := rfl
@[simp] theorem State.modChan_accum (s : State) (c : Fin 4) (g : ChanSt → ChanSt) : (s.modChan c g).accum = s.accum := rfl
@[simp] theorem State.modChan_ptp (s : State) (c : Fin 4) (g : ChanSt → ChanSt) : (s.modChan c g).ptp = s.ptp := rfl
@[simp] theorem State.modChan_resetDue (s : State) (c : Fin 4) (g : ChanSt → ChanSt) : (s.modChan c g).resetDue = s.resetDue := rfl
@[simp] theorem State.modChan_dma (s : State) (c : Fin 4) (g : ChanSt → ChanSt) : (s.modChan c g).dma = s.dma := rfl
@[simp] theorem State.modChan_dmaPermit (s : State) (c : Fin 4) (g : ChanSt → ChanSt) : (s.modChan c g).dmaPermit = s.dmaPermit := rfl
@[simp] theorem State.modChan_dmaLast (s : State) (c : Fin 4) (g : ChanSt → ChanSt) : (s.modChan c g).dmaLast = s.dmaLast := rfl
@[simp] theorem State.modChan_cry (s : State) (c : Fin 4) (g : ChanSt → ChanSt) : (s.modChan c g).cry = s.cry := rfl
@[simp] theorem State.modChan_cryStop (s : State) (c : Fin 4) (g : ChanSt → ChanSt) : (s.modChan c g).cryStop = s.cryStop := rfl
@[simp] theorem State.modChan_bits (s : State) (c : Fin 4) (g : ChanSt → ChanSt) : (s.modChan c g).bits = s.bits := rfl
@[simp] theorem State.modChan_boot (s : State) (c : Fin 4) (g : ChanSt → ChanSt) : (s.modChan c g).boot = s.boot := rfl
@[simp] theorem State.modChan_power (s : State) (c : Fin 4) (g : ChanSt → ChanSt) : (s.modChan c g).power = s.power := rfl
@[simp] theorem State.modChan_tap (s : State) (c : Fin 4) (g : ChanSt → ChanSt) : (s.modChan c g).tap = s.tap := rfl
@[simp] theorem State.modChan_credits (s : State) (c : Fin 4) (g : ChanSt → ChanSt) : (s.modChan c g).credits = s.credits := rfl
@[simp] theorem State.modChan_mlQueue (s : State) (c : Fin 4) (g : ChanSt → ChanSt) : (s.modChan c g).mlQueue = s.mlQueue := rfl
@[simp] theorem State.modChan_bulk (s : State) (c : Fin 4) (g : ChanSt → ChanSt) : (s.modChan c g).bulk = s.bulk := rfl
@[simp] theorem State.modChan_slQueue (s : State) (c : Fin 4) (g : ChanSt → ChanSt) : (s.modChan c g).slQueue = s.slQueue := rfl
@[simp] theorem State.modChan_slCmds (s : State) (c : Fin 4) (g : ChanSt → ChanSt) : (s.modChan c g).slCmds = s.slCmds := rfl
@[simp] theorem State.modChan_permit (s : State) (c : Fin 4) (g : ChanSt → ChanSt) : (s.modChan c g).permit = s.permit := rfl
@[simp] theorem State.modChan_stopped (s : State) (c : Fin 4) (g : ChanSt → ChanSt) : (s.modChan c g).stopped = s.stopped := rfl
@[simp] theorem State.modChan_ans (s : State) (c : Fin 4) (g : ChanSt → ChanSt) : (s.modChan c g).ans = s.ans := rfl
@[simp] theorem State.modChan_free (s : State) (c : Fin 4) (g : ChanSt → ChanSt) : (s.modChan c g).free = s.free := rfl
@[simp] theorem State.modChan_out (s : State) (c : Fin 4) (g : ChanSt → ChanSt) : (s.modChan c g).out = s.out := rfl
@[simp] theorem State.modChan_pending (s : State) (c : Fin 4) (g : ChanSt → ChanSt) : (s.modChan c g).pending = s.pending := rfl

@[simp] theorem State.modPower_cells (s : State) (g : PowerSt → PowerSt) : (s.modPower g).cells = s.cells := rfl
@[simp] theorem State.modPower_mem (s : State) (g : PowerSt → PowerSt) : (s.modPower g).mem = s.mem := rfl
@[simp] theorem State.modPower_ecc (s : State) (g : PowerSt → PowerSt) : (s.modPower g).ecc = s.ecc := rfl
@[simp] theorem State.modPower_ports (s : State) (g : PowerSt → PowerSt) : (s.modPower g).ports = s.ports := rfl
@[simp] theorem State.modPower_clusters (s : State) (g : PowerSt → PowerSt) : (s.modPower g).clusters = s.clusters := rfl
@[simp] theorem State.modPower_time (s : State) (g : PowerSt → PowerSt) : (s.modPower g).time = s.time := rfl
@[simp] theorem State.modPower_pps (s : State) (g : PowerSt → PowerSt) : (s.modPower g).pps = s.pps := rfl
@[simp] theorem State.modPower_calib (s : State) (g : PowerSt → PowerSt) : (s.modPower g).calib = s.calib := rfl
@[simp] theorem State.modPower_pinActs (s : State) (g : PowerSt → PowerSt) : (s.modPower g).pinActs = s.pinActs := rfl
@[simp] theorem State.modPower_pinSets (s : State) (g : PowerSt → PowerSt) : (s.modPower g).pinSets = s.pinSets := rfl
@[simp] theorem State.modPower_eng (s : State) (g : PowerSt → PowerSt) : (s.modPower g).eng = s.eng := rfl
@[simp] theorem State.modPower_l2 (s : State) (g : PowerSt → PowerSt) : (s.modPower g).l2 = s.l2 := rfl
@[simp] theorem State.modPower_sd (s : State) (g : PowerSt → PowerSt) : (s.modPower g).sd = s.sd := rfl
@[simp] theorem State.modPower_husk (s : State) (g : PowerSt → PowerSt) : (s.modPower g).husk = s.husk := rfl
@[simp] theorem State.modPower_huskLast (s : State) (g : PowerSt → PowerSt) : (s.modPower g).huskLast = s.huskLast := rfl
@[simp] theorem State.modPower_hskInt (s : State) (g : PowerSt → PowerSt) : (s.modPower g).hskInt = s.hskInt := rfl
@[simp] theorem State.modPower_parcels (s : State) (g : PowerSt → PowerSt) : (s.modPower g).parcels = s.parcels := rfl
@[simp] theorem State.modPower_hgDue (s : State) (g : PowerSt → PowerSt) : (s.modPower g).hgDue = s.hgDue := rfl
@[simp] theorem State.modPower_trace (s : State) (g : PowerSt → PowerSt) : (s.modPower g).trace = s.trace := rfl
@[simp] theorem State.modPower_alive (s : State) (g : PowerSt → PowerSt) : (s.modPower g).alive = s.alive := rfl
@[simp] theorem State.modPower_capture (s : State) (g : PowerSt → PowerSt) : (s.modPower g).capture = s.capture := rfl
@[simp] theorem State.modPower_tester (s : State) (g : PowerSt → PowerSt) : (s.modPower g).tester = s.tester := rfl
@[simp] theorem State.modPower_rings (s : State) (g : PowerSt → PowerSt) : (s.modPower g).rings = s.rings := rfl
@[simp] theorem State.modPower_twin (s : State) (g : PowerSt → PowerSt) : (s.modPower g).twin = s.twin := rfl
@[simp] theorem State.modPower_chans (s : State) (g : PowerSt → PowerSt) : (s.modPower g).chans = s.chans := rfl
@[simp] theorem State.modPower_accum (s : State) (g : PowerSt → PowerSt) : (s.modPower g).accum = s.accum := rfl
@[simp] theorem State.modPower_ptp (s : State) (g : PowerSt → PowerSt) : (s.modPower g).ptp = s.ptp := rfl
@[simp] theorem State.modPower_resetDue (s : State) (g : PowerSt → PowerSt) : (s.modPower g).resetDue = s.resetDue := rfl
@[simp] theorem State.modPower_dma (s : State) (g : PowerSt → PowerSt) : (s.modPower g).dma = s.dma := rfl
@[simp] theorem State.modPower_dmaPermit (s : State) (g : PowerSt → PowerSt) : (s.modPower g).dmaPermit = s.dmaPermit := rfl
@[simp] theorem State.modPower_dmaLast (s : State) (g : PowerSt → PowerSt) : (s.modPower g).dmaLast = s.dmaLast := rfl
@[simp] theorem State.modPower_cry (s : State) (g : PowerSt → PowerSt) : (s.modPower g).cry = s.cry := rfl
@[simp] theorem State.modPower_cryStop (s : State) (g : PowerSt → PowerSt) : (s.modPower g).cryStop = s.cryStop := rfl
@[simp] theorem State.modPower_bits (s : State) (g : PowerSt → PowerSt) : (s.modPower g).bits = s.bits := rfl
@[simp] theorem State.modPower_boot (s : State) (g : PowerSt → PowerSt) : (s.modPower g).boot = s.boot := rfl
@[simp] theorem State.modPower_power (s : State) (g : PowerSt → PowerSt) : (s.modPower g).power = g s.power := rfl
@[simp] theorem State.modPower_tap (s : State) (g : PowerSt → PowerSt) : (s.modPower g).tap = s.tap := rfl
@[simp] theorem State.modPower_credits (s : State) (g : PowerSt → PowerSt) : (s.modPower g).credits = s.credits := rfl
@[simp] theorem State.modPower_mlQueue (s : State) (g : PowerSt → PowerSt) : (s.modPower g).mlQueue = s.mlQueue := rfl
@[simp] theorem State.modPower_bulk (s : State) (g : PowerSt → PowerSt) : (s.modPower g).bulk = s.bulk := rfl
@[simp] theorem State.modPower_slQueue (s : State) (g : PowerSt → PowerSt) : (s.modPower g).slQueue = s.slQueue := rfl
@[simp] theorem State.modPower_slCmds (s : State) (g : PowerSt → PowerSt) : (s.modPower g).slCmds = s.slCmds := rfl
@[simp] theorem State.modPower_permit (s : State) (g : PowerSt → PowerSt) : (s.modPower g).permit = s.permit := rfl
@[simp] theorem State.modPower_stopped (s : State) (g : PowerSt → PowerSt) : (s.modPower g).stopped = s.stopped := rfl
@[simp] theorem State.modPower_ans (s : State) (g : PowerSt → PowerSt) : (s.modPower g).ans = s.ans := rfl
@[simp] theorem State.modPower_free (s : State) (g : PowerSt → PowerSt) : (s.modPower g).free = s.free := rfl
@[simp] theorem State.modPower_out (s : State) (g : PowerSt → PowerSt) : (s.modPower g).out = s.out := rfl
@[simp] theorem State.modPower_pending (s : State) (g : PowerSt → PowerSt) : (s.modPower g).pending = s.pending := rfl

@[simp] theorem State.modLine_cells (s : State) (k : Line) (g : BitSt → BitSt) : (s.modLine k g).cells = s.cells := rfl
@[simp] theorem State.modLine_mem (s : State) (k : Line) (g : BitSt → BitSt) : (s.modLine k g).mem = s.mem := rfl
@[simp] theorem State.modLine_ecc (s : State) (k : Line) (g : BitSt → BitSt) : (s.modLine k g).ecc = s.ecc := rfl
@[simp] theorem State.modLine_ports (s : State) (k : Line) (g : BitSt → BitSt) : (s.modLine k g).ports = s.ports := rfl
@[simp] theorem State.modLine_clusters (s : State) (k : Line) (g : BitSt → BitSt) : (s.modLine k g).clusters = s.clusters := rfl
@[simp] theorem State.modLine_time (s : State) (k : Line) (g : BitSt → BitSt) : (s.modLine k g).time = s.time := rfl
@[simp] theorem State.modLine_pps (s : State) (k : Line) (g : BitSt → BitSt) : (s.modLine k g).pps = s.pps := rfl
@[simp] theorem State.modLine_calib (s : State) (k : Line) (g : BitSt → BitSt) : (s.modLine k g).calib = s.calib := rfl
@[simp] theorem State.modLine_pinActs (s : State) (k : Line) (g : BitSt → BitSt) : (s.modLine k g).pinActs = s.pinActs := rfl
@[simp] theorem State.modLine_pinSets (s : State) (k : Line) (g : BitSt → BitSt) : (s.modLine k g).pinSets = s.pinSets := rfl
@[simp] theorem State.modLine_eng (s : State) (k : Line) (g : BitSt → BitSt) : (s.modLine k g).eng = s.eng := rfl
@[simp] theorem State.modLine_l2 (s : State) (k : Line) (g : BitSt → BitSt) : (s.modLine k g).l2 = s.l2 := rfl
@[simp] theorem State.modLine_sd (s : State) (k : Line) (g : BitSt → BitSt) : (s.modLine k g).sd = s.sd := rfl
@[simp] theorem State.modLine_husk (s : State) (k : Line) (g : BitSt → BitSt) : (s.modLine k g).husk = s.husk := rfl
@[simp] theorem State.modLine_huskLast (s : State) (k : Line) (g : BitSt → BitSt) : (s.modLine k g).huskLast = s.huskLast := rfl
@[simp] theorem State.modLine_hskInt (s : State) (k : Line) (g : BitSt → BitSt) : (s.modLine k g).hskInt = s.hskInt := rfl
@[simp] theorem State.modLine_parcels (s : State) (k : Line) (g : BitSt → BitSt) : (s.modLine k g).parcels = s.parcels := rfl
@[simp] theorem State.modLine_hgDue (s : State) (k : Line) (g : BitSt → BitSt) : (s.modLine k g).hgDue = s.hgDue := rfl
@[simp] theorem State.modLine_trace (s : State) (k : Line) (g : BitSt → BitSt) : (s.modLine k g).trace = s.trace := rfl
@[simp] theorem State.modLine_alive (s : State) (k : Line) (g : BitSt → BitSt) : (s.modLine k g).alive = s.alive := rfl
@[simp] theorem State.modLine_capture (s : State) (k : Line) (g : BitSt → BitSt) : (s.modLine k g).capture = s.capture := rfl
@[simp] theorem State.modLine_tester (s : State) (k : Line) (g : BitSt → BitSt) : (s.modLine k g).tester = s.tester := rfl
@[simp] theorem State.modLine_rings (s : State) (k : Line) (g : BitSt → BitSt) : (s.modLine k g).rings = s.rings := rfl
@[simp] theorem State.modLine_twin (s : State) (k : Line) (g : BitSt → BitSt) : (s.modLine k g).twin = s.twin := rfl
@[simp] theorem State.modLine_chans (s : State) (k : Line) (g : BitSt → BitSt) : (s.modLine k g).chans = s.chans := rfl
@[simp] theorem State.modLine_accum (s : State) (k : Line) (g : BitSt → BitSt) : (s.modLine k g).accum = s.accum := rfl
@[simp] theorem State.modLine_ptp (s : State) (k : Line) (g : BitSt → BitSt) : (s.modLine k g).ptp = s.ptp := rfl
@[simp] theorem State.modLine_resetDue (s : State) (k : Line) (g : BitSt → BitSt) : (s.modLine k g).resetDue = s.resetDue := rfl
@[simp] theorem State.modLine_dma (s : State) (k : Line) (g : BitSt → BitSt) : (s.modLine k g).dma = s.dma := rfl
@[simp] theorem State.modLine_dmaPermit (s : State) (k : Line) (g : BitSt → BitSt) : (s.modLine k g).dmaPermit = s.dmaPermit := rfl
@[simp] theorem State.modLine_dmaLast (s : State) (k : Line) (g : BitSt → BitSt) : (s.modLine k g).dmaLast = s.dmaLast := rfl
@[simp] theorem State.modLine_cry (s : State) (k : Line) (g : BitSt → BitSt) : (s.modLine k g).cry = s.cry := rfl
@[simp] theorem State.modLine_cryStop (s : State) (k : Line) (g : BitSt → BitSt) : (s.modLine k g).cryStop = s.cryStop := rfl
@[simp] theorem State.modLine_boot (s : State) (k : Line) (g : BitSt → BitSt) : (s.modLine k g).boot = s.boot := rfl
@[simp] theorem State.modLine_power (s : State) (k : Line) (g : BitSt → BitSt) : (s.modLine k g).power = s.power := rfl
@[simp] theorem State.modLine_tap (s : State) (k : Line) (g : BitSt → BitSt) : (s.modLine k g).tap = s.tap := rfl
@[simp] theorem State.modLine_credits (s : State) (k : Line) (g : BitSt → BitSt) : (s.modLine k g).credits = s.credits := rfl
@[simp] theorem State.modLine_mlQueue (s : State) (k : Line) (g : BitSt → BitSt) : (s.modLine k g).mlQueue = s.mlQueue := rfl
@[simp] theorem State.modLine_bulk (s : State) (k : Line) (g : BitSt → BitSt) : (s.modLine k g).bulk = s.bulk := rfl
@[simp] theorem State.modLine_slQueue (s : State) (k : Line) (g : BitSt → BitSt) : (s.modLine k g).slQueue = s.slQueue := rfl
@[simp] theorem State.modLine_slCmds (s : State) (k : Line) (g : BitSt → BitSt) : (s.modLine k g).slCmds = s.slCmds := rfl
@[simp] theorem State.modLine_permit (s : State) (k : Line) (g : BitSt → BitSt) : (s.modLine k g).permit = s.permit := rfl
@[simp] theorem State.modLine_stopped (s : State) (k : Line) (g : BitSt → BitSt) : (s.modLine k g).stopped = s.stopped := rfl
@[simp] theorem State.modLine_ans (s : State) (k : Line) (g : BitSt → BitSt) : (s.modLine k g).ans = s.ans := rfl
@[simp] theorem State.modLine_free (s : State) (k : Line) (g : BitSt → BitSt) : (s.modLine k g).free = s.free := rfl
@[simp] theorem State.modLine_out (s : State) (k : Line) (g : BitSt → BitSt) : (s.modLine k g).out = s.out := rfl
@[simp] theorem State.modLine_pending (s : State) (k : Line) (g : BitSt → BitSt) : (s.modLine k g).pending = s.pending := rfl

@[simp] theorem State.modTester_cells (s : State) (g : TesterSt → TesterSt) : (s.modTester g).cells = s.cells := rfl
@[simp] theorem State.modTester_mem (s : State) (g : TesterSt → TesterSt) : (s.modTester g).mem = s.mem := rfl
@[simp] theorem State.modTester_ecc (s : State) (g : TesterSt → TesterSt) : (s.modTester g).ecc = s.ecc := rfl
@[simp] theorem State.modTester_ports (s : State) (g : TesterSt → TesterSt) : (s.modTester g).ports = s.ports := rfl
@[simp] theorem State.modTester_clusters (s : State) (g : TesterSt → TesterSt) : (s.modTester g).clusters = s.clusters := rfl
@[simp] theorem State.modTester_time (s : State) (g : TesterSt → TesterSt) : (s.modTester g).time = s.time := rfl
@[simp] theorem State.modTester_pps (s : State) (g : TesterSt → TesterSt) : (s.modTester g).pps = s.pps := rfl
@[simp] theorem State.modTester_calib (s : State) (g : TesterSt → TesterSt) : (s.modTester g).calib = s.calib := rfl
@[simp] theorem State.modTester_pinActs (s : State) (g : TesterSt → TesterSt) : (s.modTester g).pinActs = s.pinActs := rfl
@[simp] theorem State.modTester_pinSets (s : State) (g : TesterSt → TesterSt) : (s.modTester g).pinSets = s.pinSets := rfl
@[simp] theorem State.modTester_eng (s : State) (g : TesterSt → TesterSt) : (s.modTester g).eng = s.eng := rfl
@[simp] theorem State.modTester_l2 (s : State) (g : TesterSt → TesterSt) : (s.modTester g).l2 = s.l2 := rfl
@[simp] theorem State.modTester_sd (s : State) (g : TesterSt → TesterSt) : (s.modTester g).sd = s.sd := rfl
@[simp] theorem State.modTester_husk (s : State) (g : TesterSt → TesterSt) : (s.modTester g).husk = s.husk := rfl
@[simp] theorem State.modTester_huskLast (s : State) (g : TesterSt → TesterSt) : (s.modTester g).huskLast = s.huskLast := rfl
@[simp] theorem State.modTester_hskInt (s : State) (g : TesterSt → TesterSt) : (s.modTester g).hskInt = s.hskInt := rfl
@[simp] theorem State.modTester_parcels (s : State) (g : TesterSt → TesterSt) : (s.modTester g).parcels = s.parcels := rfl
@[simp] theorem State.modTester_hgDue (s : State) (g : TesterSt → TesterSt) : (s.modTester g).hgDue = s.hgDue := rfl
@[simp] theorem State.modTester_trace (s : State) (g : TesterSt → TesterSt) : (s.modTester g).trace = s.trace := rfl
@[simp] theorem State.modTester_alive (s : State) (g : TesterSt → TesterSt) : (s.modTester g).alive = s.alive := rfl
@[simp] theorem State.modTester_capture (s : State) (g : TesterSt → TesterSt) : (s.modTester g).capture = s.capture := rfl
@[simp] theorem State.modTester_tester (s : State) (g : TesterSt → TesterSt) : (s.modTester g).tester = g s.tester := rfl
@[simp] theorem State.modTester_rings (s : State) (g : TesterSt → TesterSt) : (s.modTester g).rings = s.rings := rfl
@[simp] theorem State.modTester_twin (s : State) (g : TesterSt → TesterSt) : (s.modTester g).twin = s.twin := rfl
@[simp] theorem State.modTester_chans (s : State) (g : TesterSt → TesterSt) : (s.modTester g).chans = s.chans := rfl
@[simp] theorem State.modTester_accum (s : State) (g : TesterSt → TesterSt) : (s.modTester g).accum = s.accum := rfl
@[simp] theorem State.modTester_ptp (s : State) (g : TesterSt → TesterSt) : (s.modTester g).ptp = s.ptp := rfl
@[simp] theorem State.modTester_resetDue (s : State) (g : TesterSt → TesterSt) : (s.modTester g).resetDue = s.resetDue := rfl
@[simp] theorem State.modTester_dma (s : State) (g : TesterSt → TesterSt) : (s.modTester g).dma = s.dma := rfl
@[simp] theorem State.modTester_dmaPermit (s : State) (g : TesterSt → TesterSt) : (s.modTester g).dmaPermit = s.dmaPermit := rfl
@[simp] theorem State.modTester_dmaLast (s : State) (g : TesterSt → TesterSt) : (s.modTester g).dmaLast = s.dmaLast := rfl
@[simp] theorem State.modTester_cry (s : State) (g : TesterSt → TesterSt) : (s.modTester g).cry = s.cry := rfl
@[simp] theorem State.modTester_cryStop (s : State) (g : TesterSt → TesterSt) : (s.modTester g).cryStop = s.cryStop := rfl
@[simp] theorem State.modTester_bits (s : State) (g : TesterSt → TesterSt) : (s.modTester g).bits = s.bits := rfl
@[simp] theorem State.modTester_boot (s : State) (g : TesterSt → TesterSt) : (s.modTester g).boot = s.boot := rfl
@[simp] theorem State.modTester_power (s : State) (g : TesterSt → TesterSt) : (s.modTester g).power = s.power := rfl
@[simp] theorem State.modTester_tap (s : State) (g : TesterSt → TesterSt) : (s.modTester g).tap = s.tap := rfl
@[simp] theorem State.modTester_credits (s : State) (g : TesterSt → TesterSt) : (s.modTester g).credits = s.credits := rfl
@[simp] theorem State.modTester_mlQueue (s : State) (g : TesterSt → TesterSt) : (s.modTester g).mlQueue = s.mlQueue := rfl
@[simp] theorem State.modTester_bulk (s : State) (g : TesterSt → TesterSt) : (s.modTester g).bulk = s.bulk := rfl
@[simp] theorem State.modTester_slQueue (s : State) (g : TesterSt → TesterSt) : (s.modTester g).slQueue = s.slQueue := rfl
@[simp] theorem State.modTester_slCmds (s : State) (g : TesterSt → TesterSt) : (s.modTester g).slCmds = s.slCmds := rfl
@[simp] theorem State.modTester_permit (s : State) (g : TesterSt → TesterSt) : (s.modTester g).permit = s.permit := rfl
@[simp] theorem State.modTester_stopped (s : State) (g : TesterSt → TesterSt) : (s.modTester g).stopped = s.stopped := rfl
@[simp] theorem State.modTester_ans (s : State) (g : TesterSt → TesterSt) : (s.modTester g).ans = s.ans := rfl
@[simp] theorem State.modTester_free (s : State) (g : TesterSt → TesterSt) : (s.modTester g).free = s.free := rfl
@[simp] theorem State.modTester_out (s : State) (g : TesterSt → TesterSt) : (s.modTester g).out = s.out := rfl
@[simp] theorem State.modTester_pending (s : State) (g : TesterSt → TesterSt) : (s.modTester g).pending = s.pending := rfl

@[simp] theorem State.engine_setEng (s : State) (e : Eng) (x : EngSt) : (s.setEng e x).engine e = x := by
  simp [State.engine, State.setEng]

theorem State.engine_setEng_ne (s : State) (e i : Eng) (x : EngSt) (h : i ≠ e) : (s.setEng e x).engine i = s.engine i := by
  have h' : (e : Nat) ≠ i := fun he => h (Fin.ext he.symm)
  simp [State.engine, State.setEng, Vector.getElem_set_ne, h']

@[simp] theorem State.clu_setClu (s : State) (n : Clu) (x : ClusterSt) : (s.setClu n x).clu n = x := by
  simp [State.clu, State.setClu]

end Sys2Proof.Machine
end

