-- ==== Sys2Proof/Laws/Invariants.lean ====
section
/-! SUPPORT. The operations that write the permit lists, the message queues, the FIFOs of the bit lines and of the trace unit, and what each
of them may do to the invariants of Safety. -/

namespace Sys2Proof.Machine

/-! ### Permits (R402-R404) -/

/-- The lists of the permit unit as one multiset of requesters. -/
theorem OneEach.of_perm {p q : PermitSt} (h : OneEach p)
    (e : (q.granted ++ q.queue ++ q.aside).Perm (p.granted ++ p.queue ++ p.aside)) : OneEach q :=
  (e.map (·.1)).nodup_iff.mpr h

theorem OneEach.of_sublist {p q : PermitSt} (h : OneEach p)
    (e : (q.granted ++ q.queue ++ q.aside).Sublist (p.granted ++ p.queue ++ p.aside)) : OneEach q :=
  h.sublist (e.map (·.1))

/-- A requester without a request stands in none of the lists. -/
theorem not_mem_of_hasRequest {s : State} {r : Nat} (h : s.hasRequest r = false) :
    r ∉ (s.permit.granted ++ s.permit.queue ++ s.permit.aside).map (·.1) := by
  intro hm
  obtain ⟨x, hx, rfl⟩ := List.mem_map.mp hm
  simp only [State.hasRequest, State.holds, Bool.or_eq_false_iff, List.any_eq_false, beq_iff_eq] at h
  simp only [List.append_assoc, List.mem_append] at hx
  rcases hx with hx | hx | hx
  · exact h.1.1 x hx rfl
  · exact h.1.2 x hx rfl
  · exact h.2 x hx rfl

theorem OneEach.askPermit {s : State} (r op : Nat) (h : OneEach s.permit) : OneEach (askPermit r op s).permit := by
  unfold Machine.askPermit
  by_cases hr : s.hasRequest r = true
  · simpa [hr] using h
  · have hn := not_mem_of_hasRequest (Bool.not_eq_true _ ▸ hr)
    have hc : OneEach ⟨s.permit.granted, s.permit.queue, s.permit.aside ++ [(r, permitCost r op)]⟩ := by
      unfold OneEach
      rw [← List.append_assoc, List.map_append]
      exact List.nodup_append.mpr ⟨h, by simp, by simpa using fun a ha hb => hn (by simpa [hb] using ha)⟩
    simp only [hr, if_neg, Bool.false_eq_true, not_false_eq_true]
    split
    · exact hc
    · refine hc.of_perm ?_
      simp only [List.append_assoc]
      exact List.Perm.append_left _ (List.Perm.append_left _ (List.perm_append_comm))

theorem OneEach.dropPermit {s : State} (r : Nat) (h : OneEach s.permit) : OneEach (dropPermit r s).permit :=
  h.of_sublist (((List.filter_sublist).append List.filter_sublist).append List.filter_sublist)

theorem beginPhase_permit (e : Nat × Nat) (s : State) : (beginPhase e s).permit = s.permit := by
  unfold beginPhase; split
  · split
    · rfl
    · split <;> rfl
  · rfl

theorem OneEach.grantHead {s : State} (h : OneEach s.permit) : OneEach (grantHead s).permit := by
  unfold Machine.grantHead
  split
  · exact h
  · rename_i e t ht
    split
    · rw [beginPhase_permit]
      refine h.of_perm ?_
      simp only [ht, List.append_assoc, List.cons_append, List.nil_append]
      exact List.Perm.refl _
    · exact h

theorem OneEach.recomputeBudget {s : State} (h : OneEach s.permit) : OneEach (recomputeBudget s).permit := by
  have key : ∀ b : Nat, OneEach ⟨s.permit.granted,
      s.permit.queue.filter (fun e => decide (e.2 ≤ b)) ++ s.permit.aside.filter (fun e => decide (e.2 ≤ b)),
      s.permit.aside.filter (fun e => decide (b < e.2)) ++ s.permit.queue.filter (fun e => decide (b < e.2))⟩ := by
    intro b
    have part (l : List (Nat × Nat)) : (l.filter (fun e => decide (e.2 ≤ b)) ++ l.filter (fun e => decide (b < e.2))).Perm l := by
      have := List.filter_append_perm (fun e : Nat × Nat => decide (e.2 ≤ b)) l
      simpa [← decide_not, Nat.not_le] using this
    refine h.of_perm ?_
    simp only [List.append_assoc]
    refine List.Perm.append_left _ ?_
    refine List.Perm.trans ?_ ((part s.permit.queue).append (part s.permit.aside))
    simp only [List.append_assoc]
    refine List.Perm.append_left _ ?_
    rw [← List.append_assoc]
    exact List.perm_append_comm
  unfold Machine.recomputeBudget
  dsimp only
  split <;> exact key _

/-! ### Queues (R32, R246, R425, R461) -/

/-- The invariant speaks of these four parts of State only. -/
theorem WithinDepth.of_eq {s t : State} (h : WithinDepth s) (hp : t.ports = s.ports) (he : t.eng = s.eng) (hb : t.bits = s.bits)
    (hf : t.trace.fifo = s.trace.fifo) : WithinDepth t := by
  obtain ⟨h1, h2, h3, h4⟩ := h
  refine ⟨fun p => ?_, fun e => ?_, fun k => ?_, ?_⟩
  · simpa [State.port, hp] using h1 p
  · simpa [State.engine, he] using h2 e
  · simpa [State.line, hb] using h3 k
  · rw [hf]; exact h4

/-- A packet that enters the FIFO fits. -/
theorem tracePacket_fifo (ws : List Word32) (s : State) (h : s.trace.fifo.length ≤ 1024) : (tracePacket ws s).trace.fifo.length ≤ 1024 := by
  unfold tracePacket traceDepth
  dsimp only
  split
  · rename_i hl; simpa using hl
  · exact h

theorem lineWrite_tx (k : Line) (v : Word32) (s : State) (h : ∀ j, (s.line j).tx.length ≤ 64) (j : Line) :
    ((lineWrite k v s).line j).tx.length ≤ 64 := by
  unfold lineWrite lineDepth
  split
  · exact h j
  · split
    · exact h j
    · rename_i hl
      by_cases hj : j = k
      · subst hj
        simp [State.line, State.modLine] at hl ⊢
        omega
      · have : k.val ≠ j.val := fun e => hj (Fin.ext e.symm)
        simpa [State.line, State.modLine, Vector.getElem_set, this] using h j

theorem lineReceive_rx (k : Line) (v : Nat) (s : State) (h : ∀ j, (s.line j).rx.length ≤ 64) (j : Line) :
    ((lineReceive k v s).line j).rx.length ≤ 64 := by
  unfold lineReceive lineDepth
  split
  · exact h j
  · rename_i hl
    by_cases hj : j = k
    · subst hj
      simp [State.line, State.modLine] at hl ⊢
      omega
    · have : k.val ≠ j.val := fun e => hj (Fin.ext e.symm)
      simpa [State.line, State.modLine, Vector.getElem_set, this] using h j

/-- A message that arrives leaves every inbound queue within its eight places. -/
theorem receive_queue (tgt : Eng) (v : Word) (s : State) (h : ∀ e, (s.engine e).msg.queue.length ≤ 8) (e : Eng) :
    ((receive tgt v s).engine e).msg.queue.length ≤ 8 := by
  by_cases he : e = tgt
  · subst he
    unfold receive
    dsimp only
    split
    · simpa [State.engine, State.setEng] using h e
    · split
      · exact h e
      · rename_i hl
        simp [State.engine, State.modMsg, State.modEng, State.setEng] at hl ⊢
        omega
  · have hv : tgt.val ≠ e.val := fun x => he (Fin.ext x.symm)
    unfold receive
    dsimp only
    split
    · simpa [State.engine, State.setEng, Vector.getElem_set, hv] using h e
    · split
      · exact h e
      · simpa [State.engine, State.modMsg, State.modEng, State.setEng, Vector.getElem_set, hv] using h e

end Sys2Proof.Machine
end

