-- ==== Sys2Proof/Tests/Slice0.lean ====
section
/-! SUPPORT. The model's own tests: ill-formed commands refused, and for every statement a state and operands that meet its
hypotheses. -/

namespace Sys2Proof.Tests

set_option Elab.async false

open Sys2Proof Sys2Proof.Machine

/-! ### States for the tests -/

/-- Register fields take values. -/
def puts (l : List (Fld × Nat)) (s : State) : State := l.foldl (fun t x => t.put x.1 x.2) s

/-- The block out of reset, its engines at work. -/
def live : State :=
  { State.reset with boot := { State.reset.boot with inReset := false }, eng := Vector.replicate 14 EngSt.reset,
                     credits := ⟨0, 0, 0, 0, 16, 16, 64, 16⟩ }

/-- A frame whose program runs: 64 bytes there, its end not yet, leaving on port 1. -/
def fr : Frame :=
  { fctr := 1, bytes := List.replicate 64 0, dep := [], eof := false, stamps := Vector.replicate 4 ⟨0, 0, 0⟩, thru := false,
    prog := .running, cur := 0, left := 0, egress := some 1, ques := [], dupKey := none,
    fate := ⟨none, false, false, false, false, false, false, false, false, false⟩, sent := false, swap := false, age := 0 }

/-- Port 0 enabled: a tun of 4 grains, process images of 64 bytes. -/
def sqCells : State :=
  puts [(Reg.PX.STAT.ENACT 0, 1), (Reg.LP.STAT.DEPTHACT 0, 4), (Reg.PI.INSIZE.SIZE 0, 64), (Reg.PI.OUTSIZE.SIZE 0, 64)] live

/-- The state a command answers; the reset state where it stops. -/
def after (r : Res) : State := match r with
  | .next t => t
  | _ => State.reset

/-- Port 0 with the frame, a microword at address 5, and the sequencer there. -/
def sq (f : Frame) (w : Word32) : State :=
  sqCells.setPort 0 { PortSt.reset with tun := [f], cs := [(5, w.toNat)], seq := { Seq.reset with upc := 5, fresh := true } }

/-- Port 0 with the frame, at the start of the routine of a wire op. -/
def wi (f : Frame) (opc : BitVec 8) (w : BitVec 24) : State :=
  sqCells.setPort 0 { PortSt.reset with tun := [f], seq := { Seq.reset with opc := opc, wop := w, upc := 5, fresh := true } }

theorem at_micro (f : Frame) (u : UOp) (hf : f.prog = .running) (h : decodeU (encodeU u) = .op u) :
    AtMicro (sq f (encodeU u)) 0 f u := by
  refine ⟨?_, ?_, rfl⟩
  · simp [State.running, sq, hf]
  · simpa [fetchU, csWord, sq, Seq.reset, lookup] using h

theorem at_wire (f : Frame) (opc : BitVec 8) (w : BitVec 24) (hf : f.prog = .running) : AtWire (wi f opc w) 0 f opc.toNat := by
  refine ⟨?_, rfl, ?_⟩ <;> simp [State.running, wi, hf]

/-- A configuration image (R371, R372): the record START of ME0 at 0x1234, signed with a key of the tests outside Lean. -/
def image : List Byte := bytesBE 176
  0x4749524b010000000300000000000000b00000000000000000000000000000008e533b6fa0bf7b4625bb30667c01fb607ef9f8b8a80fef5b300628703187b2a373eb1dbde03318366d069f83a6f5900053c73633cb041b21c55e1a86c1f400b40400000008000000000034120000000051590b7a515140d2d784c85608668fdfef8c82fd1f5be52421554a0dc3d033edb3fccd728d2136cfb5d767d5b7c9fea615f5fbfe0bfa2f4ddb154da1c1763e32
/-- KEY_HASH of the test key: the SHA-256 of its 64 bytes. -/
def keyHash : BitVec 256 := 0x90d419e0703142c79ffc0ba1c01843b35d76fe8b24fdaf605a44c048e3f03822

theorem ok_of_toOption {α : Type} {x : Except Nat α} {a : α} (h : x.toOption = some a) : x = .ok a := by
  cases x with
  | error e => simp [Except.toOption] at h
  | ok b => simp [Except.toOption] at h; rw [h]

/-- The image passes every check of R377. -/
theorem image_accepted : checkImage image keyHash 0 = .ok [.start [(0, 0x1234)]] := ok_of_toOption (by decide +kernel)

/-! ### Ill-formed commands are refused -/

theorem ill_grain : (Instr.grainAvailable 0 (List.replicate 15 0) false false ⟨false, false⟩ 0 0).wf = false := by decide
theorem ill_grain_last : (Instr.grainAvailable 0 [] true false ⟨false, false⟩ 0 0).wf = false := by decide
theorem ill_grain_tap : (Instr.grainAvailable 0 [1] true false ⟨false, false⟩ 0 16).wf = false := by decide
theorem ill_txDescriptorStart : (Instr.txDescriptorStart 0 16).wf = false := by decide
theorem ill_txLaunch : (Instr.txLaunch 0 16).wf = false := by decide
theorem ill_permitRequest : (Instr.permitRequest 19 3).wf = false := by decide
theorem ill_thruLaunch : (Instr.thruLaunch ⟨0, 16⟩).wf = false := by decide
theorem ill_startUp : (Instr.startUp ⟨true, 0⟩ true ⟨[], []⟩ [] 0).wf = false := by decide
theorem ill_icacheFill : (Instr.icacheFill 0 0 (List.replicate 65 0) false 0).wf = false := by decide
theorem ill_setAliasWrite : (Instr.setAliasWrite 14 0x2400008 (List.replicate 9 0)).wf = false := by decide
theorem ill_clearAliasWrite : (Instr.clearAliasWrite 14 0x4400008 []).wf = false := by decide
theorem ill_slaveAccess : (Instr.slaveAccess true 1 4 false 0 true 0 [] true).wf = false := by decide
theorem ill_masterResponse : (Instr.masterResponse 0 true [1] false false).wf = false := by decide

/-! ### Resets and start-up -/

theorem wit_resetCommands : let s := live
    s.on Reg.DBG.LOCK.ERASING = false ∧ (s.put Reg.DBG.LOCK.ERASING 1).on Reg.DBG.LOCK.ERASING = true ∧
    (let t := s.put Reg.GLB.WDOG.PER.MS 1
     t.get Reg.GLB.WDOG.PER.MS ≠ 0 ∧ t.on Reg.DBG.WDHOLD.HOLD = false ∧ t.boot.inReset = false ∧ t.on Reg.DBG.LOCK.ERASING = false ∧
     hasPartner t = false) ∧
    (let t := puts [(Reg.GLB.WDOG.PER.MS, 1), (Reg.TWN.CTRL.LEVEL, 3), (Reg.TWN.STAT.STATE, 4), (Reg.GLB.MI.LINK.LINK, 256)] s
     hasPartner t = true ∧ t.bit Reg.GLB.MI.LINK.LINK 8 = true) := by decide +kernel

theorem run_reset_short : exec (.rstNAssert 19) live = .fault .resetPulseTooShort := rfl
/-- A block reset by pin sets the reset cause POR or PIN at the release; the boot PREF survives (R391). -/
theorem run_reset_aon : let s := puts [(Reg.GLB.BOOT.CTRL.PREF, 1), (Reg.PX.CTRL.EN 0, 1)] live
    let t := after (exec (.rstNAssert 20) s)
    t.get Reg.GLB.BOOT.CTRL.PREF = 1 ∧ t.get (Reg.PX.CTRL.EN 0) = 0 := by decide +kernel

/-- A start-up: the release with a good and with a bad repair record, and the four outcomes of the choice of a slot. -/
theorem wit_repairGood (l : List Bool) (h : l.length = 2048) : ∃ r : List Bool, r.length = 2064 ∧ repairGood r = true := by
  refine ⟨l ++ (List.range 16).map (fun i => (l.foldl crc16Step 0xFFFF#16).getLsbD (15 - i)), by simp [h], ?_⟩
  have e : 2048 = l.length := h.symm
  unfold repairGood
  rw [e, List.take_left, List.drop_left, List.take_of_length_le (by simp)]
  simp
theorem wit_startUp_release : State.reset.boot.inReset = true ∧ State.reset.get Reg.GLB.BOOT.CTRL.PREF < 2 ∧
    live.boot.inReset = false ∧ (∃ r : List Bool, r.length = 2064 ∧ repairGood r = true) ∧ repairGood [] = false :=
  ⟨rfl, by decide +kernel, rfl, wit_repairGood (List.replicate 2048 false) List.length_replicate, by decide +kernel⟩
theorem wit_startUp_image : let s := live.put Reg.GLB.BOOT.STAT.STAGE 2
    s.boot.inReset = false ∧ s.get Reg.GLB.BOOT.STAT.STAGE = 2 ∧ s.on Reg.GLB.BOOT.STAT.SRC = false ∧
    (s.put Reg.GLB.BOOT.STAT.SRC 1).on Reg.GLB.BOOT.STAT.SRC = true ∧ stagingMapped s (stagedLength image) = true ∧
    stagedLength image = image.length ∧ checkImage image keyHash 0 = .ok [.start [(0, 0x1234)]] ∧
    checkImage [] keyHash 0 = .error 2 ∧ s.boot.tries = [] ∧
    ({ s with boot := { s.boot with tries := [1] } } : State).boot.tries = [1] := by
  refine ⟨rfl, by decide +kernel, by decide +kernel, by decide +kernel, by decide +kernel, by decide +kernel, image_accepted, rfl, rfl, rfl⟩
theorem wit_startUp_start : let s := (live.put Reg.GLB.BOOT.STAT.STAGE 5)
    let t : State := { s with boot := { s.boot with accepted := true } }
    s.boot.accepted = false ∧ t.boot.accepted = true ∧ t.get Reg.GLB.BOOT.STAT.STAGE = 5 ∧ t.boot.inReset = false := by decide +kernel
theorem wit_startUp_cluster : let s := live.put (Reg.PX.STAT.ENACT 2) 1
    s.cluUp 1 = true ∧ (domPorts 2).any (fun p => s.on (Reg.PX.STAT.ENACT p)) = true ∧
    (domPorts 1).any (fun p => s.on (Reg.PX.STAT.ENACT p)) = false ∧ (live.put (Reg.PWR.STAT.CL0) 2).cluUp 0 = false := by decide +kernel
/-- The check waits for its permit and has it; the loads go on, and one has failed. -/
theorem wit_startUp_job : let s := live.put Reg.GLB.BOOT.STAT.STAGE 2
    let job (a k : Bool) (f : List Nat) : State := { s with boot := { s.boot with job := some ⟨a, k, false, [], [], f⟩ } }
    s.bootRuns = true ∧ State.reset.bootRuns = false ∧ s.boot.job = none ∧ (job true false []).holds cryPermitReq = false ∧
    (askPermit cryPermitReq 0 (job true false [])).hasRequest cryPermitReq = true ∧
    ({ job true false [] with permit := ⟨[(cryPermitReq, 24)], [], []⟩ } : State).holds cryPermitReq = true ∧
    loadsFailed (job false true []) ⟨false, true, false, [], [], []⟩ = false ∧
    loadsFailed ((job false true [0]).put (Reg.WSQ.CSLD.STAT.RESULT 0) 5) ⟨false, true, false, [], [], [0]⟩ = true ∧
    (loadsGoOn ⟨false, true, false, [], [], []⟩ (job false true [])).1.flight = [] ∧
    (loadsGoOn ⟨false, true, false, [], [(0, 0x60)], []⟩ (job false true [])).1.flight = [0] := by decide +kernel

/-- A host image of which external memory gives an error, or bytes; its reads wait for credits, or leave. -/
theorem wit_startUp_host : let s := live.put Reg.GLB.BOOT.STAT.SRC 1
    let b := hostBytes s (hostImage s) image false
    let fed : State := { s with credits := { s.credits with cmd := 64, wd := 64 } }
    (sourceRead 11 loaderReq (hostImage s) (max 0x60 b.1.length) b s).1 = false ∧
    (sourceRead 11 loaderReq (hostImage s) (max 0x60 b.1.length) b fed).1 = true ∧ b.2 = false ∧
    (hostBytes s (hostImage s) [] true).2 = true ∧
    (live.modClu 0 (fun c => { c with restore := some ⟨true, false, false, [], [], []⟩ }) |>.clu 0).restore.isSome = true ∧
    (live.clu 0).restore = none := by decide +kernel

/-! ### Accesses from outside -/

theorem wit_registerRows : let s := live
    s.boot.inReset = false ∧ s.up 0 = true ∧ regUp s 0x30000 = true ∧
    regStatus s 14 true true (Reg.GLB.BOOT.CTRL.PREF).addr = stOkay ∧
    regStatus State.reset 14 true true (Reg.GLB.BOOT.CTRL.PREF).addr = stPower ∧
    secureOnly (Reg.GLB.BOOT.CTRL.PREF).addr true = true ∧
    (∃ a, regUp s a = true ∧ lockedAway s a = false ∧ Reg.fieldsAt a = []) ∧
    (let a := (Reg.GLB.BOOT.STAT.STAGE).addr
     lockedAway s a = false ∧ Reg.fieldsAt a ≠ [] ∧ (Reg.fieldsAt a).any Fld.writable = false) ∧
    s.bit (Reg.DB.BB.BITS 0) 0 = false ∧ (s.put (Reg.DB.BB.BITS 0) 1).bit (Reg.DB.BB.BITS 0) 0 = true ∧
    s.get Reg.GLB.BOOT.CTRL.PREF < 2 ∧ s.slCmds = [] ∧ s.mlQueue = [] ∧ s.slQueue = [] ∧ s.on Reg.DBG.LOCK.OPEN = false ∧
    (s.put Reg.DBG.LOCK.OPEN 1).on Reg.DBG.LOCK.OPEN = true := by
  refine ⟨rfl, by decide +kernel, by decide +kernel, by decide +kernel, by decide +kernel, by decide +kernel, ⟨0x3FFFC, by decide +kernel⟩,
    by decide +kernel, by decide +kernel, by decide +kernel, by decide +kernel, rfl, rfl, rfl, by decide +kernel, by decide +kernel⟩

theorem wit_slaveCredits : let s := live
    s.credits.slCmd = 16 ∧ 16 ≤ s.credits.slWd ∧ unanswered s true < 16 ∧ State.reset.credits.slCmd = 0 ∧ s.tap.busy = none ∧ s.bootRuns = true ∧
    16 ≤ unanswered { s with slQueue := List.replicate 16 (.slWrite 0 0) } true := by decide +kernel
theorem wit_tapBusy : ({ live with tap := { live.tap with busy := some ⟨0, false, false, 0⟩ } } : State).tap.busy.isSome = true ∧
    ({ live with slCmds := [⟨false, 0, 2, false, 0, true, 0, []⟩] } : State).slCmds ≠ [] := by decide +kernel

/-! ### Ports and frames -/

theorem wit_portCommands : let s := sqCells
    s.on (Reg.PI.INROLE.NEW 0) = false ∧ (s.put (Reg.PI.INROLE.NEW 0) 1).on (Reg.PI.INROLE.NEW 0) = true ∧
    twinned s 0 = false ∧
    (let t := puts [(Reg.TWN.CTRL.LEVEL, 2), (Reg.TWN.CTRL.RINGS, 1), (Reg.TWN.STAT.STATE, 6)] s
     twinned t 0 = true ∧ twinState t = 6) ∧
    s.get (Reg.WSQ.WPM.IDX.BANK 0) = s.get (Reg.WSQ.STAT.WPBANKACT 0) ∧
    (s.put (Reg.WSQ.WPM.IDX.BANK 0) 1).get (Reg.WSQ.WPM.IDX.BANK 0) ≠ (s.put (Reg.WSQ.WPM.IDX.BANK 0) 1).get (Reg.WSQ.STAT.WPBANKACT 0) ∧
    s.on (Reg.PX.STAT.ENACT 0) = true ∧ s.on (Reg.PX.STAT.ENACT 1) = false ∧
    (s.put (Reg.PX.STAT.DRAIN 0) 1).on (Reg.PX.STAT.DRAIN 0) = true ∧ portIdle s 0 = true ∧ s.arriving 0 = none ∧
    ((s.modPort 0 (fun x => { x with csEcc := [(7, false)], csFixed := [7] })).port 0).csFixed = 7 :: [] ∧
    csSoft (s.modPort 0 (fun x => { x with csEcc := [(7, false)], csFixed := [7] })) 0 7 = true ∧
    s.answers (outBuf s 0 (s.get (Reg.PI.OUTROLE.FILL 0))) = true := by
  decide +kernel

/-- One descriptor waits in the queue of class 3 while the port drains, and none elsewhere. -/
def draining : State :=
  puts [(Reg.PX.STAT.DRAIN 0, 1), (Reg.PQ.TX.CFG.COUNT 0 3, 4), (Reg.PQ.TX.HEAD.HEAD 0 3, 3), (Reg.PQ.TX.TAIL.TAIL 0 3, 0)]
    (sqCells.store 0x400036 [0x80])

theorem wit_drain : let s := draining
    s.on (Reg.PX.STAT.DRAIN 0) = true ∧ portIdle s 0 = true ∧ hwLoad s (descAddr s 0 3 3 + 6) 1 = some 0x80 ∧
    s.get (Reg.PQ.TX.TAIL.TAIL 0 3) = (s.get (Reg.PQ.TX.HEAD.HEAD 0 3) + 1) % 4 ∧
    (∀ d : Fin 8, d ≠ 3 → s.get (Reg.PQ.TX.CFG.COUNT 0 d) = 0) := by decide +kernel
/-- The descriptor returns with STATUS 0x01 and OWN clear, and HEAD reaches TAIL (R86). -/
theorem run_drain : let t := after (exec (.portDrainDone 0) draining)
    t.byte 0x400037 = 1 ∧ t.byte 0x400036 = 0 ∧ t.get (Reg.PQ.TX.HEAD.HEAD 0 3) = 0 ∧ t.get (Reg.PX.STAT.ENACT 0) = 0 := by decide +kernel

/-- A forwarded frame on its way out on port 1, with a grain left to go. -/
def leavingOn1 : State := sqCells.modPort 0 (fun x => { x with tun := [{ fr with left := 1 }] })
/-- A queued frame that a fragment boundary has interrupted. -/
def heldTx : TxFrame := { cls := 3, idx := 0, addr := 0x400100, len := 60, ctrl := 0x80, stamp := 0, ended := none, sent := 0, behind := 0 }
theorem wit_slip : (forwardedOn leavingOn1 1 0).isSome = true ∧ partner 1 = 0 ∧ forwardedOn sqCells 1 1 = none ∧
    forwardedOn sqCells 1 0 = none ∧
    (let s := sqCells.modPort 0 (fun x => { x with txHeld := some heldTx })
     s.arriving 0 = none ∧ heldTx.irq = false ∧ s.answers (descAddr s 0 heldTx.cls heldTx.idx + 7) = true) := by decide +kernel
theorem run_slip : let t := after (exec (.transmitSlip 1) leavingOn1)
    t.get Reg.GLB.MI.SLIPPORT.PORT = 2 ∧ t.get Reg.GLB.MI.SLIP.CNT = 1 ∧ ((t.port 0).tun.map (fun g => g.fate.stomp)) = [true] := by
  decide +kernel

/-- TAKE exchanges READY and HELD (R73). -/
theorem run_take : let s := puts [(Reg.PI.INROLE.NEW 0, 1), (Reg.PI.INROLE.READY 0, 1), (Reg.PI.INROLE.HELD 0, 2)] sqCells
    (after (exec (.take 0) s)).get (Reg.PI.INROLE.HELD 0) = 1 ∧ (after (exec (.take 0) s)).get (Reg.PI.INROLE.READY 0) = 2 := by
  decide +kernel

theorem wit_linkUp : let s := live.raiseBit Reg.GLB.MI.LINK.LINK 3
    s.bit Reg.GLB.MI.LINK.LINK 3 = true ∧ s.bit Reg.GLB.MI.LINK.LINK 8 = false ∧ live.bit Reg.GLB.MI.LINK.LINK 3 = false := by decide +kernel

theorem wit_frameCommands : let s := sq fr 0
    s.arriving 0 = some fr ∧ fr.thru = false ∧ sqCells.arriving 0 = none ∧ (sqCells.port 0).ignore = false ∧
    (sqCells.port 0).thru = none ∧ sqCells.on (Reg.PX.STAT.ENACT 0) = true ∧ sqCells.on (Reg.PX.STAT.DRAIN 0) = false ∧
    live.on (Reg.PX.STAT.ENACT 0) = false ∧ (sqCells.raiseBit Reg.GLB.MI.LINK.LINK 0).bit Reg.GLB.MI.LINK.LINK 0 = true ∧ (sqCells.raiseBit Reg.GLB.MI.LINK.LINK 0).on (Reg.PX.STAT.ENACT 0) = true ∧
    State.reset.bit Reg.GLB.MI.LINK.LINK 0 = false ∧ csBad s 0 16384 = false ∧
    s.answers (inBuf s 0 (s.get (Reg.PI.INROLE.FILL 0))) = true ∧
    (let f := { fr with prog := .waiting }
     (sq f 0).running 0 = none ∧ ((sq f 0).port 0).tun.find? (fun f => f.prog == .waiting) = some f ∧ f.left = 0) ∧
    (let f := { fr with left := 1 }
     (sq f 0).leaving 0 = some f ∧ 16 * f.left < f.bytes.length ∧ f.left ≠ 0 ∧ f.cur ≠ f.left) ∧
    (let f := { fr with left := 1, cur := 1 }
     (sq f 0).leaving 0 = some f ∧ f.cur = f.left ∧ f.prog = .running) ∧
    (let f := { fr with eof := true }
     ((sq f 0).port 0).tun.find? (fun f => f.eof && f.fate.verdict.isNone) = some f) ∧
    (let f := { fr with eof := true, fate := { fr.fate with cmt := true, verdict := some true } }
     ((sq f 0).port 0).tun.find? (fun f => f.fate.cmt && f.fate.verdict == some true) = some f ∧
     (sq f 0).on (Reg.PI.INROLE.POISON 0) = false) ∧
    (let f := { fr with eof := true, prog := .done, ques := [⟨0, false, false⟩], fate := { fr.fate with verdict := some true } }
     ((sq f 0).port 0).tun.find? (fun f => f.eof && f.fate.verdict.isSome && f.prog == .done && !f.ques.isEmpty) = some f) := by
  decide +kernel

/-- The FCS of IEEE 802.3 over a frame of zeros, computed outside Lean: the verdict is good, and bad with one bit changed (R22). -/
theorem run_fcs : let good := { fr with eof := true, bytes := List.replicate 60 0 ++ [0x08, 0x89, 0x12, 0x04] }
    let bad := { fr with eof := true, bytes := 1 :: List.replicate 59 0 ++ [0x08, 0x89, 0x12, 0x04] }
    ((after (exec (.fcsVerdict 0) (sq good 0))).port 0).tun.map (fun f => f.fate.verdict) = [some true] ∧
    ((after (exec (.fcsVerdict 0) (sq bad 0))).port 0).tun.map (fun f => f.fate.verdict) = [some false] := by decide +kernel

/-- RUN and WPBANK are sampled and wire op 0 is dispatched (R39); an unreadable dispatch entry clears RUN (R49). -/
theorem run_frameStart : let f := { fr with prog := .waiting }
    let s := ((sq f 0).put (Reg.WSQ.CTRL.RUN 0) 1).modPort 0 (fun x => { x with wpm := [(0, 0x05000123)] })
    let t := startFrame s 0 f
    t.get (Reg.WSQ.STAT.RUNACT 0) = 1 ∧ (t.port 0).seq.wpc = 1 ∧ (t.port 0).seq.opc = 5 ∧ (t.port 0).seq.wop = 0x123 ∧
    (t.port 0).tun.map (·.prog) = [.running] ∧
    (let u := startFrame (s.modPort 0 (fun x => { x with csEcc := [(16384 + 5, true)] })) 0 f
     u.get (Reg.WSQ.CTRL.RUN 0) = 0 ∧ u.get (Reg.WSQ.ERR.CSUE 0) = 1) := by decide +kernel

/-! ### Wire sequencers -/

/-- Words written out from the formats F1 to F9 (R36, R37). -/
theorem word_alu : decodeU 0x0A700000 = .op (.alu 2 1 3 0) := by decide
theorem word_alui : decodeU 0x0D040007 = .op (.alui 1 0 1 7) := by decide
theorem word_ldi : decodeU 0x11000005 = .op (.ldi 1 5) := by decide
theorem word_movs : decodeU 0x1A000003 = .op (.movs 2 3) := by decide
theorem word_ext : decodeU 0x23380300 = .op (.ext 3 0 true 6 12) := by decide
theorem word_cpy : decodeU 0x3523C038 = .op (.cpy 1 0 2 15 14) := by decide
theorem word_ldm : decodeU 0x3D980020 = .op (.ldm 1 2 1 4 8) := by decide
theorem word_cmpr : decodeU 0x4A4C0000 = .op (.cmpr 2 1 0 3) := by decide
theorem word_br : decodeU 0x60500123 = .op (.br 2 true 0x123) := by decide
theorem word_tsi : decodeU 0x992800C0 = .op (.tsi 1 0 true 1 3) := by decide
theorem word_len7 : decodeU 0x201C0000 = .illegal := by decide
theorem word_reserved : decodeU 0xA8000000 = .illegal := by decide
theorem word_udf : decodeU 0x00FFFFFF = .udf := by decide

/-- Witnesses for the two directions of MicrowordRoundTrip. -/
theorem wit_microwordRoundTrip : (UOp.fil 3 2 3 63 4095).wf = true ∧ decodeU 0xA400005A = .op (.sig 0x5A) ∧
    ufield 0xA400005A 26 6 ≠ 0x1D := by decide

/-! ### Engines -/

/-- The five encodings that R207 works out. -/
theorem bundle_dual : decodeBundle 0x00E02B027FD0 = .dual ⟨7, 5, 6⟩ ⟨9, 0x3FD, 0⟩ := by decide
theorem bundle_long : decodeBundle 0x418012345678 = .long 12 0x12345678 := by decide
theorem bundle_branch : decodeBundle 0x8403803FFFFC = .branch 1 3 0x200 (-4) := by decide
theorem bundle_repeat : decodeBundle 0xC00000000064 = .repeat false false 100 := by decide
theorem bundle_trap : decodeBundle 0xE00000000005 = .trap 5 := by decide
theorem bundle_reserved : (decodeBundle 0xC00000010000).isExtended = true ∧ decodeBundle 0xC00000010000 = .bad 0x10000 := by decide

theorem wit_bundleRoundTrip : (Bundle.trap 31).wf = true ∧ (Bundle.bad 0x10000).wf = true := by decide

theorem wit_microAluOps : AtMicro (sq fr (encodeU (.alu 2 1 3 10))) 0 fr (.alu 2 1 3 10) ∧
    AtMicro (sq fr (encodeU (.alui 1 0 11 0x3FFFF))) 0 fr (.alui 1 0 11 0x3FFFF) :=
  ⟨at_micro _ _ rfl (by decide), at_micro _ _ rfl (by decide)⟩

/-- ALUI SQ1 = SQ0 - 7 on 0 wraps and borrows (R36). -/
theorem run_alui_borrow : let q := ((after (exec (.uAlui 0) (sq fr 0x0D040007))).port 0).seq
    q.reg 1 = 0xFFFFFFFFFFF9 ∧ q.carry = true := by decide +kernel

/-- Frame fields at the three outcomes of the window rule: there, not yet there, below and beyond the window. -/
theorem wit_microWindowRule :
    (let s := sq { fr with bytes := [] } (encodeU (.ext 0 0 false 6 58))
     AtMicro s 0 { fr with bytes := [] } (.ext 0 0 false 6 58) ∧
     frameField s 0 (.ext 0 0 false 6 58) = some (.uExt 0, 58, 6) ∧ 58 + 6 ≤ s.tunDepth 0) ∧
    (let s := sq fr (encodeU (.ext 0 0 false 6 59))
     AtMicro s 0 fr (.ext 0 0 false 6 59) ∧ frameField s 0 (.ext 0 0 false 6 59) = some (.uExt 0, 59, 6) ∧
     16 * fr.cur + s.tunDepth 0 < 59 + 6) ∧
    (let s := sq { fr with cur := 1 } (encodeU (.ext 0 0 false 1 15))
     AtMicro s 0 { fr with cur := 1 } (.ext 0 0 false 1 15) ∧
     frameField s 0 (.ext 0 0 false 1 15) = some (.uExt 0, 15, 1) ∧ 15 < 16 * 1) :=
  ⟨⟨at_micro _ _ rfl (by decide), by decide +kernel, by decide +kernel⟩,
   ⟨at_micro _ _ rfl (by decide), by decide +kernel, by decide +kernel⟩,
   ⟨at_micro _ _ rfl (by decide), by decide +kernel, by decide⟩⟩

/-- An access below the current grain is a window violation and ends the program (R33). -/
theorem run_window_violation : (after (exec (.uExt 0) (sq { fr with cur := 1 } (encodeU (.ext 0 0 false 1 15))))).get
    (Reg.WSQ.ERR.WIN 0) = 1 := by decide +kernel

/-- A frame of 64 bytes whose end is known: a field that reaches past it and beyond the window, and one in violation (R33). -/
theorem wit_window_end : let f := { fr with eof := true, bytes := List.replicate 70 0 }
    fr.touch 64 60 8 = .violation ∧ { fr with eof := true }.touch 64 60 8 = .ok ∧ 16 * fr.cur ≤ 60 ∧
    min (60 + 8) 64 ≤ 16 * fr.cur + 64 ∧ f.touch 64 60 8 = .violation ∧ 60 < f.bytes.length ∧
    16 * f.cur + 64 < min (60 + 8) f.bytes.length := by decide

/-- Every frame-field micro-op at a field whose bytes are there, the last at the end of the window. -/
theorem wit_microFrameOps :
    (∀ u ∈ [UOp.ext 1 0 true 6 58, .cmpf 0 0 false 1 0, .dep 2 0 false 4 12, .incf 0 true 2 14 63, .fadd 1 0 56,
      .tsi 3 0 true 0 54, .tsi 0 0 false 2 0], ∃ i o n, frameField (sq fr (encodeU u)) 0 u = some (i, o, n) ∧
        fr.touch ((sq fr (encodeU u)).tunDepth 0) o n = .ok ∧ decodeU (encodeU u) = .op u) := by
  intro u hu
  simp only [List.mem_cons, List.not_mem_nil, or_false] at hu
  rcases hu with rfl | rfl | rfl | rfl | rfl | rfl | rfl <;> exact ⟨_, _, _, rfl, by decide +kernel, by decide⟩

/-- EXT reads frame order without e and the other order with it (R36). -/
theorem run_ext_orders : let f := { fr with bytes := [0x12, 0x34, 0x56, 0x78] ++ List.replicate 60 0 }
    ((after (exec (.uExt 0) (sq f (encodeU (.ext 1 0 false 2 1))))).port 0).seq.reg 1 = 0x3456 ∧
    ((after (exec (.uExt 0) (sq f (encodeU (.ext 1 0 true 2 1))))).port 0).seq.reg 1 = 0x5634 := by decide +kernel
/-- INCF adds modulo the field (R37). -/
theorem run_incf_wraps : let f := { fr with bytes := [0xFF, 0xFF] ++ List.replicate 62 0 }
    ((after (exec (.uIncf 0) (sq f (encodeU (.incf 0 false 2 0 3))))).running 0).map (fun g => g.slice 0 3) =
      some [0, 2, 0] := by decide +kernel

/-- Memory micro-ops on the absolute base, on the input buffer at its bound and beyond, and on an output buffer that no
publication has filled. -/
theorem wit_microMemoryOps :
    (∀ u ∈ [UOp.ldm 1 0 0 6 0x7FFF, .stm 0 1 0 1 0, .atm 0 0 0 4 8, .cpy 0 0 0 63 0, .fil 1 0 0 15 48],
      decodeU (encodeU u) = .op u) ∧
    memRef sqCells 0 0 0x7FFF 6 true = .at 0x407FFF ∧ cluBad sqCells 0x407FFF 6 = false ∧
    (∃ x, memRef sqCells 0 1 58 6 false = .at x) ∧ memRef sqCells 0 1 59 6 false = .bound ∧
    memRef sqCells 0 2 0 4 true = .zero ∧ memRef sqCells 0 2 61 4 true = .bound ∧
    cluBad { sqCells with ecc := [(0x407FFF / 8, true)] } 0x407FFF 6 = true ∧
    fr.touch ((sq fr 0).tunDepth 0) 0 64 = .ok :=
  ⟨by decide, by decide +kernel, by decide +kernel, ⟨_, rfl⟩, by decide +kernel, by decide +kernel, by decide +kernel,
   by decide +kernel, by decide +kernel⟩

/-- ATM adds to a field of the cluster memory (R37). -/
theorem run_atm : let s := (sq fr (encodeU (.atm 1 0 0 2 0x10))).store 0x400010 [0xFE, 0xFF, 0x01]
    (after (exec (.uAtm 0) (s.modSeq 0 (fun q => q.setReg 1 3)))).bytes 0x400010 3 = [1, 0, 1] := by decide +kernel
theorem wit_microMemoryBases : let s := sqCells
    0 + 64 ≤ s.get (Reg.PI.INSIZE.SIZE 0) ∧ s.get (Reg.PI.INSIZE.SIZE 0) < 1 + 64 ∧ s.get (Reg.PI.OUTSIZE.SIZE 0) < 64 + 1 ∧
    63 + 1 ≤ s.get (Reg.PI.OUTSIZE.SIZE 0) ∧ s.on (Reg.PI.OUTROLE.CVALID 0) = false ∧
    (s.put (Reg.PI.OUTROLE.CVALID 0) 1).on (Reg.PI.OUTROLE.CVALID 0) = true := by decide +kernel

/-- FIL beyond the bounds of the output image: zeros, BOUND and POISON (R70). -/
theorem run_fil_bound : let s := (sq fr (encodeU (.fil 1 0 2 3 0))).modSeq 0 (fun q => q.setReg 1 61)
    memRef s 0 2 (memOff s 0 1) 4 true = .bound ∧
    (let t := after (exec (.uFil 0) (s.put (Reg.PI.OUTSIZE.SIZE 0) 64))
     t.get (Reg.PI.ERR.BOUND 0) = 1 ∧ t.get (Reg.PI.INROLE.POISON 0) = 1) := by decide +kernel

/-- The control micro-ops, the call stack full and empty, a wait that holds and one that does not. -/
theorem wit_microFlowOps :
    (∀ u ∈ [UOp.br 28 true 0x3FFF, .wait 0 true, .wait 0 false, .jmp 1, .call 2, .ret, .nxw, .wjmp false 0 1023, .wjmp true 3 0],
      AtMicro (sq fr (encodeU u)) 0 fr u) ∧
    condition (sq fr 0) 0 fr 0 = true ∧ ((sq fr 0).port 0).seq.stk = [] ∧
    (let s := (sq fr (encodeU (.call 2))).modSeq 0 (fun q => { q with stk := [1, 2, 3, 4] })
     AtMicro s 0 fr (.call 2) ∧ 4 ≤ (s.port 0).seq.stk.length) ∧
    (let s := (sq fr (encodeU .ret)).modSeq 0 (fun q => { q with stk := [7] })
     AtMicro s 0 fr .ret ∧ (s.port 0).seq.stk = [7]) ∧
    csBad (sq fr 0) 0 16384 = false := by
  refine ⟨?_, by decide +kernel, rfl, ⟨⟨by decide +kernel, by decide +kernel, by decide +kernel⟩, by decide +kernel⟩,
    ⟨⟨by decide +kernel, by decide +kernel, by decide +kernel⟩, by decide +kernel⟩, by decide +kernel⟩
  intro u hu
  simp only [List.mem_cons, List.not_mem_nil, or_false] at hu
  rcases hu with rfl | rfl | rfl | rfl | rfl | rfl | rfl | rfl | rfl <;> exact at_micro _ _ rfl (by decide)

/-- CALL pushes the address after it, and a fifth call is a stack fault (R37, R32). -/
theorem run_call : ((after (exec (.uCall 0) (sq fr (encodeU (.call 0x20))))).port 0).seq.stk = [6] ∧
    (after (exec (.uCall 0) ((sq fr (encodeU (.call 2))).modSeq 0 (fun q => { q with stk := [1, 2, 3, 4] })))).get
      (Reg.WSQ.ERR.STK 0) = 1 := by decide +kernel

/-- The micro-ops of frame flow; a queue that is full, one that has room, one that holds the copy already, and a keyed frame. -/
theorem wit_microFrameFlow :
    (∀ u ∈ [UOp.nxg, .skto 0 4095, .endf, .cmt, .disc, .que 3, .sig 0xFF], AtMicro (sq fr (encodeU u)) 0 fr u) ∧
    (∃ s : State, queueFull s 0 3 = true) ∧ (∃ s : State, queueFull s 0 3 = false) ∧
    (let f := { fr with ques := [⟨3, false, false⟩] }
     AtMicro (sq f (encodeU (.que 3))) 0 f (.que 3) ∧ f.ques.any (fun c => c.q == (3 : BitVec 2).toFin) = true) ∧
    (let f := { fr with dupKey := some (1, 2) }
     AtMicro (sq f (encodeU (.que 0))) 0 f (.que 0)) := by
  refine ⟨?_, ⟨sqCells, by decide +kernel⟩, ⟨sqCells.put (Reg.PQ.RX.CFG.SLOTS 0 3) 16, by decide +kernel⟩,
    ⟨at_micro _ _ rfl (by decide), by decide⟩, at_micro _ _ rfl (by decide)⟩
  intro u hu
  simp only [List.mem_cons, List.not_mem_nil, or_false] at hu
  rcases hu with rfl | rfl | rfl | rfl | rfl | rfl | rfl <;> exact at_micro _ _ rfl (by decide)

/-- SKTO past the window of an ended frame goes to its last grain (R34). -/
theorem run_skto : ((after (exec (.uSkto 0) (sq { fr with eof := true } (encodeU (.skto 0 4095))))).running 0).map
    (fun g => g.cur) = some 3 := by decide +kernel

/-- The event ring with room and full; a codeword of its pointers that is bad. -/
theorem wit_eventRing : (hwLoad sqCells (privAddr sqCells 0 0x90) 8).isSome = true ∧
    (0 + 1) % 16 ≠ sqCells.load (privAddr sqCells 0 0x90) 4 % 16 ∧
    (let s := sqCells.store (privAddr sqCells 0 0x90) [1]
     (hwLoad s (privAddr s 0 0x90) 8).isSome = true ∧ (s.load (privAddr s 0 0x94) 4 % 16 + 1) % 16 = s.load (privAddr s 0 0x90) 4 % 16) ∧
    (let s := sq fr (encodeU (.sig 0))
     s.memBad (privAddr s 0 0x90) 8 = false ∧
     { s with ecc := [(privAddr s 0 0x90 / 8, true)] }.memBad (privAddr s 0 0x90) 8 = true) := by decide +kernel

theorem wit_sequencerFaults :
    ((sq fr 0x00000001).running 0 = some fr ∧ fetchU (sq fr 0x00000001) 0 = .udf ∧ fetchBad (sq fr 0x00000001) 0 = false) ∧
    ((sq fr 0xFC000000).running 0 = some fr ∧ fetchU (sq fr 0xFC000000) 0 = .illegal ∧ fetchBad (sq fr 0xFC000000) 0 = false) ∧
    fetchBad ((sq fr 0).modPort 0 (fun x => { x with csEcc := [(5, true)] })) 0 = true := by decide +kernel

/-- UDF records the opcode and the index of the wire op (R42). -/
theorem run_udf : let s := (sq fr 0).modSeq 0 (fun q => { q with opc := 0x77, wpc := 9 })
    (after (exec (.udf 0) s)).get (Reg.WSQ.UNDEF.OPC 0) = 0x77 ∧ (after (exec (.udf 0) s)).get (Reg.WSQ.UNDEF.WIDX 0) = 8 := by
  decide +kernel

theorem wit_wireControlOps : (∀ opc ∈ [0x01, 0x02, 0x03, 0x04, 0x05, 0x06, 0x07, 0x08, 0x09, 0x0A, 0x0B, (0x0E : BitVec 8)],
    AtWire (wi fr opc 0x000005) 0 fr opc.toNat) ∧ fr.touch ((wi fr 0x0B 0).tunDepth 0) 0 2 = .ok :=
  ⟨fun opc _ => at_wire _ _ _ rfl, by decide +kernel⟩

/-- SEEK sets the cursor, SQ0, to its operand (R66, R88). -/
theorem run_seek : ((after (exec (.wSeek 0) (wi fr 0x08 14))).port 0).seq.reg 0 = 14 := by decide +kernel
theorem wit_wireRoutineClose : (wi fr 0x05 0).running 0 = some fr := by decide +kernel

/-- The pointers of the event ring, sound and not. -/
theorem wit_signal : let s := wi fr 0x07 0
    s.memBad (privAddr s 0 0x90) 8 = false ∧ { s with ecc := [(privAddr s 0 0x90 / 8, true)] }.memBad (privAddr s 0 0x90) 8 = true := by
  decide +kernel

theorem wit_wireFieldOps : (∀ opc ∈ [0x0C, 0x0D, 0x43, 0x10, 0x11, 0x12, (0x13 : BitVec 8)],
    AtWire (wi fr opc 0x002000) 0 fr opc.toNat) ∧ fr.touch ((wi fr 0x43 0).tunDepth 0) 0 8 = .ok ∧
    entryBad (wi fr 0x11 0) 0 0 = false ∧ entryBad (wi fr 0x11 0) 0 1 = false ∧ entryBad (wi fr 0x11 0) 0 2 = false :=
  ⟨fun opc _ => at_wire _ _ _ rfl, by decide +kernel, by decide +kernel, by decide +kernel, by decide +kernel⟩

/-- MATET ends the program where the field differs (R66). -/
theorem run_matet : (after (exec (.wMatet 0) (wi fr 0x10 0x000800))).running 0 = none := by decide +kernel

theorem wit_wireDataOps : (∀ opc : BitVec 8, ∀ w, AtWire (wi fr opc w) 0 fr opc.toNat) ∧
    fr.touch ((wi fr 0x2F 0).tunDepth 0) 0 64 = .ok ∧
    memRef (wi fr 0x2F 0) 0 1 0 64 false = .at (inBuf (wi fr 0x2F 0) 0 ((wi fr 0x2F 0).get (Reg.PI.INROLE.FILL 0)) + 16 + 0) ∧
    (let s := (wi fr 0x1B 0).put (Reg.PI.OUTROLE.CVALID 0) 1
     AtWire s 0 fr 0x1B ∧ (∃ x, memRef s 0 2 0 1 true = .at x ∧ cluBad s x 1 = false)) := by
  refine ⟨fun opc w => at_wire _ _ _ rfl, by decide +kernel, by decide +kernel, ?_, _, rfl, by decide +kernel⟩
  refine ⟨by decide +kernel, by decide +kernel, by decide +kernel⟩

/-- Wire ops beyond the bounds of their images, and an output read with no current buffer (R70). -/
theorem wit_wireDataBounds :
    (let s := (wi fr 0x1B 0).put (Reg.PI.OUTSIZE.SIZE 0) 0
     memRef s 0 2 (wop s 0 % 2 ^ 19) 1 true = .bound) ∧
    memRef (wi fr 0x1B 0) 0 2 0 1 true = .zero ∧ memRef (wi fr 0x30 0) 0 2 0 4 true = .zero ∧
    (let s := (wi fr 0x18 0).put (Reg.PI.INSIZE.SIZE 0) 0
     memRef s 0 1 (wop s 0 % 2 ^ 19) 1 false = .bound ∧ memRef s 0 1 0 4 false = .bound ∧ memRef s 0 1 0 6 false = .bound) := by
  decide +kernel

/-- Streams and keyed frames for the queue and redundancy ops. -/
theorem wit_wireQueueOps : (∀ opc : BitVec 8, ∀ w, AtWire (wi fr opc w) 0 fr opc.toNat) ∧
    fr.touch ((wi fr 0x52 0).tunDepth 0) 6 6 = .ok ∧ fr.touch ((wi fr 0x52 0).tunDepth 0) 0 6 = .ok ∧
    entryBad (wi fr 0x52 0) 0 0 = false ∧
    (let s := (wi fr 0x52 0).modClu 0 (fun c => { c with dups := [⟨0, 0, [1], true⟩] })
     (s.clu (cluOf 0)).dup 0 0 = some ⟨0, 0, [1], true⟩ ∧ fr.egress = some 1) ∧
    (let f := { fr with eof := true, bytes := List.replicate 64 0 }
     f.touch ((wi f 0x53 0).tunDepth 0) (f.bytes.length - 10) 6 ≠ .violation ∧ 24 ≤ f.bytes.length) :=
  ⟨fun opc w => at_wire _ _ _ rfl, by decide +kernel, by decide +kernel, by decide +kernel, by decide +kernel, by decide +kernel⟩

/-! ### Tiller wire ops -/

/-- A frame of EtherType 0x88B5 and a TYPE from node 1 of segment 1 to a node, 64 bytes of it there. -/
def tillerFrame (type : Byte) (dst : List Byte) : Frame :=
  { fr with bytes := List.replicate 12 0 ++ [0x88, 0xB5, 1, type, 0, 2, 1] ++ dst ++ List.replicate 42 0 }

/-- A SHEAF. -/
def sheaf : Frame := tillerFrame 1 [0, 0, 0]

/-- A state whose port 0 is node 2 of segment 1. -/
def node2 (s : State) : State := (s.put Reg.TIL.ETYPE.TYPE 0x88B5).store (privAddr s 0 0x3A0) [2, 2, 0, 0x80]

theorem wit_tillerWireOps : (∀ opc : BitVec 8, ∀ w, AtWire (wi sheaf opc w) 0 sheaf opc.toNat) ∧
    (let s := node2 (wi sheaf 0x60 0)
     (s.port 0).seq.part = 0 ∧ sheaf.touch (s.tunDepth 0) 0 32 = .ok ∧ sheaf.touch (s.tunDepth 0) 24 40 = .ok ∧
     sheaf.touch (s.tunDepth 0) 0 64 = .ok ∧ isTiller s sheaf = true ∧ isTiller s fr = false ∧
     sheaf.byte 15 = 1 ∧ (s.port 0).seq.role.getLsbD 0 = false ∧
     staleFrame (s.store (privAddr s 0 0x422) [1]) 0 sheaf = true ∧ staleFrame s 0 sheaf = false) ∧
    (((wi sheaf 0x70 0).modSeq 0 (fun q => { q with role := 1, part := 1 })).port 0).seq.role.getLsbD 0 = true ∧
    (let s := { sheaf with bytes := List.replicate 72 0 }
     { s with cur := 1 }.touch 64 64 8 = .ok) := by
  refine ⟨fun opc w => at_wire _ _ _ rfl, by decide +kernel, by decide +kernel, by decide +kernel⟩
/-- A reserved TYPE from this node itself, and from another node to a third. -/
theorem wit_tillerWireOps_reserved : let f := tillerFrame 7 [0, 2, 3]
    let s := node2 (wi f 0x60 0)
    let own := s.store (privAddr s 0 0x3A0) [1, 2, 0, 0x80]
    f.byte 15 = 7 ∧ staleFrame s 0 f = false ∧ fromSelf s 0 f = false ∧ forNode s 0 f = false ∧ forAll s 0 f = false ∧
    staleFrame own 0 f = false ∧ fromSelf own 0 f = true ∧ opSby own 0 = false := by decide +kernel
/-- Slots: one already worked through, and one without payload; on a standby and on no standby. -/
theorem wit_tillerWireOps_slots : let s := wi sheaf 0x63 0
    let row := slotRow s 0 (wop s 0)
    let at' (k : Nat) (o : Nat) := s.modSeq 0 (fun q => { q with part := k, step := o, role := 1 })
    (s.port 0).seq.part = 0 ∧ row.len = 0 ∧ { sheaf with cur := skipTo sheaf row.off }.touch (s.tunDepth 0) row.off 8 = .ok ∧
    ((at' 1 8).port 0).seq.part ≠ 0 ∧ row.off + 8 + row.len ≤ ((at' 1 8).port 0).seq.step ∧
    ((at' 0 0).port 0).seq.part = 0 ∧ ((at' 0 0).port 0).seq.role.getLsbD 0 = true := by decide +kernel
/-- A frame that TLCARRY has worked through, one whose end has not come, and one whose first grain has left the window. -/
theorem wit_tillerWireOps_carry :
    let run (f : Frame) := wi f 0x66 0
    let piece (f : Frame) := eachPiece 0 64 (carryPiece 0) 8192 (run f)
    let whole : Frame := { sheaf with eof := true, fate := { sheaf.fate with verdict := some true } }
    (((run whole).modSeq 0 (fun q => { q with step := 64 })).port 0).seq.step = 64 ∧ whole.bytes.length = 64 ∧
    (piece whole).1 = true ∧ (((piece whole).2.running 0).map (fun h => h.eof && h.fate.verdict.isSome)) = some true ∧
    ((piece sheaf).2.running 0).map (·.eof) = some false ∧
    (piece { sheaf with cur := 3 }).2.running 0 = none := by decide +kernel
/-- TLBUILD with its header done, and at the end of a layout without slots. -/
theorem wit_tillerWireOps_build : let s := (wi sheaf 0x65 0).modSeq 0 (fun q => { q with part := 1, step := 80 })
    (s.port 0).seq.part ≠ 0 ∧ sheafLen s 0 (s.ring 0).slots ≤ (s.port 0).seq.step := by decide +kernel

theorem wit_controlStoreLoad : (live.port 0).csld = none ∧ live.on (Reg.WSQ.STAT.RUNACT 0) = false ∧
    (live.put (Reg.WSQ.STAT.RUNACT 0) 1).on (Reg.WSQ.STAT.RUNACT 0) = true ∧
    (let s := (live.modPort 0 (fun x => { x with csld := some .first }))
     (s.port 0).csld = some .first ∧ ({ s with permit := ⟨[(0, 5)], [], []⟩ } : State).holds 0 = true) ∧
    ((live.modPort 0 (fun x => { x with csld := some (.second [] []) })).port 0).csld = some (.second [] []) := by decide +kernel

/-- GO while a program may run is refused with RESULT 3 (R48). -/
theorem run_csld_running : (after (exec (.csldGo 0) (live.put (Reg.WSQ.STAT.RUNACT 0) 1))).get (Reg.WSQ.CSLD.STAT.RESULT 0) = 3 := by
  decide +kernel

/-- A package in the granary, and one in external memory whose read commands have left. -/
theorem wit_packageReads : let s := live.modPort 0 (fun x => { x with csld := some .first })
    isExternal (packAddr s 0) = true ∧ ({ s with bulk := [0] }).bulk.contains 0 = true ∧ s.unsent 17 false = false ∧
    isExternal (packAddr (s.put (Reg.WSQ.CSLD.ADDR_LO.ADDR 0) 0) 0) = isExternal (packAddr s 0) ∧
    isExternal (packAddr (s.modPort 0 (fun x => { x with csldAt := some (blockSpace + 0x1000000) })) 0) = false := by decide +kernel

/-! ### Transmit -/

/-- Class 0 of port 0 with one descriptor at 0x40_0000: a frame of 60 bytes in the granary, or what `ctrl` and `len` make it. -/
def txs (ctrl : Byte) (len : Nat) : State :=
  (puts [(Reg.PX.STAT.ENACT 0, 1), (Reg.GLB.MI.LINK.LINK, 1), (Reg.PQ.TX.CFG.COUNT 0 0, 4), (Reg.PQ.TX.TAIL.TAIL 0 0, 1)] live).store
    0x400000 (bytesLE 4 0x1000000 ++ bytesLE 2 len ++ [0x80 ||| ctrl, 0])

def txf (ctrl : Byte) (len : Nat) : TxFrame := ⟨0, 0, 0x1000000, len, 0x80 ||| ctrl, 0, none, 0, 0⟩

theorem wit_transmitCommands_start : let s := txs 0 60
    let t := txf 0 60
    macFree s 0 = true ∧ headStarted s 0 0 = false ∧ headDesc s 0 0 = some t ∧ t.good = true ∧ t.launch = false ∧ t.isThru = false ∧
    enough (longestOpen s 0 0) (frameNs s 0 t.len) = true ∧ enough (openFor s 0 0) (frameNs s 0 t.len) = true ∧
    heldBack s 0 0 = false ∧ frameCheck s 0 (s.get (Reg.LP.STAT.RATE 0)) t.len 0 0 = .ok ∧ s.readable t.addr 1 = true ∧
    sendWaiting 0 0 s = none ∧ ((s.put Reg.PWR.STAT.MGMT 2).readable t.addr 1) = false ∧
    (firstClass (classStart 0 0 s)).map (·.1) = some .queued ∧
    (txf 0 59).good = false ∧ headDesc (txs 0 59) 0 0 = some (txf 0 59) ∧ macFree live 0 = false ∧ macIdle live 0 = false := by decide +kernel
/-- A LAUNCH head whose LTIME is due, one that the windows refuse, one not due yet, and a frame longer than its gate opens. -/
theorem wit_transmitCommands_launch : let s := (txs 1 60).setDom 0 { TimeDom.reset with lo := 0x100000000 }
    let shut := s.put (Reg.TTW.CTRL.EN 0 0) 1
    let early := (txs 1 60).store 0x400008 (bytesLE 6 0x4000000000)
    let gated := ((txs 0 60).put (Reg.GCL.CTRL.GATEEN 0) 1).modPort 0 (fun x =>
      { x with gate := { x.gate with gates := 0xFF, valid := true, len := 1, cycle := 10 }, gcl := [(0, 0xFF00000000000001)] })
    headDesc s 0 0 = some (txf 1 60) ∧ (txf 1 60).launch = true ∧ launchDue s 0 (txf 1 60) 0 = true ∧
    frameCheck s 0 (s.get (Reg.LP.STAT.RATE 0)) 60 0 0 = .ok ∧ (firstClass (classStart 0 0 s)).map (·.1) = some .launched ∧
    macFree s 0 = true ∧ frameCheck shut 0 (shut.get (Reg.LP.STAT.RATE 0)) 60 0 0 ≠ .ok ∧ headDesc shut 0 0 = some (txf 1 60) ∧
    (let t := { txf 1 60 with stamp := 0x4000000000 }
     headDesc early 0 0 = some t ∧ t.good = true ∧ t.launch = true ∧ launchDue early 0 t 0 = false) ∧
    enough (longestOpen gated 0 0) (frameNs gated 0 60) = false := by decide +kernel
/-- THRU heads: one whose LTIME is due, and one without LAUNCH. -/
theorem wit_transmitCommands_thru : let s := (txs 3 60).setDom 0 { TimeDom.reset with lo := 0x100000000 }
    s.on (Reg.PX.STAT.ENACT 0) = true ∧ s.on (Reg.PX.STAT.DRAIN 0) = false ∧ headDesc s 0 0 = some (txf 3 60) ∧
    (txf 3 60).isThru = true ∧ (txf 3 60).good = true ∧ (txf 3 60).launch = true ∧ launchDue s 0 (txf 3 60) 0 = true ∧
    (s.port 0).thru = none ∧ s.arriving 0 = none ∧ s.get (Reg.WSQ.CTRL.EGR 0) % 4 = 0 ∧ s.readable 0x1000000 60 = true ∧
    (firstClass (tryThru 0 0 s)).isSome = true ∧ (firstClass (tryThru 0 0 (txs 2 60))).isNone = true ∧
    (firstClass (classStart 0 0 (txs 2 60))).map (·.1) = some .thru ∧
    (let t := s.modPort 0 (fun x => { x with thru := some { txf 3 60 with ended := some 0 } })
     (t.port 0).tx = none ∧ (t.port 0).thru = some { txf 3 60 with ended := some 0 }) := by decide +kernel
theorem wit_transmitCommands_held : let s := ((txs 0 60).put (Reg.PQ.TX.CFG.COUNT 0 0) 0).modPort 0 (fun x => { x with txHeld := some (txf 0 60) })
    let h := (puts [(Reg.GCL.CTRL.PREEN 0, 1), (Reg.GCL.STAT.VERIFIED 0, 1)] s).modPort 0 (fun x => { x with gate := { x.gate with hold := true } })
    macIdle s 0 = true ∧ (firstClass (classStart 0 0 s)).isNone = true ∧ (s.port 0).txHeld = some (txf 0 60) ∧
    ((s.port 0).gate.hold && preemptActive s 0) = false ∧
    macIdle h 0 = true ∧ (firstClass (classStart 0 0 h)).isNone = true ∧ ((h.port 0).gate.hold && preemptActive h 0) = true := by decide +kernel
theorem wit_transmitCommands_end : let s := (txs 0 200).modPort 0 (fun x => { x with tx := some (txf 0 200) })
    (s.port 0).tx = some (txf 0 200) ∧ s.readable 0x1000000 200 = true ∧ (txf 0 200).ended = none ∧
    (s.put (Reg.PWR.STAT.MGMT) 2).readable 0x1000000 200 = false ∧ s.bit Reg.GLB.MI.LINK.LINK 0 = true ∧
    (let t := puts [(Reg.GCL.CTRL.PREEN 0, 1), (Reg.GCL.STAT.VERIFIED 0, 1), (Reg.GCL.PRE.PRE 0, 1), (Reg.GCL.CTRL.FRAG 0, 1)] s
     preemptActive t 0 = true ∧ preemptable t 0 0 = true ∧ (s.port 0).txHeld = none ∧ (txf 0 200).sent + 64 * (1 + t.get (Reg.GCL.CTRL.FRAG 0)) ≤ 128 ∧
     128 + 64 ≤ (txf 0 200).len + 4) ∧ preemptActive s 0 = false := by decide +kernel
theorem wit_transmitCommands_gates : live.get (Reg.GCL.LEN.LEN 0) = 0 ∧
    (let s := puts [(Reg.GCL.LEN.LEN 0, 1024), (Reg.GCL.CYCLE.NS 0, 1)] live
     s.get (Reg.GCL.LEN.LEN 0) ≠ 0 ∧ s.get (Reg.GCL.LEN.LEN 0) ≤ 1024 ∧ s.get (Reg.GCL.CYCLE.NS 0) ≠ 0) ∧
    1024 < (live.put (Reg.GCL.LEN.LEN 0) 1025).get (Reg.GCL.LEN.LEN 0) ∧
    (let s := live.modPort 0 (fun x => { x with gate := { x.gate with pend := some (100, 0, 0, 2, 0) } })
     (s.port 0).gate.pend = some (100, 0, 0, 2, 0) ∧ 0 ≤ (s.dom 0).absNs) ∧
    (let s := live.modPort 0 (fun x => { x with gate := { x.gate with valid := true, len := 2, cycle := 100 } })
     (s.port 0).gate.valid = true ∧ (s.port 0).gate.since + (entrySpan s 0 0).2 ≤ (s.dom 0).absNs ∧ 0 + 1 < (s.port 0).gate.len ∧
     (entrySpan s 0 0).1 + (entrySpan s 0 0).2 < (s.port 0).gate.cycle) ∧
    (let s := (live.put (Reg.FRER.CFG.RESETMS 0) 1).modClu 0 (fun c => { c with streams := [(511, default)] })
     s.get (Reg.FRER.CFG.RESETMS 0) ≠ 0 ∧ lookup 511 (s.clu 0).streams = some default) := by decide +kernel

/-- A frame that is taken leaves with its FCS (R82, R53): 60 bytes of zeros and the check sequence computed outside Lean. -/
theorem run_tx : let s := after (exec (.txDescriptorStart 0 0) (txs 0 60))
    (after (exec (.txComplete 0) s)).out.head? = some (.frame 0 (List.replicate 60 0 ++ [0x08, 0x89, 0x12, 0x04])) := by decide +kernel

/-- A frame of the Tiller firmware that waits, and no class with a descriptor. -/
theorem wit_transmitCommands_waiting : let s := ((txs 0 60).put (Reg.PQ.TX.CFG.COUNT 0 0) 0).modPort 0 (fun x =>
      { x with ringWait := [List.replicate 64 0] })
    macIdle s 0 = true ∧ frameCheck s 0 (s.get (Reg.LP.STAT.RATE 0)) (64 - 4) 0 0 = .ok ∧
    (∀ c : Fin 8, s.get (Reg.PQ.TX.CFG.COUNT 0 c) = 0 ∨ s.get (Reg.PQ.TX.HEAD.HEAD 0 c) = s.get (Reg.PQ.TX.TAIL.TAIL 0 c)) := by decide +kernel

/-! ### Time -/

theorem wit_timeDomains : let s := live
    (s.get48 (Reg.TU.D.SETL_L.LO 0) (Reg.TU.D.SETL_H.LO 0)).toNat / 2 ^ 18 < 1000000000 ∧
    (let t := (s.put (Reg.TU.D.SETL_H.LO 3) 0xFFFF)
     1000000000 ≤ (t.get48 (Reg.TU.D.SETL_L.LO 3) (Reg.TU.D.SETL_H.LO 3)).toNat / 2 ^ 18) ∧
    s.pending = [] ∧ s.boot.inReset = false ∧ s.up 0 = true ∧ s.stopped = [] ∧ s.tap.edges = [] ∧ s.hgDue = [] ∧ (∀ e : Eng, (s.engine e).moves = []) ∧
    State.reset.boot.inReset = true ∧ s.cluUp 3 = true ∧ s.engRuns 0 = true ∧ s.up (engDom 0) = true ∧ s.parked 0 = false ∧
    (s.put Reg.FLT.RUN.ENG 0).engRuns 13 = false ∧
    (let t := s.setDom 2 { s.dom 2 with since := 5 }
     1 ≤ 5 ∧ 5 ≤ (t.dom 2).since) ∧ 2 ^ 39 < (((0x00FF : BitVec 16) ++ (s.dom 1).held) : Word).toInt ∧
    (((0xFF00 : BitVec 16) ++ (s.dom 1).held) : Word).toInt < -2 ^ 39 ∧ -2 ^ 39 ≤ (((0 : BitVec 16) ++ (s.dom 1).held) : Word).toInt ∧
    0 ∈ ({ s with stopped := [0, 4] } : State).stopped ∧ s.up 4 = true := by decide +kernel

/-- Five ENG_CLK periods of 1.25 ns make 6.25 ns: one step advances TIME by a quarter of 5 ns (R92). -/
theorem run_tick : ((after (step live)).dom 0).lo = 0x50000 := by decide +kernel
/-- ADJ is clamped to 2^39 (R93). -/
theorem run_adj : let s := live.put (Reg.TU.D.ADJ_L.ADJ 1) 0
    ((after (exec (.adjWrite 1 0x00FF) s)).dom 1).adj = 0x008000000000 := by decide +kernel
/-- A rate word that takes force between the two halves of a host write leaves the held low half (R93). -/
theorem run_adj_held : ((after (exec (.adjWrite 1 0) (setAdj 1 7 (holdAdj 1 5 live)))).dom 1).adj = 5 := by decide +kernel

theorem wit_timeOutputs : let s := puts [(Reg.TU.CTRL.CALEN, 1), (Reg.TU.CTRL.FINE, 1), (Reg.TU.PPS.CTRL.EN 3, 1), (Reg.TTW.CTRL.EN 0 0, 1),
      (Reg.TTW.PERIOD.NS 0 0, 1000)] live
    s.on Reg.TU.CTRL.CALEN = true ∧ s.on Reg.TU.CTRL.FINE = true ∧ (s.lower Reg.TU.CTRL.CALEN).on Reg.TU.CTRL.CALEN = false ∧
    s.holds 9 = false ∧ ({ s with permit := ⟨[(9, 1)], [], []⟩ } : State).holds 9 = true ∧
    s.on (Reg.TU.PPS.CTRL.EN 3) = true ∧ (s.put (Reg.TU.D.STAT.UNSYNC 0) 0).on (Reg.TU.D.STAT.UNSYNC 0) = false ∧ s.on (Reg.TU.PPS.CTRL.GATEU 3) = true ∧
    s.on (Reg.TU.D.STAT.UNSYNC 0) = true ∧ (s.dom 0).ns < 1000000000 ∧ 0 ∉ s.pps[(3 : Fin 4)].pulsed ∧
    0 ∈ (s.setPps 3 ⟨false, 0, [0]⟩).pps[(3 : Fin 4)].pulsed ∧ s.boot.inReset = false ∧ State.reset.boot.inReset = true ∧
    (let t := (s.put (Reg.TU.PPS.OFFS.NS 3) 5).setDom 0 { s.dom 0 with lo := BitVec.ofNat 48 (5 * 2 ^ 18 + 1) }
     (t.dom 0).ns < 1000000000 ∧ ((t.dom 0).ago 1).total < 0 * secUnits + 5 * 2 ^ 50 ∧ 0 * secUnits + 5 * 2 ^ 50 ≤ (t.dom 0).total ∧
     ¬ (0 + 1) * secUnits + 5 * 2 ^ 50 ≤ (t.dom 0).total) ∧ s.calib.next = none ∧
    (let t : State := { s with permit := ⟨[(9, 1)], [], []⟩, calib := { s.calib with next := some 8, counts := Vector.replicate 9 (4 * 256 * 4000000000) } }
     t.holds 9 = true ∧ t.calib.next = some (8 : Fin 9).val ∧ t.calib.next ≠ none ∧
     4 * (max 1 (t.get Reg.TU.CTRL.CALPER)) * 4000000000 ≤ 5 * t.calib.counts[(8 : Fin 9)] ∧
     ¬ 4 * (max 1 (s.get Reg.TU.CTRL.CALPER)) * 4000000000 ≤ 5 * s.calib.counts[(8 : Fin 9)]) ∧
    4 * 100000000 ≤ 5 * (s.setPps 3 ⟨true, 80000000, []⟩).pps[(3 : Fin 4)].age ∧ 5 * s.pps[(3 : Fin 4)].age < 4 * 100000000 ∧
    (let t := s.put (Reg.TTW.PERIOD.NS 0 0) 999
     let g := lineTiming t 0 0
     ¬ 1000 ≤ t.get (Reg.TTW.PERIOD.NS 0 0) ∧ startSeen t 0 0 g.1 (periodStart (t.dom g.1) g.2.1 g.2.2) = false) ∧
    (let g := lineTiming s 0 0
     startSeen s 0 0 g.1 (periodStart (s.dom g.1) g.2.1 g.2.2) = false ∧
     (let t := after (exec (.windowPeriodStart 0 0) s)
      let g := lineTiming t 0 0
      startSeen t 0 0 g.1 (periodStart (t.dom g.1) g.2.1 g.2.2) = true)) ∧ s.on (Reg.TU.PPS.CTRL.EN 0) = false ∧
    s.on (Reg.TTW.CTRL.EN 0 0) = true ∧ s.on (Reg.TTW.CTRL.EN 0 1) = false ∧ 1000 ≤ s.get (Reg.TTW.PERIOD.NS 0 0) ∧
    1000000000 % s.get (Reg.TTW.PERIOD.NS 0 0) = 0 ∧ s.get (Reg.TTW.PHASE.NS 0 0) < s.get (Reg.TTW.PERIOD.NS 0 0) ∧
    windowList s 0 0 = [] := by decide +kernel
/-- A software toggle leaves a pin that a hardware source has set in the same cycle (R115). -/
theorem run_toggle : let s : State := { live with pinActs := [(3, 7, false)] }
    (after (exec (.tmoToggle 8) s)).get Reg.TU.TMO.SET.LVL = s.get Reg.TU.TMO.SET.LVL ∧
    (after (exec (.tmoToggle 8) live)).get Reg.TU.TMO.SET.LVL = 8 := by decide +kernel

/-- A pulse starts in the cycle in which the nanosecond field reaches OFFS, and in no later one of its second (R110). -/
theorem run_pps : let s := puts [(Reg.TU.PPS.CTRL.EN 3, 1), (Reg.TU.PPS.CTRL.GATEU 3, 0), (Reg.TU.PPS.OFFS.NS 3, 5)] live
    let early := s.setDom 0 { s.dom 0 with lo := BitVec.ofNat 48 (5 * 2 ^ 18 + 1) }
    let late := s.setDom 0 { s.dom 0 with lo := BitVec.ofNat 48 (500 * 2 ^ 18) }
    (after (exec (.ppsPulse 3) early)).pps[(3 : Fin 4)].active = true ∧
    (after (exec (.ppsPulse 3) late)).pps[(3 : Fin 4)].active = false := by decide +kernel

theorem wit_timerChannels : let s := (puts [(Reg.TMR.CH.CTRL.ARMED 1 7, 1), (Reg.TMR.CH.PER.PER 1 7, 5), (Reg.TMR.CAP.CTRL.SRC 1 3, 2),
      (Reg.TMR.CAP.CTRL.EDGE 1 3, 1), (Reg.TMR.CH.CTRL.PIN 1 7, 31)] live).modClu 1 (fun c => { c with cnt := 12 })
    s.cluUp 1 = true ∧ s.on (Reg.TMR.CH.CTRL.ARMED 1 7) = true ∧ ((s.clu 1).cnt - (s.clu 1).cmp[(7 : Fin 8)]).toNat < 2 ^ 47 ∧
    s.get (Reg.TMR.CH.PER.PER 1 7) < 2 ^ 32 ∧ s.pinActs = [] ∧ s.get (Reg.TMR.CH.CTRL.PIN 1 7) < 32 ∧
    s.on (Reg.TMR.CH.CTRL.ARMED 1 0) = false ∧ ((s.modClu 0 (fun c => { c with cnt := BitVec.allOnes 48 })).clu 0).cnt = BitVec.allOnes 48 ∧
    (s.clu 0).cnt ≠ BitVec.allOnes 48 ∧ s.get (Reg.TMR.CAP.CTRL.SRC 1 3) = 2 ∧ s.get (Reg.TMR.CAP.CTRL.EDGE 1 3) ≠ 0 ∧
    s.get (Reg.TMR.CAP.CTRL.SRC 1 0) ≠ 1 ∧
    (let t := s.put (Reg.TMR.CH.CTRL.ACT 1 7) 3
     t.get (Reg.TMR.CH.CTRL.ACT 1 7) ≠ 0 ∧ t.pinActs.find? (fun e => e.1 == 31) = none) ∧
    (let t : State := { s with pinActs := [(31, 36, true)] }
     t.pinActs.find? (fun e => e.1 == 31) = some (31, 36, true) ∧ 9 * (1 : Clu).val + (7 : Fin 8).val < 36) ∧
    s.on (Reg.TMR.CAP.CAP_H.FULL 1 3) = false ∧ (s.put (Reg.TMR.CAP.CAP_H.FULL 1 3) 1).on (Reg.TMR.CAP.CAP_H.FULL 1 3) = true := by decide +kernel

/-- A periodic channel that lies two periods behind moves to the first multiple ahead and reports LAG (R112, R113). -/
theorem run_compare_lag :
    let s := State.modClu (puts [(Reg.TMR.CH.CTRL.ARMED 1 7, 1), (Reg.TMR.CH.PER.PER 1 7, 5)] live) 1 (fun c => { c with cnt := 12 })
    ((after (exec (.compareMatch 1 7) s)).clu 1).cmp[(7 : Fin 8)] = 15 ∧
    (after (exec (.compareMatch 1 7) s)).bit (Reg.TMR.CSTAT.LAG 1) 7 = true := by decide +kernel
/-- A periodic firing between the halves of a host write of CMP leaves the held low half (R113). -/
theorem run_compare_held :
    let s := State.modClu (puts [(Reg.TMR.CH.CTRL.ARMED 1 7, 1), (Reg.TMR.CH.PER.PER 1 7, 5)] live) 1 (fun c => { c with cnt := 12 })
    ((after (exec (.compareWrite 1 7 0) (after (exec (.compareMatch 1 7) (holdCompare 1 7 9 s))))).clu 1).cmp[(7 : Fin 8)] = 9 := by
  decide +kernel

/-- A pin that software sets ends set, though a channel of the same cycle clears it (R7, R115). -/
theorem run_pin_set_wins :
    let s := State.modClu (puts [(Reg.TMR.CH.CTRL.ARMED 1 7, 1), (Reg.TMR.CH.CTRL.ACT 1 7, 2), (Reg.TMR.CH.CTRL.PIN 1 7, 3)] live) 1
      (fun c => { c with cnt := 12 })
    (after (exec (.compareMatch 1 7) (after (exec (.tmoSet 8) s)))).bit Reg.TU.TMO.SET.LVL 3 = true ∧
    (after (exec (.tmoSet 8) (after (exec (.compareMatch 1 7) s)))).bit Reg.TU.TMO.SET.LVL 3 = true ∧
    (after (exec (.tmoClear 8) (after (exec (.compareMatch 1 7) (s.put (Reg.TMR.CH.CTRL.ACT 1 7) 1))))).bit Reg.TU.TMO.SET.LVL 3 = true := by
  decide +kernel

/-! ### Tiller and twins -/

/-- Ring 1 in a state, its private areas at 0 and 0x1000 of cluster 1. -/
def ringIn (st : Nat) : State := puts [(Reg.TIL.RING.STAT.STATE 1, st), (Reg.PX.PRIVBASE.BASE 3, 0x100)] live

theorem wit_tillerRows_apart : let s := ringIn 1
    s.answers (privAddr s (ringPort 1 false) 0) = true ∧ ringReads s (ringPort 1 false) = true ∧
    (∀ p ∈ ringPorts 1, 16 * s.get (Reg.PX.PRIVBASE.BASE p) + 0x1000 ≤ 0x80000) ∧
    (∀ o < 0x1000, ∀ o' < 0x1000, privAddr s (ringPort 1 false) o ≠ privAddr s (ringPort 1 true) o') := by
  refine ⟨by decide +kernel, by decide +kernel, by decide +kernel, ?_⟩
  intro o ho o' ho'
  have h0 : (ringIn 1).get (Reg.PX.PRIVBASE.BASE (ringPort 1 false)) = 0 := by decide +kernel
  have h1 : (ringIn 1).get (Reg.PX.PRIVBASE.BASE (ringPort 1 true)) = 0x100 := by decide +kernel
  have hc : cluOf (ringPort 1 false) = cluOf (ringPort 1 true) := by decide
  simp only [privAddr, h0, h1, cluAddr, hc]
  omega
theorem wit_tillerRows : ringState (ringIn 0) 1 = 0 ∧ ringState (ringIn 3) 1 = 3 ∧ ringState (ringIn 5) 1 = 5 ∧
    ringSby (ringIn 3) 1 = false ∧ ringState (ringIn 1) 1 = 1 ∧ ringState (ringIn 2) 1 = 2 ∧
    ((ringIn 1).put (Reg.TIL.RING.CTRL.MCAP 1) 1).on (Reg.TIL.RING.CTRL.MCAP 1) = true ∧
    ((ringIn 1).put (Reg.TIL.RING.CTRL.MCAP 1) 0).on (Reg.TIL.RING.CTRL.MCAP 1) = false ∧
    ringSby (puts [(Reg.TWN.CTRL.LEVEL, 2), (Reg.TWN.CTRL.RINGS, 2)] ((ringIn 3).store (privAddr (ringIn 3) 2 0xC20) [1])) 1 = true ∧
    (let s := (ringIn 3).modRing 1 (fun x => { x with change := some (1, [], false) })
     (s.ring 1).change = some (1, [], false)) ∧ ((ringIn 3).ring 1).change = none ∧
    (let s := puts [(Reg.PQ.TX.CFG.COUNT 2 7, 4)] (ringIn 3)
     s.get (Reg.PQ.TX.CFG.COUNT 2 7) ≠ 0 ∧ s.get (Reg.PQ.TX.CFG.COUNT 2 7) ≤ 2 ^ (Reg.PQ.TX.TAIL.TAIL 2 7).w ∧
     (s.get (Reg.PQ.TX.TAIL.TAIL 2 7) + 1) % s.get (Reg.PQ.TX.CFG.COUNT 2 7) ≠ s.get (Reg.PQ.TX.HEAD.HEAD 2 7)) ∧
    (let s := ringIn 3
     (s.load (privAddr s 2 0x94) 4 % 16 + 1) % 16 ≠ s.load (privAddr s 2 0x90) 4 % 16) ∧
    (let s := (puts [(Reg.PQ.TX.CFG.COUNT 2 7, 4), (Reg.PQ.TX.BASE.BASE 2 7, 0x400)] (ringIn 5)).modRing 1 (fun x => { x with echoBuf := 0x2000 })
     (s.get (Reg.PQ.TX.TAIL.TAIL 2 7) + 1) % s.get (Reg.PQ.TX.CFG.COUNT 2 7) ≠ s.get (Reg.PQ.TX.HEAD.HEAD 2 7) ∧
     ∀ i < 16, ∀ j < 60, descAddr s 2 7 (s.get (Reg.PQ.TX.TAIL.TAIL 2 7)) + i ≠ cluAddr 1 (s.ring 1).echoBuf + j) ∧
    (ringIn 5).get (Reg.PQ.TX.CFG.COUNT 2 7) = 0 ∧ twinned (ringIn 5) 1 = false ∧
    numbered ((ringIn 5).store (privAddr (ringIn 5) 2 0x3A0) [1, 2, 0, 0x80]) 2 = true ∧ numbered (ringIn 5) 2 = false := by
  decide +kernel
/-- A routed frame to node 7 of segment 3, with 1 hop left and with 2, at a router that has a route and at one that has none. -/
theorem wit_tillerRows_routed : let s := puts [(Reg.TIL.RING.STAT.STATE 0, 5), (Reg.TIL.RING.STAT.STATE 1, 3)] live
    let t := puts [(Reg.TIL.RT.VALID 3, 1), (Reg.TIL.RT.RING 3, 1)] s
    isRouter s = true ∧ isRouter live = false ∧
    (∀ q : Clu, ¬ (ownAddr s (ringPort q false) = 3 * 512 + 7 ∧ numbered s (ringPort q false) = true)) ∧
    natBE [0, 6, (7 : Byte)] % 2 ^ 18 / 512 = 3 ∧ s.on (Reg.TIL.RT.VALID 3) = false ∧ t.on (Reg.TIL.RT.VALID 3) = true ∧
    t.get (Reg.TIL.RT.RING 3) = 1 ∧ natBE [3, 0xFE, (0 : Byte)] % 2 ^ 18 / 512 = 511 := by decide +kernel

/-- MASTER that loses its SHEAF stays MASTER and reports it; a member listens again (R139). -/
theorem run_sheafLoss : (after (exec (.sheafLoss 1) (ringIn 3))).get (Reg.TIL.RING.STAT.STATE 1) = 3 ∧
    (after (exec (.sheafLoss 1) (ringIn 5))).get (Reg.TIL.RING.STAT.STATE 1) = 1 := by decide +kernel

/-- A claim under windows: sent where EN is 0, and waiting or not sent at all where the frame does not fit (R107). -/
theorem run_claim_windows : let s := puts [(Reg.TIL.RING.CTRL.MCAP 1, 1), (Reg.PX.STAT.ENACT 3, 1), (Reg.GLB.MI.LINK.LINK, 8)] (ringIn 1)
    frameCheck s 3 (s.get (Reg.LP.STAT.RATE 3)) 64 0 0 = .ok ∧
    frameCheck (s.put (Reg.TTW.CTRL.EN 1 1) 1) 3 (s.get (Reg.LP.STAT.RATE 3)) 64 0 0 ≠ .ok := by decide +kernel

/-- A frame on PT with a type, the epoch and the body; PAIRID 0 and the factory ID 1. -/
def ptf (ty : Byte) (epoch : Nat) (body : List Byte) : List Byte :=
  withFcs (padTo 60 (List.replicate 12 0 ++ [0x88, 0xB5, 1, ty, 0, 0] ++ bytesBE 2 epoch ++ [0, 0, 0, 0, 0, 0, 0, 1, 0, 0, 0, 0] ++ body))

/-- A unit in a state of the twin controller, its partner the unit with factory ID 1. -/
def twinIn (st : Nat) : State :=
  puts [(Reg.TIL.ETYPE.TYPE, 0x88B5), (Reg.TWN.CTRL.LEVEL, 2), (Reg.TWN.STAT.STATE, st), (Reg.TWN.PEERFID_L.FID, 1),
    (Reg.GLB.MI.LINK.LINK, 0x100)] live

theorem wit_twinRoles : (∀ k < 8, twinState (twinIn k) = k) ∧ (twinIn 1).bit Reg.GLB.MI.LINK.LINK 8 = true ∧
    live.bit Reg.GLB.MI.LINK.LINK 8 = false ∧ (twinIn 4).get Reg.TWN.CTRL.LEVEL ≠ 0 ∧
    (({ twinIn 4 with capture := [(0x400000, List.replicate 65537 0)] } : State).capture.map (fun w => w.2.length)).sum = 65537 := by
  refine ⟨by decide +kernel, by decide +kernel, by decide +kernel, by decide +kernel, ?_⟩
  simp only [List.map_cons, List.length_replicate, List.map_nil, List.sum_cons, List.sum_nil, Nat.add_zero]
theorem wit_twinRoles_hello : (∀ peer ∈ [1, 2, 3, 4, (5 : Byte)], let f := ptf 0x10 0 [peer, 0]
      ptGood (twinIn 1) 0x10 f = true ∧ helloAccepted (twinIn 1) f = true ∧ ptNum f 32 1 = peer.toNat ∧ fromPeer (twinIn 7) f = true) ∧
    helloAccepted (twinIn 1) (ptf 0x10 0 [1, 1]) = false ∧ (twinIn 1).fid < ptNum (ptf 0x10 0 [1, 0]) 20 8 ∧
    ptNum (ptf 0x10 0 [1, 0]) 20 8 ≤ ((twinIn 1).put Reg.TIL.FID_L.FID 1).fid ∧ ptGood (twinIn 1) 0x10 [] = false := by decide +kernel
theorem wit_twinRoles_heartbeat :
    (let f := ptf 0x11 1 [4, 0]
     ptGood (twinIn 4) 0x11 f = true ∧ ptNum f 16 2 = (twinIn 4).get Reg.TWN.PAIRID.ID ∧ epochNewer (ptNum f 18 2) 0 = true ∧
     twinState (ptSequence f (twinIn 4)) = 4 ∧ epochOlder (ptNum f 18 2) 0 = false) ∧
    (let f := ptf 0x11 0 [3, 1]
     epochNewer (ptNum f 18 2) 0 = false ∧ fromPeer (twinIn 4) f = true ∧ ptNum f 33 1 % 2 = 1 ∧
     (twinIn 4).on Reg.TWN.CTRL.HOLDTAKE = false ∧ ptNum (ptf 0x11 0 [3, 0]) 33 1 % 2 = 0 ∧
     twinState (ptSequence f (twinIn 5)) = 5) ∧
    epochOlder (ptNum (ptf 0x11 0 []) 18 2) 1 = true ∧ fromPeer live (ptf 0x11 0 []) = false ∧ debugHold (twinIn 4) = false := by
  decide +kernel
theorem wit_twinRoles_handover :
    (let s : State := { twinIn 4 with twin := { (twinIn 4).twin with handover := some (9, 1, false) } }
     let f := ptf 0x18 0 [0x16, 0, 0, 0, 0, 0, 0, 9]
     ptGood s 0x18 f = true ∧ fromPeer s f = true ∧ (ptSequence f s).twin.handover = some (9, 1, false) ∧
     twinState (ptSequence f s) = 4 ∧ f.getD 32 0 = 0x16 ∧ ptNum f 34 6 = 9) ∧
    (let f := ptf 0x16 0 [0, 0, 0, 0, 0, 9, 0, 1]
     ptGood (twinIn 6) 0x16 f = true ∧ fromPeer (twinIn 6) f = true ∧ twinState (ptSequence f (twinIn 6)) = 6) ∧
    (twinIn 4).twin.handover = none ∧ ptGood (twinIn 6) 0x17 (ptf 0x17 0 []) = true := by decide +kernel

/-- A unit in a state with the partner known, whose HELLO it has taken. -/
def agreedIn (st : Nat) (b : Bool) : State := { twinIn st with twin := { TwinSt.reset with agreed := b } }

theorem wit_twinRoles_agreed :
    (let f := ptf 0x11 0 [3, 0]
     ∀ b : Bool, let s := agreedIn 5 b
      ptGood s 0x11 f = true ∧ ptNum f 16 2 = s.get Reg.TWN.PAIRID.ID ∧ fromPeer s f = true ∧ ptNum f 32 1 = 3 ∧
      twinState (ptSequence f s) = 5 ∧ (ptSequence f s).twin.agreed = b ∧ epochOlder (ptNum f 18 2) 0 = false ∧
      epochNewer (ptNum f 18 2) 0 = false ∧ ptNum f 33 1 % 2 = 0) ∧
    (let s := (twinIn 7).put Reg.TWN.PEERFID_L.FID 0
     let f := ptf 0x10 0 [4, 0]
     noPeer s = true ∧ fromPeer s f = false ∧ ptGood s 0x10 f = true ∧ helloAccepted s f = true ∧ twinState s = 7) ∧
    (let s := (twinIn 5).put Reg.TWN.PEERFID_L.FID 0
     let f := ptf 0x11 1 [4, 0]
     noPeer (ptSequence f s) = true ∧ ptGood s 0x11 f = true ∧ epochNewer (ptNum f 18 2) (s.get Reg.TWN.EPOCH.EPOCH) = true ∧
     twinState (ptSequence f s) = 5) ∧
    (let s := (twinIn 7).put Reg.TWN.PEERFID_L.FID 2
     noPeer s = false ∧ fromPeer s (ptf 0x10 0 [4, 0]) = false) ∧
    (twinIn 4).twin.spent = false ∧ debugHold ((twinIn 4).put Reg.DBG.WDHOLD.HOLD 1) = true := by decide +kernel
theorem wit_twinRoles_hold : let s := (twinIn 4).put Reg.TWN.CTRL.HOLDTAKE 1
    let f := ptf 0x11 0 [6, 1]
    s.on Reg.TWN.CTRL.HOLDTAKE = true ∧ ptGood s 0x11 f = true ∧ fromPeer s f = true ∧ ptNum f 33 1 % 2 = 1 ∧
    epochOlder (ptNum f 18 2) (s.get Reg.TWN.EPOCH.EPOCH) = false ∧ twinState (ptSequence f s) = 4 := by decide +kernel
theorem wit_twinRoles_gone : (∀ k ∈ [1, (2 : Byte)], let f := ptf 0x17 0 [k]
      ptGood (twinIn 6) 0x17 f = true ∧ fromPeer (twinIn 6) f = true ∧ twinState (ptSequence f (twinIn 6)) = 6 ∧ f.getD 32 0 = k) ∧
    (let s : State := { twinIn 2 with twin := { (twinIn 2).twin with ordered := true } }
     twinState s = 2 ∧ s.twin.ordered = true) ∧
    (let s : State := { twinIn 6 with twin := { (twinIn 6).twin with handover := some (9, 1, false) } }
     twinState s = 6 ∧ s.twin.handover = some (9, 1, false)) := by decide +kernel

/-- A standby that declares its partner failed is active alone, in SOLO, with the next epoch (R180, R183). -/
theorem run_takeover : let t := after (exec .partnerTimeout (twinIn 6))
    t.get Reg.TWN.STAT.STATE = 5 ∧ t.get Reg.TWN.EPOCH.EPOCH = 1 := by decide +kernel
/-- A standby of a pair that twins ring 0, whose cluster memories answer; MGMT runs. -/
theorem wit_twinRoles_answers : let s := (twinIn 1).put Reg.TWN.CTRL.RINGS 1
    s.up 0 = true ∧ (0 : Port) ∈ twinPorts s ∧ (∀ p ∈ twinPorts s, s.answers (privAddr s p 0xC20) = true) ∧
    (s.put Reg.TWN.CTRL.SOLOOK 1).on Reg.TWN.CTRL.SOLOOK = true := by decide +kernel

/-- A unit in a state with twin controller data of its own. -/
def twinWith (st : Nat) (t : TwinSt) : State := { twinIn st with twin := t }

theorem wit_twinFrames_memory : live.answers 0x1000000 = true ∧ live.memBad 0x1000000 8192 = false ∧
    live.answers 0x1080000 = true ∧ (0x1000000 : Nat) % 8 = 0 ∧ leftOut live (0x1000000 / 8 * 8) 8 = false ∧ (List.replicate 8192 (0 : Byte)).length = 8192 := by decide +kernel
theorem wit_twinFrames_cut : let s := twinIn 4
    twinState s = 4 ∧ s.get Reg.TWN.CTRL.LEVEL ≠ 0 ∧ s.twin.ordered = false ∧ s.twin.handover = none ∧ s.capture = [] ∧
    (s.twin.cuts + 1).toNat = 1 ∧
    (let t := twinWith 2 { TwinSt.reset with pushing := true, page := 1281 }
     twinState t = 2 ∧ imageSent t = true ∧ t.twin.pushing = true ∧ t.get Reg.TWN.CTRL.LEVEL ≠ 0) ∧
    (let t := twinWith 2 { TwinSt.reset with pushing := true, page := 1280 }
     twinState t = 2 ∧ imageSent t = false ∧ t.twin.pushing = true ∧ t.twin.ordered = false ∧ t.twin.handover = none) ∧
    (∀ k : Bool, let t := twinWith 4 { TwinSt.reset with handover := some (1, 1, k) }
     t.twin.handover = some ((t.twin.cuts + 1).toNat, 1, k) ∧ twinState t = 4 ∧ t.twin.ordered = false) ∧
    (let t := twinWith 4 { TwinSt.reset with handover := some (2, 1, false) }
     t.twin.handover = some (2, 1, false) ∧ 2 ≠ (t.twin.cuts + 1).toNat ∧ t.twin.ordered = false) ∧
    (let t := twinWith 4 { TwinSt.reset with ordered := true, cuts := 0xFFFFFFFFFFFF }
     t.twin.ordered = true ∧ t.twin.handover = none ∧ (t.twin.cuts + 1).toNat = 0) ∧
    (twinIn 2).twin.pushing = false ∧ (twinIn 2).holds 10 = false ∧
    ({ twinIn 2 with permit := ⟨[(10, 1)], [], []⟩ } : State).holds 10 = true := by decide +kernel
theorem wit_twinFrames_received :
    (∀ ty ∈ [0x12, 0x13, 0x14, 0x15, (0x19 : Byte)], let f := ptf ty 0 [0, 0, 0, 0, 0, 1]
      ptGood (twinIn 3) ty.toNat f = true ∧ fromPeer (twinIn 3) f = true ∧ twinState (ptSequence f (twinIn 3)) = 3 ∧
      twinState (ptSequence f (twinIn 6)) = 6 ∧ twinState (ptSequence f (twinIn 4)) = 4 ∧ twinState (ptSequence f (twinIn 2)) = 2) ∧
    ptNum (ptf 0x12 0 [0, 0]) 33 1 % 2 = 0 ∧ ptNum (ptf 0x12 0 [0, 1]) 33 1 % 2 = 1 ∧
    (let f := ptf 0x14 0 [0, 0, 0, 0, 0, 1]
     ptNum f 32 6 = 1 ∧ (ptSequence f (twinIn 3)).twin.page < 1281 ∧
     1281 ≤ (ptSequence f { twinIn 3 with twin := { TwinSt.reset with page := 1281 } }).twin.page) ∧
    (let f := List.replicate 15 0 ++ [0x12] ++ List.replicate 48 0
     natLE (f.drop (f.length - 4)) ≠ (fcs (f.take (f.length - 4))).toNat ∧ 0x12 ≤ ptNum f 15 1 ∧ ptNum f 15 1 ≤ 0x15) := by
  decide +kernel
theorem wit_twinFrames_handover : let f := ptf 0x14 0 [0, 0, 0, 0, 0, 1]
    (ptSequence f (twinWith 6 { TwinSt.reset with handover := some (1, 3, false) })).twin.handover =
      some (ptNum f 32 6, 3, false) ∧
    (∀ e k, (ptSequence f (twinIn 6)).twin.handover ≠ some (ptNum f 32 6, e, k)) := by
  refine ⟨by decide +kernel, ?_⟩
  have h : (ptSequence (ptf 0x14 0 [0, 0, 0, 0, 0, 1]) (twinIn 6)).twin.handover = none := by decide +kernel
  intro e k; rw [h]; exact fun h => nomatch h
/-- A PUBLISH frame of port 0 with SEQ 1: its LAST byte and its offset. -/
def publish (last : Byte) (offs : Nat) : List Byte := ptf 0x12 0 ([0, last, 0, 0, 0, 0, 0, 1] ++ bytesBE 4 offs)

theorem wit_twinFrames_publish :
    (∀ last ∈ [0, (1 : Byte)], ∀ o ∈ [0, 2], let f := publish last o
      ptGood (twinIn 3) 0x12 f = true ∧ fromPeer (twinIn 3) f = true ∧ ptNum f 32 1 = 0 ∧ ptNum f 34 6 = 1 ∧ ptNum f 40 4 = o ∧
      ptNum f 33 1 % 2 = last.toNat) ∧
    (let s := twinWith 3 { TwinSt.reset with part := some (0, 1, [7, 8]) }
     (ptSequence (publish 1 2) s).twin.part = some (0, 1, [7, 8]) ∧ twinState (ptSequence (publish 1 2) s) = 3) ∧
    (ptSequence (publish 1 2) (twinIn 3)).twin.part = none := by decide +kernel
theorem wit_twinFrames_image : (∀ o ∈ [0, 0x9FE000, 0xA00000], let f := ptf 0x15 0 (bytesBE 4 o)
      ptGood (twinIn 6) 0x15 f = true ∧ fromPeer (twinIn 6) f = true ∧ ptNum f 32 4 = o) ∧
    twinned ((twinIn 6).put Reg.TWN.CTRL.RINGS 1) 0 = true := by decide +kernel
theorem wit_twinFrames_resync : (∀ k ∈ [0, 1279, 1280], let s := twinWith 2 { TwinSt.reset with pushing := true, page := k }
      twinState s = 2 ∧ s.twin.pushing = true ∧ s.twin.page = k) ∧
    (∀ m ∈ [0, 2559, 2560], let t := twinWith 2 { TwinSt.reset with pushing := true, page := 1281, marked := [m] }
     twinState t = 2 ∧ t.twin.pushing = true ∧ 1281 ≤ t.twin.page ∧ t.twin.marked = [m]) ∧
    (let t := twinWith 2 { TwinSt.reset with pushing := true, page := 1281 }
     1281 ≤ t.twin.page ∧ t.twin.marked = []) := by decide +kernel
/-- A page that lies in the private area of a twinned port is left out; a page of the granary is not. -/
theorem wit_twinFrames_leftOut :
    (let s := (twinWith 2 { TwinSt.reset with pushing := true, page := 1024 }).put Reg.TWN.CTRL.RINGS 1
     (leftOut (s.put (Reg.PX.PRIVSIZE.SIZE 0) 0xFFF) 0x400000 8192) = true ∧ s.up 0 = true ∧
     leftOut s 0x1000000 8192 = false ∧ imageAddr (8192 * s.twin.page) = 0x400000) ∧
    (let s := twinWith 3 { TwinSt.reset with page := 5 }
     s.twin.page ≠ 0 ∧ twinState s = 3 ∧ s.twin.expect = none) := by decide +kernel

/-- Engine 2 at address 0 of its scratchpad, with a line of its instruction cache that holds these bundles. -/
def engAt (l : List Word) : State :=
  live.setEng 2 { EngSt.reset with xl := { EngSt.reset.xl with
    lines := [(0, (l.flatMap (fun (v : Word) => bytesLE 6 v.toNat) ++ List.replicate 64 0).take 64)] } }

theorem wit_bundleIssue_dual : Ready (engAt [0x00E02B027FD0]) 2 0x00E02B027FD0 ∧ Plain (engAt [0x00E02B027FD0]) 2 :=
  ⟨⟨by decide +kernel, by decide +kernel, by decide +kernel, by decide +kernel, by decide +kernel⟩,
   by decide +kernel, by decide +kernel, by decide +kernel, by decide +kernel⟩
theorem wit_bundleIssue_long : Ready (engAt [0x418012345678]) 2 0x418012345678 ∧ Plain (engAt [0x418012345678]) 2 :=
  ⟨⟨by decide +kernel, by decide +kernel, by decide +kernel, by decide +kernel, by decide +kernel⟩,
   by decide +kernel, by decide +kernel, by decide +kernel, by decide +kernel⟩
theorem wit_bundleIssue_branch : Ready (engAt [0x8403803FFFFC]) 2 0x8403803FFFFC ∧ Plain (engAt [0x8403803FFFFC]) 2 :=
  ⟨⟨by decide +kernel, by decide +kernel, by decide +kernel, by decide +kernel, by decide +kernel⟩,
   by decide +kernel, by decide +kernel, by decide +kernel, by decide +kernel⟩
theorem wit_bundleIssue_repeat : Ready (engAt [0xC00000000064]) 2 0xC00000000064 ∧ Plain (engAt [0xC00000000064]) 2 :=
  ⟨⟨by decide +kernel, by decide +kernel, by decide +kernel, by decide +kernel, by decide +kernel⟩,
   by decide +kernel, by decide +kernel, by decide +kernel, by decide +kernel⟩
theorem wit_bundleIssue_trap : Ready (engAt [0xE00000000005]) 2 0xE00000000005 ∧ Plain (engAt [0xE00000000005]) 2 :=
  ⟨⟨by decide +kernel, by decide +kernel, by decide +kernel, by decide +kernel, by decide +kernel⟩,
   by decide +kernel, by decide +kernel, by decide +kernel, by decide +kernel⟩
theorem wit_bundleIssue_moves : (7 : BitVec 9).toNat < 64 ∧ (9 : BitVec 9).toNat < 64 ∧ (7 : BitVec 9) ≠ 9 ∧ (6 : BitVec 4).toNat ≤ 8 ∧
    sourceValue EngSt.reset 5 = some 0 ∧ sourceValue EngSt.reset 0x3FD = some (-3) ∧ (11 : BitVec 4).toNat ≤ 11 ∧
    decodeBundle 0xAC0000000001 = .branch 11 0 0 1 := by decide +kernel
theorem wit_bundleIssue_repeated :
    (let s := engAt [0xC00000000FFF, 0]
     peekNext 2 s = (.bundle 0, s) ∧ (decodeBundle 0).repeatable = true ∧ (0xFFF : BitVec 16).toNat ≤ 4095) ∧
    (let s := engAt [0xC00000001000, 0xE00000000005]
     peekNext 2 s = (.bundle 0xE00000000005, s) ∧ (decodeBundle 0xE00000000005).repeatable = false ∧ 4095 < (0x1000 : BitVec 16).toNat) ∧
    illegalHere (engAt [0xC00000010000]) 2 (decodeBundle 0xC00000010000) = true ∧
    illegalHere (engAt [0]) 2 (.dual ⟨7, 5, 9⟩ ⟨9, 0, 0⟩) = true := by decide +kernel

/-- G5 to G7 with width 6, -3 to G9 (R207): G7 gets bits 15 to 0 of G5 sign-extended. -/
theorem run_dual : let s := (engAt [0x00E02B027FD0]).modEng 2 (fun x => { x with g := x.g.set 5 0x12348001 })
    let t := (after (exec (.dualMove 2) s)).engine 2
    t.g[7] = 0xFFFFFFFF8001 ∧ t.g[9] = 0xFFFFFFFFFFFD ∧ t.flow.pc = 6 := by decide +kernel
/-- TRAP #5 enters vector 37: the saved pair is the bundle after it and the one after that (R207, R262). -/
theorem run_trap : let t := ((after (exec (.trap 2) (engAt [0xE00000000005]))).engine 2).exc
    t.epc = 6 ∧ t.enpc = 12 := by decide +kernel
/-- A row whose format is not that of the bundle that stands next; an engine that is halted issues nothing (R451, R452). -/
theorem wit_bundleIssue_other : decodeBundle 0xE00000000005 = .trap 5 ∧
    ((engAt [0xE00000000005]).put (Reg.DBG.E.STAT.HALTED 2) 1).issues 2 = false := by decide +kernel

/-- ALU0.ADD on the largest number overflows, and is seen with OV enabled, precise and not (R234, R276). -/
theorem wit_engineAluOps : let s := live.modEng 2 (fun x => { x with alu := x.alu.set 0 ⟨0x7FFFFFFFFFFF, 0, false⟩, exc := { x.exc with ov := true } })
    (s.engine 2).exc.ov = true ∧ s.bit Reg.GRIST.PREC.PREC 2 = false ∧ (s.put Reg.GRIST.PREC.PREC 4).bit Reg.GRIST.PREC.PREC 2 = true ∧
    (live.engine 2).exc.ov = false ∧ s.issues 2 = true ∧ (s.put Reg.GRIST.PREC.PREC 4).issues 2 = true ∧ live.issues 2 = true ∧
    (s.put (Reg.DBG.E.STAT.HALTED 2) 1).issues 2 = false := by decide +kernel
theorem run_alu_add : let s := live.modEng 2 (fun x => { x with alu := x.alu.set 0 ⟨5, 0, false⟩ })
    ((after (exec (.aluAdd 2 0 7) s)).engine 2).alu[0].r = 12 := by decide +kernel

theorem wit_engineMultiplyDivide : let s := live.modEng 2 (fun x => { x with mul := { x.mul with flight := [⟨.mac, 3, 4, 0, false, 0, true⟩] } })
    s.issues 2 = true ∧ s.bit Reg.GRIST.PREC.PREC 2 = false ∧ (s.engine 2).mul.flight = [⟨.mac, 3, 4, 0, false, 0, true⟩] ∧ (s.engine 2).div.flight = none ∧
    ((s.modEng 2 (fun x => { x with div := { x.div with flight := some (1, 2) } })).engine 2).div.flight = some (1, 2) := by decide +kernel
/-- A MAC that leaves the range of the pair, a MAC that raises under PREC, and a divide by 0 and by −1 that raise. -/
theorem wit_engineMultiplyDivide_raises :
    (let s := live.modEng 2 (fun x => { x with mul := ⟨0x7FFFFFFFFFFF, 0x7FFFFFFFFFFF, 0xFFFFFFFFFFFF, []⟩ })
     let s := s.modEng 2 (fun x => { x with div := { x.div with a := BitVec.intMin 48 }, exc := { x.exc with ov := true, dz := true } })
     let p := s.put Reg.GRIST.PREC.PREC 4
     p.issues 2 = true ∧ p.bit Reg.GRIST.PREC.PREC 2 = true ∧ raises (p.engine 2) 0x084 4 = some 10 ∧ raises (p.engine 2) 0x081 4 = none ∧
     raises (p.engine 2) 0x092 0 = some 9 ∧ raises (p.engine 2) 0x091 (-1) = some 10 ∧ (p.engine 2).div.flight = none ∧
     raises (p.engine 2) 0x092 2 = none ∧ raises (p.engine 2) 0x091 2 = none ∧ (s.engine 2).exc.ov = true ∧
     (2 : Int) ^ 95 ≤ ((0x7FFFFFFFFFFFFFFFFFFFFFFF : BitVec 96)).toInt + (4 : Word).toInt * (0x7FFFFFFFFFFF : Word).toInt) ∧
    (live.engine 2).mul.flight = [] := by decide +kernel

/-- The most negative number by -1, and a number by 0 (R238). -/
theorem run_div : let at' (a : Word) := live.modEng 2 (fun x => { x with div := { x.div with a := a } })
    let q (i : Instr) (s : State) := ((after (exec i s)).engine 2).div.flight
    q (.divDivs 2 (-1)) (at' 0x800000000000) = some (0x800000000000, 0) ∧
    q (.divDivs 2 0) (at' 7) = some (-1, 7) ∧ q (.divDivs 2 2) (at' (-7)) = some (-3, -1) := by decide +kernel
/-- MAC 3 × 4 onto a pair of 5 (R236). -/
theorem run_mac : let s := live.modEng 2 (fun x => { x with mul := ⟨0, 0, 5, [⟨.mac, 3, 4, 0, false, 0, true⟩]⟩ })
    ((after (exec (.mulComplete 2) s)).engine 2).mul.pl = 17 := by decide +kernel

/-- CLZ, SAR and BSWAP (R239). -/
theorem run_shift : let r (i : Instr) (a : Word) := ((after (exec i (live.modEng 2 (fun x => { x with sh := ⟨a, 0, 0⟩ })))).engine 2).sh.r
    r (.shClz 2 1) 0 = 47 ∧ r (.shSar 2 4) 0x800000000010 = 0xF80000000001 ∧ r (.shBswap 2 0x0102030405FF) 0 = 0xFF0504030201 := by
  decide +kernel

theorem wit_addressGenerators : let s := live
    s.issues 2 = true ∧ (s.put (Reg.DBG.E.STAT.HALTED 2) 1).issues 2 = false ∧ ((s.engine 2).ag[(0 : Fin 4)]).flight = none ∧ s.get (Reg.SP.OWNER.OWNER 2) = 0 ∧ s.on (Reg.SP.OWNER.PEND 2) = false ∧
    s.on Reg.DBG.LOCK.OPEN = false ∧
    -- the last 6 bytes of the scratchpad fit, and 6 bytes from offset 11 of a row do not
    (0x1FFFA : Word).toNat < 0x20000 ∧ (0x1FFFA : Word).toNat / 16 = ((0x1FFFA : Word).toNat + 6 - 1) / 16 ∧
    (11 : Word).toNat / 16 ≠ ((11 : Word).toNat + 6 - 1) / 16 ∧
    ((s.modAg 2 3 (fun g => { g with flight := some ⟨0, 0, 0xFF00640000, true, 6, 0, 0, 0, 3, 0, false, false⟩ })).engine 2).ag[(3 : Fin 4)].flight.isSome = true := by
  decide +kernel

/-- An own load, an SC with and without its reservation, posted stores, and a load from external memory. -/
theorem wit_accessCompletion :
    (let a : Access := ⟨0, 0, 0xFF00640000, true, 4, 4, 0x12345678, 0, 1, 0, false, false⟩
     let s := live.modAg 2 1 (fun g => { g with flight := some a })
     (s.engine 2).ag[(1 : Fin 4)].flight = some a ∧ behindStore s 2 a = false ∧ a.own = true ∧ 0xFF00000000 ≤ a.pa ∧ a.kind ≠ 2 ∧
     s.memBad 0x640000 4 = false ∧ s.ecc = [] ∧ ({ s with ecc := [(0x640000 / 8, true)] } : State).memBad 0x640000 4 = true ∧
     mergesBad s 0x640000 4 = false ∧
     behindStore (s.modEng 2 (fun x => { x with posted := [{ a with seqn := 0 }], ag := x.ag.set 1 { x.ag[1] with flight := some { a with seqn := 1 } } })) 2
       { a with seqn := 1 } = true ∧
     (let t := live.modEng 2 (fun x => { x with posted := [a], resv := some (0x640000 / 16) })
      (t.engine 2).posted[0]? = some a ∧ ((t.engine 2).posted.take 0).any (fun p => p.target == a.target) = false ∧
      (t.engine 2).resv = some (0x640000 / 16)) ∧ (live.engine 2).resv ≠ some (0x640000 / 16)) ∧
    (let a : Access := ⟨0, 0x1000, 0x1000, false, 4, 4, 0, 0, 1, 0, false, false⟩
     let s := live.modAg 2 1 (fun g => { g with flight := some a })
     a.pa < 0xFF00000000 ∧ s.waitsCredit 2 false = false ∧ extLoad (s.engine 2) = some 1 ∧
     (let t := live.modEng 2 (fun x => { x with posted := [a] })
      extStore (t.engine 2).posted = some 0 ∧ t.waitsCredit 2 true = false)) := by decide +kernel

/-- The master port takes answers; a read that waits for its credit can have none; an SC with and without its reservation. -/
theorem wit_accessCompletion_port : live.boot.inReset = false ∧ State.reset.boot.inReset = true ∧ live.mlQueue = [] ∧
    live.slQueue = [] ∧ live.credits.mlRd ≠ 0 ∧ live.credits.mlWc ≠ 0 ∧
    ({ live with credits := ⟨0, 0, 0, 0, 16, 16, 0, 0⟩ } : State).credits.mlRd = 0 ∧
    (let a : Access := ⟨0, 0x1000, 0x1000, false, 4, 4, 0, 0, 1, 0, false, false⟩
     let s := (live.modAg 2 1 (fun g => { g with flight := some a })).emit (.master 2 true false 0x1000 4 false [])
     s.waitsCredit 2 false = true ∧ s.credits.mlRd ≠ 0) ∧
    (∀ h : Bool, let a : Access := ⟨0, 0, 0xFF00640000, true, 4, 4, 7, 2, 1, 0, false, h⟩
     let s := live.modAg 2 1 (fun g => { g with flight := some a })
     (s.engine 2).ag[(1 : Fin 4)].flight = some a ∧ behindStore s 2 a = false ∧ a.kind = 2 ∧ a.held = h ∧
     mergesBad s 0x640000 4 = false) := by decide +kernel

/-- A sign-extended load of 4 bytes (R200, R225). -/
theorem run_load : let a : Access := ⟨0, 0, 0xFF00640000, true, 4, 8, 0, 0, 1, 0, false, false⟩
    let s := (live.modAg 2 1 (fun g => { g with flight := some a })).store 0x640000 [0x01, 0, 0, 0x80]
    ((after (exec (.loadComplete 2 1) s)).engine 2).ag[1].ldd = 0xFFFF80000001 := by decide +kernel

/-- A page of external memory, all permitted and marked. -/
def page : TlbEntry :=
  { vpn := 0x100, size := 0, x := true, w := true, r := true, ae := true, a := true, d := true, ppn := 5, share := 0, bad := false }

/-- Engine 2 with an entry of its first-level data TLB, its generator 0 at 0x100010, its stack at the page's end, its vectors at the
page's start. -/
def mapped (r : TlbEntry) : State :=
  ((live.modXl 2 (fun y => { y with dtlb := ⟨[(0, r)], 0⟩ })).modAg 2 0 (fun g => { g with addr := 0x100010 })).modExc 2
    (fun x => { x with sr := { x.sr with mask := 0 }, sp := 0x101000, vbar := 0x100000, epc := 0x111 })

/-- The same engine, the page at the second level only, for it and for all. -/
def mapped2 (r : TlbEntry) : State :=
  ((mapped r).modXl 2 (fun y => { y with dtlb := ⟨[], 0⟩ })).setL2 (engCluster 2) ⟨[(0, { r with share := 7 })], 0⟩

/-- The premises on the generator and its address, and each case of a hit. -/
theorem wit_translatedAccesses : let s := mapped page
    let va : Word := 0x100010
    s.issues 2 = true ∧ (s.engine 2).ag[(0 : Fin 4)].flight = none ∧ s.on Reg.DBG.LOCK.OPEN = false ∧ 0x20000 ≤ va.toNat ∧
    ((s.engine 2).ag[(0 : Fin 4)].bank ++ (s.engine 2).ag[(0 : Fin 4)].addr : Word) = va ∧
    va.toNat / 16 = (va.toNat + 6 - 1) / 16 ∧ (s.l2Of 2).ents = [] ∧
    (s.engine 2).xl.dtlb.find va.toNat none = some page ∧ page.r = true ∧ page.w = true ∧ page.a = true ∧ page.d = true ∧ page.bad = false ∧
    s.on (Reg.XL.E.CTRL.WALK 2) = false ∧ isExternal 0x5010 = true ∧
    -- on the block: the scratchpad of engine 3, and the own one with an owner that admits the engine and one that does not
    (let r := { page with ppn := (blockSpace + 0x660000) / 4096 }
     ((mapped r).engine 2).xl.dtlb.find va.toNat none = some r ∧ isExternal (blockSpace + 0x660010) = false ∧
     placeOf (realAddr 0x660010) = .spad 3) ∧
    (let r := { page with ppn := (blockSpace + 0x640000) / 4096 }
     ((mapped r).engine 2).xl.dtlb.find va.toNat none = some r ∧ placeOf (realAddr 0x640010) = .spad 2 ∧ s.admits 2 1 = false ∧
     (s.put (Reg.SP.OWNER.OWNER 2) 1).admits 2 1 = true) ∧
    -- not permitted, not marked
    (let r := { page with r := false, w := false }
     ((mapped r).engine 2).xl.dtlb.find va.toNat none = some r) ∧
    (let r := { page with a := false }
     ((mapped r).engine 2).xl.dtlb.find va.toNat none = some r) ∧
    (let r := { page with d := false }
     ((mapped r).engine 2).xl.dtlb.find va.toNat none = some r) := by decide +kernel

/-- An entry of the second level only, and an address that misses both: the walker off, on with the address outside and inside its
window, and with a walk under way. -/
theorem wit_translatedAccesses_miss :
    (let s := mapped2 page
     let r := { page with share := 7 }
     (s.engine 2).xl.dtlb.find 0x100010 none = none ∧ (s.l2Of 2).find 0x100010 (some (localEng 2)) = some r ∧
     (let r := { page with share := 7, r := false, w := false }
      (mapped2 r).issues 2 = true ∧ ((mapped2 r).l2Of 2).find 0x100010 (some (localEng 2)) = some r)) ∧
    (let s := (mapped page).modXl 2 (fun y => { y with dtlb := ⟨[], 0⟩ })
     let t := s.put (Reg.XL.E.CTRL.WALK 2) 1
     let u := t.put (Reg.XL.E.CTRL.WBASE 2) 1
     (s.engine 2).xl.dtlb.find 0x100010 none = none ∧ (s.l2Of 2).find 0x100010 (some (localEng 2)) = none ∧ s.issues 2 = true ∧
     s.on (Reg.XL.E.CTRL.WALK 2) = false ∧ t.issues 2 = true ∧ t.on (Reg.XL.E.CTRL.WALK 2) = true ∧ (t.engine 2).xl.walkFault = none ∧
     0x100010 / 2 ^ 39 = t.get (Reg.XL.E.CTRL.WBASE 2) ∧ 0x100010 / 2 ^ 39 ≠ u.get (Reg.XL.E.CTRL.WBASE 2) ∧
     (t.engine 2).xl.walk = none ∧
     ((t.modXl 2 (fun y => { y with walk := some ⟨0x100010, .read, none⟩ })).engine 2).xl.walk.isSome = true) := by decide +kernel

/-- The kind of a translation's answer: 0 an address, 1 a fault, 2 a wait. -/
def xlKind (r : Xl × State) : Nat := match r.1 with
  | .ok _ _ => 0
  | .fault _ => 1
  | .busy => 2

/-- The kind of a read's answer: 0 bytes, 1 an error, 2 a fault, 3 a wait. -/
def gotKind (r : GotVa × State) : Nat := match r.1 with
  | .ok _ => 0
  | .error => 1
  | .fault _ _ => 2
  | .wait => 3

/-- Engine 2 with its page in the memory of cluster 3. -/
def onBlock : State := mapped { page with ppn := (blockSpace + 0x5F0000) / 4096 }

/-- No entry at the first level, the walker on. -/
def walking : State := ((mapped page).modXl 2 (fun y => { y with dtlb := ⟨[], 0⟩ })).put (Reg.XL.E.CTRL.WALK 2) 1

/-- An entry that pushes through the page: it goes, misses at either row, waits for a walk, and finds its vector missing. -/
theorem wit_translatedAccesses_entry : let s := onBlock
    let ev := preciseEvent s 2 3
    let y := (s.engine 2).exc
    let low := (mapped page).modExc 2 (fun x => { x with sp := 0x201000 })
    let high := (mapped page).modExc 2 (fun x => { x with sp := 0x101010 })
    (ev.vec < 16 ∧ y.sr.mask.toNat < eventLevel y ev.vec) ∧ y.sp.toNat % 16 = 0 ∧
    xlKind (translate 2 (y.sp - 32).toNat .write s) = 0 ∧ xlKind (translate 2 (y.sp - 16).toNat .write s) = 0 ∧
    generatorsTouch s 2 (blockSpace + 0x5F0FE0) 16 = false ∧ generatorsTouch s 2 (blockSpace + 0x5F0FF0) 16 = false ∧
    gotKind (vectorLoad 2 3 s) = 0 ∧ ((vectorLoad 2 3 s).2.engine 2).exc = y ∧
    xlKind (translate 2 (low.engine 2).exc.sp.toNat .write low) = 1 ∧
    xlKind (translate 2 0x100FF0 .write high) = 0 ∧ xlKind (translate 2 0x101000 .write high) = 1 ∧
    xlKind (translate 2 0x300018 .read ((mapped page).modExc 2 (fun x => { x with vbar := 0x300000 }))) = 1 ∧
    xlKind (translate 2 0x100FE0 .write walking) = 2 := by decide +kernel

/-- A row of a push into external memory, into the own scratchpad, and one that meets an error; a vector read; the double fault's own
vector and a reload that miss. -/
theorem wit_translatedAccesses_rows : isExternal 0x5000 = true ∧ isExternal (blockSpace + 0x640000) = false ∧
    mergesBad live 0x640000 16 = false ∧
    (pushRow 2 (blockSpace + 0x5F0FF0) false (List.replicate 16 0) onBlock).1 = true ∧
    (pushRow 2 (blockSpace + 0x700FF0) false (List.replicate 16 0) onBlock).1 = false ∧
    xlKind (translate 2 0x100018 .read onBlock) = 0 ∧ isExternal (blockSpace + 0x5F0018) = false ∧
    generatorsTouch onBlock 2 (blockSpace + 0x5F0018) 6 = false ∧
    (let s := (mapped page).modExc 2 (fun x => { x with vbar := 0x300000, sp := 0x201000 })
     (s.engine 2).exc.sr.df = false ∧ (s.engine 2).exc.sp.toNat % 16 = 0 ∧
     xlKind (translate 2 0x300008 .read s) = 1 ∧ xlKind (translate 2 0x201000 .read s) = 1) ∧
    gotKind (vectorLoad 2 3 walking) = 3 := by decide +kernel

/-- A load through the entry leaves as a read command of the master port (R223, R324). -/
theorem run_translated : ((after (exec (.agLd 2 0 0) (mapped page))).mlQueue ++ (after (exec (.agLd 2 0 0) (mapped page))).out).length = 1 ∧
    (((after (exec (.agLd 2 0 0) (mapped page))).engine 2).ag[(0 : Fin 4)].flight.map (·.pa)) = some 0x5010 := by decide +kernel

theorem wit_engineFlowOps : let x := live.engine 2
    live.issues 2 = true ∧ (live.put (Reg.DBG.E.STAT.HALTED 2) 1).issues 2 = false ∧ x.flow.xfer = none ∧ x.exc.sr.ra = false ∧ x.exc.sr.la = false ∧ x.stepping = false ∧
    ((live.modFlow 2 (fun f => { f with xfer := some (true, 12) })).engine 2).flow.xfer ≠ none ∧
    ((live.modExc 2 (fun y => { y with sr := { y.sr with ra := true } })).engine 2).exc.sr.ra ≠ false ∧
    (let y := (live.modExc 2 (fun y => { y with sr := { y.sr with la := true } })).engine 2
     y.exc.sr.la = true ∧ y.flow.pc = y.flow.loopEnd) := by decide +kernel

/-- A CALL leaves the address after its delay bundle in BR.LINK (R212). -/
theorem run_call_link : let t := ((after (exec (.brCall 2 0x600) (live.modFlow 2 (fun f => { f with pc := 0x60 })))).engine 2).flow
    t.link = 0x6C ∧ t.pc = 0x66 ∧ t.xfer = some (true, 0x600) := by decide +kernel

theorem wit_loopCountWrite : live.issues 2 = true ∧ (live.engine 2).exc.sr.la = false := by decide +kernel

/-- Engines that issue, with and without a store that a port waits for; a ring pointer that answers, one with an error, and one of a
cluster that does not run; notes enabled and not. -/
theorem wit_engineQueuesAndCrc : live.issues 0 = true ∧ live.issues (pce 0) = true ∧ State.reset.issues 0 = false ∧
    (live.engine 0).posted.any toB2h = false ∧ (live.engine (pce 0)).posted.any (toOwnCluster (pce 0)) = false ∧
    ((live.modEng 0 (fun x => { x with posted := [⟨0, 0, 0xFF00010400, false, 4, 4, 0, 0, 0, 0, false, false⟩] })).engine 0).posted.any toB2h = true ∧
    ((live.modEng 2 (fun x => { x with posted := [⟨0, 0, 0xFF00400000, false, 4, 4, 0, 0, 0, 0, false, false⟩] })).engine 2).posted.any
      (toOwnCluster 2) = true ∧
    live.answers (privAddr live 0 4) = true ∧ live.ecc = [] ∧ live.memBad (privAddr live 0 4) 4 = false ∧
    ({ live with ecc := [(0x400000 / 8, true)] } : State).memBad (privAddr live 0 4) 4 = true ∧
    (live.put Reg.PWR.STAT.CL0 2).answers (privAddr live 0 4) = false ∧ live.bit (Reg.TRC.E.NOTEEN.NOTE 2) 31 = false ∧
    (let s := puts [(Reg.TRC.E.NOTEEN.NOTE 2, 2 ^ 31), (Reg.TRC.CTRL.EN, 1)] live
     s.bit (Reg.TRC.E.NOTEEN.NOTE 2) 31 = true ∧ s.on Reg.TRC.CTRL.EN = true ∧ s.issues 2 = true ∧ s.trace.lost = 0 ∧
     s.trace.fifo.length + [(0 : Word32)].length ≤ 1024) ∧
    1024 < ({ live.trace with fifo := List.replicate 1024 0 } : TraceSt).fifo.length + [(0 : Word32)].length := by
  refine ⟨by decide +kernel, by decide +kernel, by decide +kernel, by decide +kernel, by decide +kernel, by decide +kernel,
    by decide +kernel, by decide +kernel, by decide +kernel, by decide +kernel, by decide +kernel, by decide +kernel,
    by decide +kernel, by decide +kernel, by decide +kernel⟩

theorem wit_semaphoresAndMessages : let s := live
    let held := puts [(Reg.SEM.HOLD.HELD 63, 1), (Reg.SEM.HOLD.REQ 63, 2)] live
    s.issues 2 = true ∧ held.issues 3 = true ∧ s.on (Reg.SEM.HOLD.HELD 0) = false ∧ held.on (Reg.SEM.HOLD.HELD 63) = true ∧ held.get (Reg.SEM.HOLD.REQ 63) = (2 : Eng) ∧
    held.get (Reg.SEM.HOLD.REQ 63) ≠ (3 : Eng) ∧ (s.engine 2).msg.queue = [] ∧ takeParcel 2 3 s.parcels = none ∧
    (let t : State := { s with parcels := [⟨2, 3, false, 9⟩] }
     takeParcel 2 3 t.parcels = some (⟨2, 3, false, 9⟩, []) ∧ t.up (engDom 3) = true ∧ (t.engine 3).msg.queue.length < 8 ∧
     (t.engine 3).boot = false ∧ t.engRuns 3 = true ∧ (t.put Reg.PWR.STAT.CL0 2).up (engDom 3) = false ∧
     ((t.modEng 3 (fun x => { x with msg := { x.msg with queue := List.replicate 8 0 } })).engine 3).msg.queue.length = 8) ∧
    ((s.modEng 3 (fun x => { x with msg := { x.msg with queue := [5] } })).engine 3).msg.queue = [5] := by decide +kernel

/-- A software interrupt, source 14, enabled at level 6 while MASK is 5. -/
theorem wit_interruptChoice : let s := live.modExc 2 (fun x => { x with swi := 3, ien := 0xFFFF, ilvl := 0xFFFFFFFFFFFF, sr := { x.sr with mask := 5 } })
    (s.takeable 2).isSome = true ∧ (live.engine 2).exc.sr.mask = 7 ∧ live.takeable 2 = none := by decide +kernel
/-- A source that waits for a precise fault's handler is not taken (R270). -/
theorem run_waits : let s := live.modExc 2 (fun x => { x with swi := 1, ien := 0xFFFF, sr := { x.sr with mask := 0 } })
    s.takeable 2 = some 0 ∧ (s.modExc 2 (fun x => { x with holds := [⟨0, 0, 1, false⟩] })).takeable 2 = none := by decide +kernel

/-- Engine 2 with MASK 0, its stack at the top of the scratchpad, and the vector table at 0. -/
def excAt (sp : Word) : State := live.modExc 2 (fun x => { x with sr := { x.sr with mask := 0 }, sp := sp, epc := 0x111, ssr := 0x22 })

theorem wit_exceptionEntry : let s := excAt 0x20000
    let ev := preciseEvent s 2 3
    let y := (s.engine 2).exc
    ev.vec < 16 ∧ y.sr.mask.toNat < eventLevel y ev.vec ∧ y.sp.toNat % 16 = 0 ∧ 32 ≤ y.sp.toNat ∧ y.sp.toNat ≤ 0x20000 ∧
    y.vbar.toNat + 8 * ev.vec + 6 ≤ 0x20000 ∧ ev.vec < 64 ∧ s.ecc = [] ∧ s.get (Reg.SP.OWNER.OWNER 2) = 0 ∧
    s.on (Reg.SP.OWNER.PEND 2) = false ∧ (∀ n : Fin 4, (s.engine 2).ag[n].flight = none) ∧ (s.engine 2).posted = [] := by
  decide +kernel

/-- The entry pushes the old EPC at SP - 32 and the handler is the vector's slot (R271). -/
theorem run_entry : let s := (excAt 0x20000).store 0x640018 [0x60, 0, 0, 0, 0, 0]
    let t := takeException 2 (preciseEvent s 2 3) s
    t.load 0x65FFE0 6 = 0x111 ∧ t.load 0x65FFF0 6 = 0x22 ∧ (t.engine 2).flow.pc = 0x60 ∧ (t.engine 2).exc.sp = 0x1FFE0 := by
  decide +kernel

theorem wit_exceptionReturn : let s := excAt 0x1FFE0
    let x := s.engine 2
    s.issues 2 = true ∧ x.flow.xfer = none ∧ x.exc.sr.ra = false ∧ x.exc.sr.la = false ∧ x.stepping = false ∧
    s.on (Reg.TRC.E.CFG.FLOW 2) = false ∧ x.exc.sr.df = false ∧ x.exc.sp.toNat % 16 = 0 ∧ x.exc.sp.toNat + 32 ≤ 0x20000 ∧ ((excAt 8).engine 2).exc.sp.toNat % 16 ≠ 0 ∧
    ((s.modExc 2 (fun y => { y with sr := { y.sr with df := true } })).engine 2).exc.sr.df = true ∧
    s.ecc = [] ∧ s.get (Reg.SP.OWNER.OWNER 2) = 0 ∧ s.on (Reg.SP.OWNER.PEND 2) = false ∧ (∀ n : Fin 4, x.ag[n].flight = none) ∧
    x.posted = [] := by decide +kernel
theorem wit_exceptionReturn_fault : let r : Report := ⟨9, 0x66, 0, false, false, 0, false, 0⟩
    let s := (excAt 8).modExc 2 (fun y => { y with reports := [r] })
    let x := s.engine 2
    s.issues 2 = true ∧ x.exc.sr.df = false ∧ x.exc.sp.toNat % 16 ≠ 0 ∧ x.exc.reports = [r] ∧ ((excAt 8).engine 2).exc.reports = [] ∧
    x.flow.xfer = none ∧ x.exc.sr.ra = false ∧ x.exc.sr.la = false ∧ x.stepping = false ∧ s.on (Reg.TRC.E.CFG.FLOW 2) = false ∧
    (let y := (s.modFlow 2 (fun f => { f with xfer := some (true, 6) })).engine 2
     y.flow.xfer ≠ none) := by decide +kernel

/-- A return restores the pc from EPC and the status from SSR, and pops the frame (R275). -/
theorem run_return : let s := (excAt 0x1FFE0).store 0x65FFE0 [0x33]
    let z := (after (exec (.excRet 2) s)).engine 2
    z.flow.pc = 0x111 ∧ z.exc.epc = 0x33 ∧ z.exc.sp = 0x20000 ∧ z.exc.sr.mask = 2 := by decide +kernel

theorem wit_faultEscalation : let s := excAt 8
    let y := (s.engine 2).exc
    eventLevel (live.engine 2).exc 3 ≤ (live.engine 2).exc.sr.mask.toNat ∧ y.sp.toNat % 16 ≠ 0 ∧
    ¬ (eventLevel y 3 ≤ y.sr.mask.toNat) ∧ y.sr.df = false ∧ y.vbar.toNat + 14 ≤ 0x20000 ∧
    (let t := live.modExc 2 (fun x => { x with wdper := 1, sr := { x.sr with df := true } })
     (t.engine 2).exc.sr.df = true ∧ (t.engine 2).exc.wdper ≠ 0 ∧ t.clocked 2 = true ∧ t.halted 2 = false ∧
     (t.engine 2).exc.wdOnce = false ∧ ((t.modExc 2 (fun x => { x with wdOnce := true })).engine 2).exc.wdOnce = true) ∧
    (live.engine 2).exc.wdper = 0 ∧ s.ecc = [] ∧ s.get (Reg.SP.OWNER.OWNER 2) = 0 ∧ s.on (Reg.SP.OWNER.PEND 2) = false ∧
    (∀ n : Fin 4, (s.engine 2).ag[n].flight = none) ∧ (s.engine 2).posted = [] := by decide +kernel

/-- A fault with DF set resets the engine and leaves the record (R273, R285). -/
theorem run_thirdFault : let t := thirdFault 2 3 0x66 false live
    t.bit Reg.FLT.STAT.ENG 2 = true ∧ t.get Reg.FLT.LAST.VEC = 3 ∧ t.bit Reg.FLT.RUN.ENG 2 = false := by decide +kernel

theorem wit_boundaryEntries : let s := live.modExc 2 (fun x => { x with reports := [⟨9, 0, 0, false, false, 0, false, 0⟩] })
    s.issues 2 = true ∧ (s.engine 2).retry = none ∧ (s.engine 2).flow.xfer = none ∧ (s.engine 2).stalled = false ∧
    (s.engine 2).exc.sr.ra = false ∧ (s.engine 2).exc.reports = [⟨9, 0, 0, false, false, 0, false, 0⟩] ∧ (live.engine 2).exc.reports = [] ∧
    (live.engine 2).stepping = false ∧ ((live.modExc 2 (fun x => { x with wdWarn := true })).engine 2).exc.wdWarn = true ∧
    (live.engine 2).exc.wdWarn = false ∧
    (let t := live.modEng 2 (fun x => { x with flow := { x.flow with xfer := some (true, 6) } })
     t.issues 2 = true ∧ (t.engine 2).retry = none ∧ (t.engine 2).flow.xfer ≠ none) ∧
    (let t := live.modEng 2 (fun x => { x with fresh := true })
     t.issues 2 = true ∧ (t.engine 2).retry = none ∧ (t.engine 2).fresh ≠ false) ∧
    (live.engine 2).fresh = false ∧ (live.engine 2).exc.holds = [] ∧ (live.engine 2).retry = none ∧ live.issues 2 = true ∧
    ((live.modExc 2 (fun x => { x with wdWarn := true, holds := [⟨1, 0, 0, true⟩] })).engine 2).exc.holds.any (·.warn) = true ∧
    live.takeable 2 = none ∧
    (let t := live.modExc 2 (fun x => { x with swi := 1, ien := 0xFFFF, sr := { x.sr with mask := 0 } })
     (t.takeable 2).isSome = true ∧ t.issues 2 = true) := by decide +kernel

theorem wit_huskTransactions : let w : HuskWait := ⟨0x1C5, true, 9, false, 0, [], none, false⟩
    let s := live.modEng 3 (fun x => { x with husk := some w })
    (s.engine 3).husk = some w ∧ s.husk = none ∧ huskTurn s = some 3 ∧ huskTurn live = none ∧ (live.engine 3).husk = none ∧
    (let t : State := { s with husk := some ⟨3, 0x1C5, true, 9⟩ }
     t.husk = some ⟨3, 0x1C5, true, 9⟩ ∧ (t.engine 3).husk = some w ∧ w.debug = false ∧ w.write = true) := by decide +kernel
/-- A read whose value a general register takes, and one that is written on to another husk port. -/
theorem wit_huskTransactions_read : huskOnward ⟨0x1C5, false, 0, false, 0x00E02B027FD0, [], none, false⟩ = none := by decide +kernel
theorem wit_huskTransactions_onward :
    huskOnward ⟨0x1C5, false, 0, false, encodeBundle (.dual ⟨0x1C6, 0x1C5, 6⟩ ⟨9, 0x3FD, 0⟩), [], none, false⟩ = some (0x1C6, 6) := by
  decide +kernel

/-- An answer with nothing outstanding is counted (R257). -/
theorem run_stray : (after (exec (.hskAck 0 false) live)).get Reg.HSK.STAT.STRAY = 1 := by decide +kernel

/-! ### Memories, permits and translation -/

theorem wit_ownersSemaphoresAliases : let s := live
    s.get (Reg.SP.OWNER.OWNER 13) ≠ 3 ∧ s.on (Reg.SP.OWNER.PEND 13) = false ∧ (1 : BitVec 2).toNat ≠ s.get (Reg.SP.OWNER.OWNER 13) ∧
    (s.put (Reg.SP.OWNER.OWNER 13) 3).get (Reg.SP.OWNER.OWNER 13) = 3 ∧ ownAccess s 13 = false ∧
    (let a : Access := ⟨0, 0, 0xFF00640000, true, 4, 4, 0, 0, 1, 0, false, false⟩
     ownAccess (s.modEng 2 (fun x => { x with posted := [a] })) 2 = true) ∧
    s.on (Reg.SEM.HOLD.HELD 63) = false ∧
    (let h := puts [(Reg.SEM.HOLD.HELD 63, 1), (Reg.SEM.HOLD.REQ 63, 14)] s
     h.on (Reg.SEM.HOLD.HELD 63) = true ∧ h.get (Reg.SEM.HOLD.REQ 63) = 14) ∧
    -- the last row of the granary below the staging area, and the first of the cluster memories
    (0x13FFFFF / 16 = (0x13FFFF0 + 16 - 1) / 16 ∧ s.up (memDom 0x13FFFF0) = true ∧ s.unmapped 0x13FFFF0 = false ∧ s.ecc = []) ∧
    (s.up (memDom 0x400000) = true ∧ s.unmapped 0x400000 = false) := by decide +kernel

/-- The set alias ORs and the clear alias clears bits (R293). -/
theorem run_alias : let s := live.store 0x400010 [0x0F]
    (after (exec (.setAliasWrite 14 0x400010 [0xF0]) s)).byte 0x400010 = 0xFF ∧
    (after (exec (.clearAliasWrite 14 0x400010 [0x05]) s)).byte 0x400010 = 0x0A := by decide +kernel

theorem wit_memoryTester_start : let s := puts [(Reg.MEMT.CTRL.POLICY, 1), (Reg.MEMT.SPARE.PBANK, 16), (Reg.PERMIT.BUDGET.MW, 18)] live
    s.up 0 = true ∧ s.tester.test = none ∧ s.get Reg.MEMT.SPARE.PBANK ≠ 0x1F ∧ s.get Reg.MEMT.CTRL.POLICY = 1 ∧
    s.hasRequest 8 = false ∧ 18 ≤ s.get Reg.PERMIT.BUDGET.MW ∧ s.on Reg.MEMT.SPARE.UNTESTED = false ∧
    (s.put Reg.MEMT.SPARE.UNTESTED 1).on Reg.MEMT.SPARE.UNTESTED = true := by decide +kernel
theorem wit_memoryTester_phases :
    (let s : State := { puts [(Reg.MEMT.STAT.PHASE, 1), (Reg.PERMIT.BUDGET.MW, 18), (Reg.MEMT.SPARE.PBANK, 16)] live with
        permit := ⟨[(8, 12)], [], []⟩, tester := { live.tester with test := some 15 } }
     s.tester.test = some 15 ∧ s.get Reg.MEMT.STAT.PHASE = 1 ∧ testPermit s 0 = true ∧ s.ecc = [] ∧ s.get Reg.MEMT.SPARE.PBANK < 0x20) ∧
    (let s : State := { live.put Reg.MEMT.STAT.PHASE 3 with
        permit := ⟨[(8, 18)], [], []⟩, tester := { live.tester with test := some 0, phys := 16 } }
     s.tester.test = some 0 ∧ s.get Reg.MEMT.STAT.PHASE = 3 ∧ testPermit s 1 = true ∧ s.tester.phys ≤ 16 ∧ s.tester.pre = false ∧
     ({ s with tester := { s.tester with pre := true } } : State).tester.pre = true) := by decide +kernel
theorem wit_memoryTester_loans : let s := live.put Reg.MEMT.CTRL.POLICY 2
    s.get Reg.MEMT.CTRL.POLICY = 2 ∧ s.tester.queued = false ∧ s.on Reg.MEMT.STAT.LOAN = false ∧ s.tester.offer = none ∧
    s.engRuns 13 = true ∧ s.bit Reg.PWR.EIDLE.ENG 13 = false ∧ (live.put Reg.MEMT.CTRL.POLICY 1).get Reg.MEMT.CTRL.POLICY ≠ 2 ∧
    (let t : State := { s.lowerBit Reg.FLT.RUN.ENG 2 with permit := ⟨[(8, 10)], [], []⟩, tester := { s.tester with offer := some 2 } }
     t.tester.offer = some 2 ∧ t.engRuns 2 = false ∧ t.admits 2 0 = true ∧ testPermit t 2 = true) ∧
    (let t := puts [(Reg.MEMT.STAT.LOAN, 1), (Reg.MEMT.STAT.LENG, 13)] s
     t.on Reg.MEMT.STAT.LOAN = true ∧ t.get Reg.MEMT.STAT.LENG < 14 ∧ t.tester.next = none) := by decide +kernel
theorem wit_memoryTester_grant : (∀ c ∈ [12, 18], let s : State := { live.put Reg.PERMIT.BUDGET.MW 18 with
      permit := ⟨[], [(8, c)], []⟩, tester := { live.tester with test := some 3 } }
     s.tester.test.isSome = true ∧ s.permit.queue = [(8, c)] ∧ (s.permit.granted.map (·.2)).sum + c ≤ s.get Reg.PERMIT.BUDGET.MW) ∧
    (live.put Reg.MEMT.SPARE.PBANK 0x1F).get Reg.MEMT.SPARE.PBANK = 0x1F := by decide +kernel
theorem wit_memoryTester_offers : let s := live.put Reg.MEMT.CTRL.POLICY 2
    let stop (i : Nat) (t : State) : State := t.lowerBit Reg.FLT.RUN.ENG i
    (let t := stop 5 s
     t.engRuns 5 = false ∧ t.admits 5 0 = true ∧ t.on Reg.MEMT.STAT.LOAN = false ∧ t.tester.offer = none ∧ t.hasRequest 8 = false) ∧
    (let t : State := { stop 5 s with permit := ⟨[], [(8, 12)], []⟩ }
     t.hasRequest 8 = true ∧ t.engRuns 5 = false) ∧
    (let t : State := { s with tester := { s.tester with offer := some 3, next := some 4 } }
     t.tester.offer.isSome = true ∧ t.tester.next.isSome = true) ∧
    -- the round passes over an engine whose scratchpad another holds
    (let t := stop 5 (stop 3 ((s.put Reg.MEMT.CTRL.POLICY 1).put (Reg.SP.OWNER.OWNER 3) 1))
     nextOffer t = some 5 ∧ t.get Reg.MEMT.CTRL.POLICY = 1 ∧ t.tester.offered = false ∧ lendable t 3 = false) ∧
    (let t : State := { s with tester := { s.tester with offer := some 3 } }
     t.tester.offer = some 3 ∧ t.tester.next = none ∧ t.engRuns 3 = true ∧ t.bit Reg.PWR.EIDLE.ENG 3 = false) ∧
    (let t : State := { puts [(Reg.MEMT.STAT.LOAN, 1), (Reg.MEMT.STAT.LENG, 4)] s with
       tester := { s.tester with restart := some 0x30 } }
     t.on Reg.MEMT.STAT.LOAN = true ∧ t.get Reg.MEMT.STAT.LENG < 14 ∧ t.tester.next = none ∧ t.tester.restart = some 0x30) := by
  decide +kernel

theorem wit_memoryTester_stopped : (live.lowerBit Reg.FLT.RUN.ENG 0).engRuns 0 = false ∧ (live.raiseBit Reg.PWR.EIDLE.ENG 0).bit Reg.PWR.EIDLE.ENG (0 : Eng).val = true ∧
    live.midBundle 0 = false ∧ (live.modEng 0 (fun x => { x with held := some (0, none) })).midBundle 0 = true := by decide +kernel

theorem wit_permitUnit : let s := live.put Reg.PERMIT.BUDGET.MW 40
    s.hasRequest 10 = false ∧ permitCost 10 0 ≤ s.get Reg.PERMIT.BUDGET.MW ∧
    (s.put Reg.PERMIT.BUDGET.MW 39).get Reg.PERMIT.BUDGET.MW < permitCost 10 0 ∧
    (let t : State := { s with permit := ⟨[(0, 16)], [(1, 16), (2, 16)], []⟩ }
     t.permit.queue = [(1, 16), (2, 16)] ∧ (t.permit.granted.map (·.2)).sum + 16 ≤ t.get Reg.PERMIT.BUDGET.MW ∧
     t.hasRequest 2 = true ∧ (t.put Reg.PERMIT.BUDGET.MW 31).get Reg.PERMIT.BUDGET.MW < (t.permit.granted.map (·.2)).sum + 16) ∧
    s.permit.queue = [] := by decide +kernel
theorem wit_permitUnit_tester : let t : State := { live.put Reg.PERMIT.BUDGET.MW 40 with
      permit := ⟨[], [(8, 12)], []⟩, tester := { live.tester with test := some 3 } }
    t.permit.queue = [(8, 12)] ∧ (t.permit.granted.map (·.2)).sum + 12 ≤ t.get Reg.PERMIT.BUDGET.MW ∧ t.tester.test.isSome = true := by
  decide +kernel

/-- The budget is what remains of 1500 mW after the floor of 1373 mW (R403). -/
theorem run_budget : (after (exec .budgetChange (live.put Reg.TU.CTRL.FINE 0))).get Reg.PERMIT.BUDGET.MW = 127 := by decide +kernel

/-- Requests of engine 2: a good entry with V and without, a size out of range, and a page that the data TLB holds. -/
theorem wit_tlbRequests : let reqOf (v : Word) := live.modEng 2 (fun x => { x with g := (x.g.set 62 v).set 63 0x5000 })
    let s := reqOf 0x100071
    s.issues 2 = true ∧ (s.put (Reg.DBG.E.STAT.HALTED 2) 1).issues 2 = false ∧
    requestRefused s 2 (requestEntry ((s.engine 2).g[62]).toNat ((s.engine 2).g[63]).toNat) = false ∧
    (s.engine 2).g[62].getLsbD 0 = true ∧ ((reqOf 0x100070).engine 2).g[62].getLsbD 0 = false ∧
    (let t := reqOf 0x100EF1
     requestRefused t 2 (requestEntry ((t.engine 2).g[62]).toNat ((t.engine 2).g[63]).toNat) = true) ∧
    (let t := s.modXl 2 (fun x => { x with dtlb := ⟨[(0, ⟨0x100, 0, false, true, true, false, true, true, 5, 0, false⟩)], 1⟩ })
     (t.engine 2).xl.dtlb.find 0x100071 none = some ⟨0x100, 0, false, true, true, false, true, true, 5, 0, false⟩) ∧
    ((s.engine 2).xl.dtlb.find 0x100071 none).isNone = true ∧ ((s.l2Of 2).find 0x100071 (some (localEng 2))).isNone = true := by
  decide +kernel
theorem wit_tlbRequests_parity : let s := live.modEng 2 (fun x => { x with g := x.g.set 62 0x100071, xl := { x.xl with
      dtlb := ⟨[(0, ⟨0x100, 0, false, true, true, false, true, true, 5, 0, true⟩)], 1⟩ } })
    let bad (k : Nat × TlbEntry) : Bool := k.2.bad && k.2.covers (s.engine 2).g[62].toNat
    (s.engine 2).xl.dtlb.ents.any bad = true ∧ (s.l2Of 2).ents.any bad = false ∧ s.get Reg.MEM.PARCNT.CNT < 65535 ∧
    (live.engine 2).xl.dtlb.ents.any bad = false := by decide +kernel

/-- A walk of engine 2 for 0x100000, before and after its level-1 read, and descriptors of every kind. -/
theorem wit_tableWalks : let w : Walk := ⟨0x100000, .read, none⟩
    let s := live.modXl 2 (fun x => { x with walk := some w })
    let t := live.modXl 2 (fun x => { x with walk := some { w with at' := some (3, 0x2000) } })
    (s.engine 2).xl.walk = some w ∧ (live.engine 2).xl.walk = none ∧ (t.engine 2).xl.walk = some { w with at' := some (3, 0x2000) } ∧
    isExternal 0x2000 = true ∧ t.unsent ((2 : Eng) + 64) false = false ∧
    (t.emit (.master ((2 : Eng) + 64) true false 0x2000 8 false [])).unsent ((2 : Eng) + 64) false = true ∧
    (let c : State := { live with credits := { live.credits with cmd := 1 } }
     c.credits.cmd ≠ 0 ∧ c.up 0 = true ∧ c.slQueue = [] ∧
      ({ c with mlQueue := [.master ((2 : Eng) + 64) true false 0x2000 8 false []] } : State).masterRoom false ≠ 0) ∧
    (0x100 : BitVec 64).toNat / 2 ^ 8 % 2 ^ 4 ≠ 0 ∧ (0x10000000000 : BitVec 64).toNat / 2 ^ 40 ≠ 0 ∧ (0 : BitVec 64).getLsbD 0 = false ∧
    (0x1003 : BitVec 64).toNat / 2 ^ 12 % 2 ^ (9 * (3 - 2)) ≠ 0 ∧ (0x1003 : BitVec 64).getLsbD 1 = true ∧
    (0x7001 : BitVec 64).getLsbD 0 = true ∧ (0x7001 : BitVec 64).getLsbD 1 = false := by decide +kernel
/-- Engine 2 in an external page that its instruction TLB holds, with the line not in its cache. -/
theorem wit_tableWalks_fill : let s := (live.put Reg.RAM.DEFAULT.DEV 0).modEng 2 (fun x => { x with
      flow := { x.flow with pc := 0x100002 }
      xl := { x.xl with itlb := ⟨[(0, ⟨0x100, 0, true, false, false, false, true, false, 5, 0, false⟩)], 1⟩ } })
    ({ s with credits := { s.credits with cmd := 1 } } : State).readsNow = true ∧
    fetchNow 2 (s.pc 2).toNat s = (.busy (some 0x4000), s) ∧ translate 2 0x100002 .fetch s = (.ok 0x5002 false, s) ∧
    isExternal 0x5002 = true ∧ lookup 0x4000 (s.engine 2).xl.lines = none ∧ (s.engine 2).xl.lines.length < 512 := by
  exact ⟨by decide +kernel, by decide +kernel, rfl, by decide +kernel, by decide +kernel, by decide +kernel⟩

/-- A level-3 leaf becomes a page of 4 KiB with the descriptor's page number (R322, R326). -/
theorem run_leaf : let s := live.modXl 2 (fun x => { x with walk := some ⟨0x100000, .read, some (3, 0x2000)⟩ })
    ((after (exec (.walkReadDone 2 0x1234047 false) s)).engine 2).xl.dtlb.ents.map (fun k => (k.2.vpn, k.2.ppn, k.2.r, k.2.w)) =
      [(0x100, 0x1234, true, false)] := by decide +kernel

theorem wit_shootdowns : let s := live
    s.on Reg.SD.STAT.BUSY = false ∧
    (let t : State := { s.put Reg.SD.STAT.BUSY 1 with sd := [(2, 5)] }
     t.on Reg.SD.STAT.BUSY = true ∧ t.up (engDom 2) = true ∧ engBusy t (engOf 2) 5 = false) ∧
    (let a : Access := ⟨4, 0, 0xFF00640000, true, 4, 4, 0, 0, 1, 0, false, false⟩
     let t : State := { (s.put Reg.SD.STAT.BUSY 1).modEng 2 (fun x => { x with posted := [a] }) with sd := [(2, 5)] }
     engBusy t (engOf 2) 5 = true) := by decide +kernel

/-- A shootdown of one engine leaves the others' TLBs (R333). -/
theorem run_shootdown : let ent : TlbEntry := ⟨0, 0, false, true, true, false, true, true, 5, 0, false⟩
    let s := (live.modXl 2 (fun x => { x with dtlb := ⟨[(0, ent)], 1⟩ })).modXl 3 (fun x => { x with dtlb := ⟨[(0, ent)], 1⟩ })
    let t := after (exec (.shootdownGo 4 0 false false) s)
    (t.engine 2).xl.dtlb.ents = [] ∧ (t.engine 3).xl.dtlb.ents = [(0, ent)] := by decide +kernel
/-- A cluster named by its second-level TLB alone: a walk of its engine starts again (R334). -/
theorem run_shootdown_l2 : let s := live.modXl 2 (fun x => { x with walk := some ⟨0x100000, .read, some (3, 0x2000)⟩ })
    let t := after (exec (.shootdownGo 0 (BitVec.ofNat 5 (2 ^ engCluster 2)) false false) s)
    (t.engine 2).xl.walk = some ⟨0x100000, .read, none⟩ := by decide +kernel

/-- A command with tag 7. -/
def hc (op : BitVec 16) (params : List Byte) (started committed : Bool) : HostCmd :=
  { tag := 7, op := op, params := params, noReply := false, started := started, committed := committed, aborters := [] }

/-- Channel 0 in service. -/
def served : State := puts [(Reg.MB.STAT.READY 0, 1), (Reg.FLT.RUN.ENG, 3)] live

/-- The same with an outstanding command. -/
def srv (m : HostCmd) : State := served.modChan 0 (fun x => { x with cmds := [m] })

/-- A state with a packet in H2B: opcode, tag, LEN, FLAGS, reserved bytes, parameters. -/
def h2b (op tag len : Nat) (rest : List Byte) (s : State) : State :=
  { s.put (Reg.DB.BB.BITS 0) 1 with
    mem := memSetAll s.mem 0x10000 (bytesLE 2 op ++ bytesLE 2 tag ++ bytesLE 2 len ++ rest) }

theorem wit_hostRing_commands : let hdr : List Byte := List.replicate 10 0
    let b (s : State) : List Byte := s.bytes 0x10000 1024
    let good (s : State) : Bool := serviceRuns s 0 && s.bit (Reg.DB.BB.BITS 0) 0
    good served = false ∧
    (let s := h2b 0x0101 7 1009 hdr served
     good s = true ∧ 1008 < fieldLE (b s) 4 2) ∧
    (let s := h2b 0x0101 7 1008 (2 :: hdr) served
     good s = true ∧ fieldLE (b s) 4 2 = 1008 ∧ ((b s).getD 6 0).toNat = 2) ∧
    (let s := h2b 0x0101 7 0 (1 :: 0 :: 9 :: hdr) served
     good s = true ∧ (b s).getD 7 0 = 0 ∧ (b s).getD 8 0 ≠ 0) ∧
    (let s := h2b 0x0101 7 0 hdr served
     good s = true ∧ fieldLE (b s) 0 2 = 0x0101 ∧ fieldLE (b s) 4 2 = 0 ∧ (∀ i < 10, (b s).getD (6 + i) 0 = 0) ∧
     outstanding (s.chan 0) = []) := by decide +kernel

theorem wit_hostRing_checks : opDefined 0x0100 = false ∧ nsAllowed 0x0104 = false ∧ lenGood 0x0101 [1] = false ∧
    (opDefined 0x0101 = true ∧ nsAllowed 0x0101 = true ∧ lenGood 0x0101 [] = true ∧ badParam 0x0101 [] = none) ∧
    (lenGood 0x0105 (bytesLE 8 14) = true ∧ (badParam 0x0105 (bytesLE 8 14)).isSome = true) ∧
    (outstanding (srv (hc 0x0101 [] false false) |>.chan 0)).contains 7 = true ∧
    (let s := served.modChan 0 (fun x => { x with cmds := (List.range 8).map (fun t =>
       { hc 0x0101 [] false false with tag := BitVec.ofNat 16 (t + 20) }) })
     (outstanding (s.chan 0)).contains 7 = false ∧ 8 ≤ (outstanding (s.chan 0)).length) := by decide +kernel

theorem wit_hostRing_abort : let m := hc 0x0202 (List.replicate 20 0)
    let s := h2b 0x0102 9 2 (List.replicate 10 0 ++ [7])
    (let t := s (srv (m false false))
     serviceRuns t 0 = true ∧ t.bit (Reg.DB.BB.BITS 0) 0 = true ∧ fieldLE (t.bytes 0x10000 1024) 0 2 = 0x0102 ∧
     (t.chan 0).cmds.find? (fun x => x.tag == 7) = some (m false false) ∧ isCommitted (m false false) = false) ∧
    (let t := s (srv (m true true))
     (t.chan 0).cmds.find? (fun x => x.tag == 7) = some (m true true) ∧ isCommitted (m true true) = true) ∧
    (let t := s served
     (t.chan 0).cmds.find? (fun x => x.tag == 7) = none ∧ (t.chan 0).replies.any (fun r => r.tag == 7) = false ∧
     abortedBy (t.chan 0) 7 = none) ∧
    (let a : HostCmd := { m true true with tag := 3, aborters := [⟨7, false, false⟩] }
     let t := s (srv a)
     (t.chan 0).cmds.find? (fun x => x.tag == 7) = none ∧ abortedBy (t.chan 0) 7 = some a) ∧
    (let r : Reply := ⟨packet 0x0101 7 0x8000 0 0 [], 7⟩
     let t := s (served.modChan 0 (fun x => { x with due := [.event 0x0181 4, .reply r] }))
     (t.chan 0).cmds.find? (fun x => x.tag == 7) = none ∧ abortedBy (t.chan 0) 7 = none ∧
     (t.chan 0).due = [.event 0x0181 4] ++ .reply r :: [] ∧ r.tag = 7) := by decide +kernel

/-- COUNTERS with CLEAR on a non-secure channel in service. -/
theorem wit_hostRing_clears : let s : State :=
      { puts [(Reg.MB.STAT.READY 2, 1), (Reg.DB.BB.BITS 2, 1), (Reg.FLT.RUN.ENG, 3)] live with
        mem := memSetAll State.reset.mem 0x18000 (bytesLE 2 0x0A01 ++ bytesLE 2 7 ++ bytesLE 2 3 ++ List.replicate 10 0 ++ [0, 0, 1]) }
    let b := s.bytes (0x10000 + 0x4000 * 2) 1024
    serviceRuns s 2 = true ∧ s.bit (Reg.DB.BB.BITS 2) 0 = true ∧ fieldLE b 0 2 = 0x0A01 ∧ fieldLE b 4 2 = 3 ∧
    fieldLE ((b.drop 16).take 3) 2 1 = 1 ∧ opDefined 0x0A01 = true ∧ nsAllowed 0x0A01 = true := by decide +kernel

theorem wit_hostRing_crossing : let full := puts [(Reg.DB.BB.BITS 0, 1), (Reg.DB.HB.BITS 0, 2)] served
    let s := full.modChan 0 (fun x => { x with crossUs := some 5 })
    s.bit (Reg.DB.BB.BITS 0) 0 = true ∧ s.bit (Reg.DB.HB.BITS 0) 1 = true ∧ (s.chan 0).crossUs = some 5 ∧
    (s.chan 0).crossed = false ∧ serviceRuns s 0 = true ∧ (live.chan 0).crossUs = none := by decide +kernel

theorem wit_hostRing_post : let r : Reply := ⟨packet 0x0101 7 0x8000 0 0 [], 7⟩
    let due (l : List Post) (mask : BitVec 16) (lost : Nat) : State :=
      served.modChan 0 (fun x => { x with due := l, mask := mask, lost := lost })
    served.bit (Reg.DB.HB.BITS 0) 1 = false ∧ served.bit (Reg.DB.BB.BITS 0) 0 = false ∧ serviceRuns served 0 = true ∧
    (∀ k : Fin 4, serviceRuns live k = false) ∧
    -- a reply behind an event of a group that is off, and nothing but such an event
    (let g := gatherEvents (due [.event 0x0181 4, .reply r] 0 0)
     (g.chan 0).due = [.event 0x0181 4] ++ .reply r :: [] ∧ (g.chan 0).mask.getLsbD (0x0181 / 256) = false) ∧
    ((gatherEvents (due [.event 0x0181 4] 0 0)).chan 0).due = [.event 0x0181 4] ∧
    -- an event of a group that is on, with and without events lost
    (let g := gatherEvents (due [.event 0x0881 4] 0x102 3)
     (g.chan 0).due = [] ++ .event 0x0881 4 :: [] ∧ (g.chan 0).mask.getLsbD (0x0881 / 256) = true ∧ (g.chan 0).lost ≠ 0 ∧
     (g.chan 0).mask.getLsbD 1 = true) ∧
    ((gatherEvents (due [.event 0x0881 4] 0x100 0)).chan 0).lost = 0 := by decide +kernel
theorem wit_hostRing_counters : (counterUnits.any (fun x => ((counters x.1 x.2).getD []).any (fun f => regUp served f.addr))) = true := by
  decide +kernel
theorem wit_hostRing_lines : (puts [(Reg.DB.HB.BITS 3, 4), (Reg.DB.HMASK.MASK 3, 4), (Reg.DB.HLINE.LINE 3, 4)] served).hirq 7 = true ∧
    served.hirq 7 = false := by decide +kernel

/-- A second command with a tag that is outstanding is refused (R350). -/
theorem run_sameTag : ((after (exec (.commandConsume 0) (h2b 0x0101 7 0 [] (srv (hc 0x0101 [] false false))))).chan 0).replies =
    [⟨packet 0x0101 7 0x8000 0x0108 0 [], 7⟩] := by decide +kernel

theorem served_runs : serviceRuns served 0 = true := by decide +kernel

/-- Where channel 0 is in service and its one command has not begun, the firmware can begin it. -/
theorem at_host (m : HostCmd) (s : State) (h : serviceRuns s 0 = true) (hq : s.chans = State.reset.chans) :
    AtHost (s.modChan 0 (fun x => { x with cmds := [m] })) 0 m.tag m.op m := by
  have hc : ∀ k : Fin 4, ((s.modChan 0 (fun x => { x with cmds := [m] })).chan k).cmds = if k = 0 then [m] else [] := by
    unfold State.modChan State.chan
    intro k; rw [hq]; match k with
    | 0 | 1 | 2 | 3 => rfl
  refine ⟨h, by rw [hc]; simp, ?_⟩
  by_cases hs : m.started = true
  · exact .inl hs
  · refine .inr ?_
    have hf : m.started = false := by simpa using hs
    unfold mayStart
    cases cmdTarget m <;> simp only [hc, show List.finRange 4 = [0, 1, 2, 3] from rfl] <;> simp [hf]

theorem puts_chans (l : List (Fld × Nat)) (s : State) : (puts l s).chans = s.chans := by
  unfold puts
  induction l generalizing s with
  | nil => rfl
  | cons x l ih => rw [List.foldl_cons, ih]; rfl

/-- Channel 0 in service with a command, other registers set. -/
def host (l : List (Fld × Nat)) (m : HostCmd) : State := (puts l served).modChan 0 (fun x => { x with cmds := [m] })

theorem at_puts (l : List (Fld × Nat)) (m : HostCmd) (h : serviceRuns (puts l served) 0 = true) : AtHost (host l m) 0 m.tag m.op m :=
  at_host m _ h (by rw [puts_chans]; unfold served; rw [puts_chans]; rfl)

theorem wit_host_none (op : BitVec 16) (m : HostCmd) : ¬ AtHost served 0 7 op m := by
  rintro ⟨-, h, -⟩
  simp [show (served.chan 0).cmds = [] from by decide +kernel] at h

/-- Cluster 0 is off and holds port 0 and engine 2. -/
theorem wit_host_off : serviceRuns (puts [(Reg.PWR.STAT.CL0, 4)] served) 0 = true ∧
    (puts [(Reg.PWR.STAT.CL0, 4)] served).up 1 = false ∧ (puts [(Reg.PWR.STAT.CL0, 4)] served).cluUp 0 = false ∧
    served.up 1 = true ∧ served.cluUp (cluOf 0) = true := by decide +kernel

theorem wit_host_reset : (let m := hc 0x0104 [1, 0] false false
    let s := host [] m
    s.up (m.par 1 1 + 1) = true ∧ s.resetDue = none ∧ ({ s with resetDue := some (0, 1, 0, true, 0) } : State).resetDue.isSome = true) ∧
    engDom 2 = 1 ∧ live.on Reg.DBG.LOCK.ERASING = false ∧ live.resetDue ≠ some (0, 1, 0, true, 0) := by decide +kernel

theorem wit_host_engines : (let m := hc 0x0105 (bytesLE 2 2 ++ bytesLE 6 0x1000) false false
    let s := host [] m
    m.par 0 1 = 2 ∧ s.up (engDom 2) = true ∧ s.bit Reg.FLT.RUN.ENG 2 = false ∧ onLoan s 2 = false ∧
    (host [(Reg.FLT.RUN.ENG, 7)] m).bit Reg.FLT.RUN.ENG 2 = true ∧
    onLoan (host [(Reg.MEMT.STAT.LOAN, 1), (Reg.MEMT.STAT.LENG, 2)] m) 2 = true) ∧
    servingEngine served 0 = 0 ∧ engDom 0 = 0 ∧ served.up 0 = true := by decide +kernel

theorem wit_host_imgwrite : let m := hc 0x0202 (bytesLE 8 0 ++ bytesLE 4 64 ++ bytesLE 8 0x40) false false
    let s := host [] m
    ((fwSource s 0x40 64 [] false).2 = false ∧ isExternal 0x40 = true ∧ (fwSource s 0x40 64 [] true).2 = true) ∧
    m.par 12 8 = 0x40 ∧ m.par 8 4 = 64 ∧ m.started = false ∧ (hc 0x0202 [] true true).committed = true := by decide +kernel

theorem wit_host_imgverify : imageLength image = 176 ∧ lengthGood (imageLength image) = true ∧
    (let big : List Byte := List.replicate 16 0 ++ bytesLE 4 65544
     lengthGood (imageLength big) = true ∧ 65536 < imageLength big) ∧
    (let s := host [] (hc 0x0203 [0] true false)
     s.hasRequest cryPermitReq = false ∧ s.holds cryPermitReq = false ∧
     ({ s with permit := ⟨[(cryPermitReq, 16)], [], []⟩ } : State).holds cryPermitReq = true ∧
     ({ s with permit := ⟨[(cryPermitReq, 16)], [], []⟩ } : State).hasRequest cryPermitReq = true) ∧
    1 < (hc 0x0203 [0, 1] true false).params.length ∧ ¬ 1 < (hc 0x0203 [0] true false).params.length := by decide +kernel

theorem wit_host_ports : (let m := hc 0x0301 [0, 1] false false
    let s := host [] m
    m.par 0 1 < 8 ∧ m.par 1 1 < 2 ∧ s.get (Reg.PX.CTRL.EN 0) < 2 ∧ s.get (Reg.PX.STAT.ENACT 0) ≠ m.par 1 1 ∧
    (host [(Reg.PX.STAT.ENACT 0, 1)] m).get (Reg.PX.STAT.ENACT 0) = m.par 1 1) ∧
    (let m := hc 0x0302 [0, 4, 2, 1, 2] false false
     let s := host [] m
     m.port = 0 ∧ s.on (Reg.PX.STAT.ENACT 0) = false ∧ 4 ≤ m.par 1 1 ∧ m.par 1 1 ≤ 128 ∧ m.par 2 1 ≤ 2 ∧ m.par 3 1 ≤ 1 ∧ m.par 4 1 ≤ 2) := by
  decide +kernel

theorem wit_host_stores : (let m := hc 0x0401 (bytesLE 4 0 ++ bytesLE 4 0x400000) false false
    let s := host [] m
    m.port = 0 ∧ s.on (Reg.WSQ.CSLD.STAT.BUSY 0) = false ∧ (s.port 0).csld = none ∧ s.on (Reg.WSQ.STAT.RUNACT 0) = false ∧
    (host [(Reg.WSQ.STAT.RUNACT 0, 1)] m).on (Reg.WSQ.STAT.RUNACT 0) = true ∧
    (host [(Reg.WSQ.CSLD.STAT.BUSY 0, 1)] m).on (Reg.WSQ.CSLD.STAT.BUSY 0) = true) ∧
    (let m := hc 0x0402 (bytesLE 2 0x100 ++ bytesLE 2 1022 ++ bytesLE 4 2 ++ bytesLE 4 5 ++ bytesLE 4 6) false false
     let s := host [] m
     m.par 0 1 = 0 ∧ m.par 1 1 = 1 ∧ s.get (Reg.WSQ.STAT.WPBANKACT 0) ≠ 1 ∧ m.par 2 2 + m.par 4 2 ≤ 1024 ∧
     (host [(Reg.WSQ.STAT.WPBANKACT 0, 1)] m).get (Reg.WSQ.STAT.WPBANKACT 0) = 1) := by decide +kernel

theorem wit_host_time : (let m := hc 0x0502 (bytesLE 2 0 ++ bytesLE 6 5 ++ bytesLE 6 (999999999 * 2 ^ 18)) false false
    let v := (live.put48 (Reg.TU.D.SETS_L.SEC m.dom) (Reg.TU.D.SETS_H.SEC m.dom) (BitVec.ofNat 48 (m.par 2 6))).put48
        (Reg.TU.D.SETL_L.LO m.dom) (Reg.TU.D.SETL_H.LO m.dom) (BitVec.ofNat 48 (m.par 8 6))
    (stagedTime v m.dom).isSome = true) ∧
    (let m := hc 0x0502 (bytesLE 2 0 ++ bytesLE 6 5 ++ bytesLE 6 (1000000000 * 2 ^ 18)) false false
     let v := (live.put48 (Reg.TU.D.SETS_L.SEC m.dom) (Reg.TU.D.SETS_H.SEC m.dom) (BitVec.ofNat 48 (m.par 2 6))).put48
        (Reg.TU.D.SETL_L.LO m.dom) (Reg.TU.D.SETL_H.LO m.dom) (BitVec.ofNat 48 (m.par 8 6))
     stagedTime v m.dom = none) ∧
    (hc 0x0503 (bytesLE 8 0 ++ bytesLE 6 0) false false).par 8 6 = 0 ∧ (hc 0x0503 (bytesLE 8 0 ++ bytesLE 6 1) false false).par 8 6 ≠ 0 := by
  decide +kernel

theorem wit_host_rings : (hc 0x0601 [0, 1] false false).par 0 1 < 4 ∧ served.get (Reg.TIL.RING.CTRL.EN 0) < 2 ∧
    served.get (Reg.TIL.RING.CTRL.MCAP 0) < 2 ∧ (hc 0x0601 [0, 4] false false).par 1 1 = 4 ∧
    (let m := hc 0x0603 (bytesLE 2 510 ++ bytesLE 2 2 ++ bytesLE 8 0) false false
     m.par 0 2 + m.par 2 2 ≤ 512 ∧ m.par 0 2 ≤ 510 ∧ 510 < m.par 0 2 + m.par 2 2 ∧ ¬ m.par 0 2 ≤ 509) := by decide +kernel

theorem wit_host_twin : (let s := puts [(Reg.TWN.STAT.STATE, 4), (Reg.TWN.CTRL.LEVEL, 1)] served
    serviceRuns s 0 = true ∧ twinState s = 4 ∧ s.get Reg.TWN.CTRL.LEVEL ≠ 0 ∧
    ({ s with twin := { s.twin with ordered := true } } : State).twin.ordered = true) ∧
    (let s := puts [(Reg.TWN.STAT.STATE, 6)] served
     serviceRuns s 0 = true ∧ twinState s = 6 ∧ s.twin.ordered = false ∧ s.twin.handover.isSome = false) ∧
    twinState (puts [(Reg.TWN.STAT.STATE, 2)] served) = 2 ∧
    (let m := hc 0x0704 [2, 15] false false
     m.par 0 1 ≤ 2 ∧ m.par 1 1 < 16) := by decide +kernel

theorem wit_host_memory : (hc 0x0801 [2, 255] false false).par 0 1 ≤ 2 ∧
    (let m := hc 0x0803 [13, 2] false false
     m.par 0 1 < 14 ∧ m.par 1 1 ≤ 2 ∧ served.get (Reg.SP.OWNER.OWNER 13) ≠ 3 ∧ served.on (Reg.SP.OWNER.PEND 13) = false ∧
     (puts [(Reg.SP.OWNER.PEND 13, 1)] served).on (Reg.SP.OWNER.PEND 13) = true) := by decide +kernel

theorem wit_host_mode : (let m := hc 0x0901 [1, 1] false false
    let u := begun (host [] m) 0 7
    m.par 0 1 = 2 ^ 0 ∧ m.par 1 1 = 1 ∧ refusesMode (host [] m) 0 1 = false ∧
    (powerRequest true 0 1 ((u.put Reg.PWR.REQ.DOM 0).put Reg.PWR.REQ.MODE 1)).on Reg.PWR.STAT.BUSY = false) ∧
    (let m := hc 0x0901 [1, 3] false false
     refusesMode (host [] m) 0 3 = true ∧
     refusesMode (host [(Reg.PWR.STAT.CL0, 4), (Reg.PWR.STAT.CL1, 4), (Reg.PWR.STAT.CL2, 4), (Reg.PWR.STAT.CL3, 4)] m) 0 3 = false) ∧
    (let m := hc 0x0901 [2, 4] false false
     let u := begun (host [] m) 0 7
     m.par 0 1 = 2 ^ 1 ∧ refusesMode (host [] m) 1 4 = false ∧
     (powerRequest true 1 4 ((u.put Reg.PWR.REQ.DOM 1).put Reg.PWR.REQ.MODE 4)).on Reg.PWR.STAT.BUSY = true) ∧
    (let m := hc 0x0901 [2, 4, 17] true false
     let s := host [(Reg.PWR.STAT.BUSY, 1)] m
     (m.params.drop 2).map (·.toNat) = [1 + 16] ∧ (powerProceed (begun s 0 7)).on Reg.PWR.STAT.BUSY = true ∧
     (powerProceed (begun (host [] m) 0 7)).on Reg.PWR.STAT.BUSY = false) := by decide +kernel

theorem wit_host_grist : ((hc 0x0902 (bytesLE 4 0 ++ bytesLE 4 1) false false).par 0 1 = 0 ∧
     (hc 0x0902 (bytesLE 4 0 ++ bytesLE 4 1) false false).par 4 4 < 2) ∧
    (hc 0x0902 (bytesLE 4 1 ++ bytesLE 4 255) false false).par 4 4 < 256 ∧ (hc 0x0902 (bytesLE 4 2 ++ bytesLE 4 2) false false).par 4 4 ≤ 2 ∧
    (hc 0x0902 (bytesLE 4 3 ++ bytesLE 4 0x3FFF) false false).par 4 4 < 2 ^ 14 ∧
    (hc 0x0902 (bytesLE 4 4 ++ bytesLE 4 0xFF02) false false).par 4 4 % 256 ≤ 2 ∧
    1000 ≤ (hc 0x0902 (bytesLE 4 5 ++ bytesLE 4 1000) false false).par 4 4 ∧
    (hc 0x0902 (bytesLE 4 5 ++ bytesLE 4 1500) false false).par 4 4 ≤ 1500 ∧
    (puts [(Reg.TU.CTRL.CALEN, 1)] served).on Reg.TU.CTRL.CALEN = true ∧
    (served.up 1 && served.up 2 && served.up 3 && served.up 4) = true ∧
    ((fun s : State => s.up 1 && s.up 2 && s.up 3 && s.up 4) (puts [(Reg.PWR.STAT.CL0, 4)] served)) = false := by decide +kernel

theorem wit_host_counters : served.up (counterDom 0 0) = true ∧ (puts [(Reg.PWR.STAT.CL0, 4)] served).up (counterDom 0 0) = false ∧
    (hc 0x0A01 [0, 0, 1, 0] false false).par 2 1 = 1 := by decide +kernel

/-- A DMA channel 1 at work on a chunk: 600 bytes from external memory to the granary. -/
def dmaAt (l : List (Fld × Nat)) (x : DmaSt) : State := (puts ((Reg.DMA.CH.STAT.BUSY 1, 1) :: l) live).modDma 1 (fun _ => x)
def chunk : DmaSt :=
  { fetch := false, src := 0xF80, dst := blockSpace + 0x1000000, left := 600, notify := false, last := true, next := 0,
    heavy := false, abort := false, phase := 0 }

theorem wit_dma_go : let go := puts [(Reg.DMA.CH.LEN.LEN 1, 600), (Reg.DMA.CH.DST_L.ADDR 1, (blockSpace + 0x1000000) % 2 ^ 32),
      (Reg.DMA.CH.DST_H.ADDR 1, (blockSpace + 0x1000000) / 2 ^ 32)] live
    go.on (Reg.DMA.CH.STAT.BUSY 1) = false ∧ go.on (Reg.DMA.CH.CTRL.CHAIN 1) = false ∧
    dmaCheck go 0 (blockSpace + 0x1000000) 600 = 0 ∧ dmaCheck go 0 (blockSpace + 0x1000) 600 = 4 ∧
    (puts [(Reg.DMA.CH.CTRL.CHAIN 1, 1)] live).on (Reg.DMA.CH.CTRL.CHAIN 1) = true ∧
    (dmaAt [] chunk).on (Reg.DMA.CH.STAT.BUSY 1) = true ∧ live.get (Reg.DMA.CH.LEN.LEN 1) = 0 := by decide +kernel

/-- The master port has credits. -/
def fed (s : State) : State := { s with credits := { s.credits with cmd := 64, wd := 64 } }

theorem wit_dma_descriptor : let s := dmaAt [] { chunk with fetch := true }
    let b := bytesLE 8 0 ++ bytesLE 8 (blockSpace + 0x1000000) ++ bytesLE 3 600 ++ bytesLE 1 3 ++ bytesLE 4 0 ++ bytesLE 8 0x40
    dmaRuns s 1 = true ∧ (s.dmaCh 1).fetch = true ∧ (s.dmaCh 1).abort = false ∧ dmaReach s 0 32 = 0 ∧
    dmaReach s (blockSpace + 0x1000) 32 ≠ 0 ∧ (dmaRead 0 32 b true s).1 = none ∧ (dmaRead 0 32 b false s).1 = some b ∧
    (dmaAsks 1 0 32 (fed s)).1 = true ∧ (dmaAsks 1 0 32 s).1 = false ∧
    descBad b = false ∧ descBad (b.set 29 1) = true ∧ dmaCheck s (fieldLE b 0 5) (fieldLE b 8 5) (fieldLE b 16 3) = 0 ∧
    dmaCheck s (blockSpace + 0x1000) 0 600 ≠ 0 ∧ ((dmaAt [] { chunk with fetch := true, abort := true }).dmaCh 1).abort = true := by
  decide +kernel

theorem wit_dma_chunk : let s := dmaAt [] chunk
    dmaRuns s 1 = true ∧ (s.dmaCh 1).fetch = false ∧ dmaCheck s chunk.src chunk.dst chunk.left = 0 ∧
    (dmaRead chunk.src 128 [] true s).1 = none ∧ (dmaRead chunk.src 128 [] false s).1 = some (List.replicate 128 0) ∧
    (windowWrite 15 (chunk.dst - blockSpace) (List.replicate 128 0) s).1 = stOkay ∧ isExternal chunk.dst = false ∧
    min 600 (min 256 (min (4096 - chunk.src % 4096) (4096 - chunk.dst % 4096))) = 128 ∧ 128 < chunk.left ∧
    dmaCheck s (blockSpace + 0x1000) chunk.dst chunk.left ≠ 0 ∧ dmaRuns live 1 = false ∧ dmaTurn s 1 = true ∧ dmaTurn live 1 = false := by decide +kernel

/-- A chunk that goes to external memory, with credits and without; a chunk whose read or whose writes wait; a write that the
granary refuses. -/
theorem wit_dma_external : let x := { chunk with src := blockSpace + 0x1000000, dst := 0x40 }
    let s := dmaAt [] x
    isExternal x.dst = true ∧ (dmaRead x.src 256 [] false s).1 = some (List.replicate 256 0) ∧
    (sendWrites 15 false x.dst (List.replicate 256 0) (fed s)).unsent 15 true = false ∧
    (sendWrites 15 false x.dst (List.replicate 256 0) s).unsent 15 true = true ∧
    dmaTurn (dmaAt [] { x with phase := 2 }) 1 = true ∧ dmaTurn (dmaAt [] { x with phase := 1 }) 1 = true ∧
    (dmaAt [] { x with phase := 2 }).unsent 15 true = false ∧
    (sendWrites 15 false x.dst [1] (dmaAt [] { x with phase := 2 })).unsent 15 true = true := by decide +kernel

theorem wit_dma_refused : let s := { dmaAt [] chunk with ecc := [(0x1000000 / 8, true)] }
    (windowWrite 15 0x1000000 [1] s).1 ≠ stOkay := by decide +kernel

/-- A channel that waits for its permit, and two channels that take turns. -/
theorem wit_dma_turn : let s := dmaAt [] { chunk with heavy := true }
    let two := ((dmaAt [(Reg.DMA.CH.STAT.BUSY 2, 1)] chunk).modDma 2 (fun _ => chunk))
    (s.dmaCh 1).heavy = true ∧ s.dmaPermit = none ∧ s.holds 11 = false ∧ s.on (Reg.DMA.CH.STAT.BUSY 1) = true ∧
    dmaTurn two 1 = true ∧ dmaTurn two 2 = false ∧ dmaTurn { two with dmaLast := 1 } 2 = true := by decide +kernel

/-- A crypto job under way. -/
def cryAt (op : Nat) (l : List (Fld × Nat)) : State := puts ((Reg.CRY.STAT.BUSY, 1) :: (Reg.CRY.CTRL.OP, op) :: l) live

theorem wit_crypto : (∀ op < 5, cryRuns (cryAt op []) (fun k => k == op) = true) ∧ cryRuns live (fun _ => true) = false ∧
    cryRuns (cryAt 7 []) (fun op => decide (5 ≤ op)) = true ∧ slotKey (cryAt 1 []) = none ∧ aesKey (cryAt 3 []) = none ∧
    (slotKey (cryAt 1 [(Reg.CRY.KEYCFG.VALID 0, 1)])).isSome = true ∧ (aesKey (cryAt 3 [(Reg.CRY.KEYCFG.VALID 0, 1)])).isSome = true ∧
    (cryRead 0 3 [1, 2, 3] false (cryAt 0 [])).1 = some [1, 2, 3] ∧ (cryRead 0 3 [1, 2, 3] true (cryAt 0 [])).1 = none ∧
    (cryWrite 0 [1] false (cryAt 3 [])).1 = true ∧ (cryWrite 0 [1] true (cryAt 3 [])).1 = false ∧
    (askBulk 9 20 0 3 (fed (cryAt 0 []))).1 = true ∧ (askBulk 9 20 0 3 (cryAt 0 [])).1 = false ∧ (cryAt 3 []).bulk.contains 9 = false ∧
    (askBulk 8 20 0 3 (fed (cryAt 3 []))).1 = true ∧ (askBulk 8 20 0 3 (cryAt 3 [])).1 = false ∧ (cryAt 3 []).cryStop = false := by decide +kernel

theorem wit_crypto_end : let s := cryAt 0 [(Reg.CRY.CTRL.NOTE, 1), (Reg.CRY.CTRL.NENG, 3), (Reg.CRY.CTRL.NBIT, 31)]
    s.on Reg.CRY.STAT.BUSY = true ∧ s.cry = none ∧ ({ s with cry := some 0 } : State).cry = some 0 ∧
    s.get Reg.CRY.CTRL.NOTE = 1 ∧ s.get Reg.CRY.CTRL.NENG = 3 ∧ s.get Reg.CRY.CTRL.NBIT < 32 ∧
    live.on Reg.CRY.STAT.BUSY = false ∧ live.get Reg.CRY.CTRL.NOTE ≠ 1 ∧ s.unsent 20 true = false ∧ cryWaits s = false ∧
    (sendWrites 20 true 0 [1] s).unsent 20 true = true ∧ cryWaits (s.raise Reg.CRY.STAT.PERMIT) = true := by decide +kernel

theorem wit_bitLines : let s := puts [(Reg.BL.CTRL.EN 2, 1)] live
    let t := s.modLine 2 (fun x => { x with tx := [0x55] })
    s.on (Reg.BL.CTRL.EN 2) = true ∧ live.on (Reg.BL.CTRL.EN 2) = false ∧ (s.line 2).tx = [] ∧ (s.line 2).rx = [] ∧ (s.line 2).start = none ∧
    (t.line 2).tx ≠ [] ∧ (t.line 2).start = none ∧ 64 ≤ ((s.modLine 2 (fun x => { x with tx := List.replicate 64 0 })).line 2).tx.length ∧
    (puts [(Reg.BL.STAT.TXBUSY 2, 1)] t).on (Reg.BL.STAT.TXBUSY 2) = true ∧
    s.cluUp (lineClu 2) = true ∧ (puts [(Reg.PWR.STAT.CL1, 4)] s).cluUp (lineClu 2) = false ∧
    64 ≤ ((s.modLine 2 (fun x => { x with rx := List.replicate 64 0 })).line 2).rx.length ∧ isBitstream s 2 = false ∧
    (puts [(Reg.BL.CTRL.MODE 2, 2), (Reg.BL.CTRL.RXSTUFF 2, 1)] s).on (Reg.BL.CTRL.RXSTUFF 2) = true ∧
    (s.get (Reg.BL.CTRL.MODE 2) = 0 ∧ s.on (Reg.BL.CTRL.ECHO 2) = false) := by decide +kernel

/-- A BITSTREAM line that sends a group of four bits with arbitration. -/
def bitLine : State := (puts [(Reg.BL.STAT.TXBUSY 2, 1), (Reg.BL.CTRL.MODE 2, 2), (Reg.BL.CTRL.EN 2, 1), (Reg.BL.CTRL.RXSTUFF 2, 1)] live).modLine 2
  (fun x => { x with tx := [0x4030005] })

theorem wit_bitstream : isBitstream bitLine 2 = true ∧ bitLine.on (Reg.BL.STAT.TXBUSY 2) = true ∧
    bitLine.on (Reg.BL.CTRL.RXSTUFF 2) = true ∧ (bitLine.line 2).run = 0 ∧ (bitLine.line 2).shift = [] ∧
    bitLine.cluUp (lineClu 2) = true ∧ (let y := (bitLine.line 2); (y.level = false ∨ true = true) ∧ y.pos = 0 ∧ y.sampled = false) := by decide +kernel

theorem wit_wave : (groupWave 3 3 [0x4030005] false 0).map (·.level) = [false, true, false, true] ∧
    (groupWave 3 3 [0x4030005] false 0).all (·.arb) = true := by decide +kernel

/-- After five equal bits, their complement goes in (R425). -/
theorem run_stuff : (stuffBits [true, true, true, true, true, true] false 0).1 = [true, true, true, true, true, false, true] := by decide +kernel

/-- Five equal bits have been received: the next is removed if it differs (R425). -/
theorem run_unstuff : let s := bitLine.modLine 2 (fun x => { x with last := true, run := 5 })
    ((receiveBit 2 s false).line 2).shift = [] ∧ ((receiveBit 2 s true).line 2).shift = [true] := by decide +kernel

/-- 16 characters of 8 data bits at 100 ns with LEAD 1 and LAG 2 take 16.3 us (R426). -/
theorem run_occupancy :
    occupancy ((puts [(Reg.BL.RATE.DIV 2, 19), (Reg.BL.FMT.BITS 2, 8), (Reg.BL.DE.LEAD 2, 1), (Reg.BL.DE.LAG 2, 2)] live).modLine 2
      (fun x => { x with tx := List.replicate 16 0x55 })) 2 = 16300000 := by decide +kernel

theorem wit_timedStart : let s := (puts [(Reg.BL.CTRL.EN 2, 1)] live).modLine 2 (fun x => { x with tx := [0x55], start := some 0 })
    let late := puts [(Reg.TTW.CTRL.EN (lineClu 2) (lineNo 2), 1)] s
    (s.line 2).start = some 0 ∧ startDue (s.dom (Fin.ofNat 4 (s.get (Reg.TTW.CTRL.DOM (lineClu 2) (lineNo 2))))).lo 0 = true ∧
    s.on (Reg.BL.STAT.TXBUSY 2) = false ∧ (s.line 2).tx ≠ [] ∧
    windowCheck s (lineClu 2) (lineNo 2) (fun d => (d.ps : Int)) (occupancy s 2) = .ok ∧
    windowCheck late (lineClu 2) (lineNo 2) (fun d => (d.ps : Int)) (occupancy late 2) ≠ .ok ∧
    startDue (s.dom 0).lo (BitVec.ofNat 48 (2 ^ 18)) = false := by decide +kernel

/-- A key slot that is not valid ends the job with RESULT 4 (R385). -/
theorem run_noKey : (after (exec (.cryHmac [] false) (cryAt 1 []))).cry = some 4 := by decide +kernel

theorem wit_powerModes_requests : let down := puts [(Reg.PWR.STAT.CL0, 4)] live
    live.on Reg.PWR.STAT.BUSY = false ∧ live.mode 0 = 0 ∧ live.mode 1 = 0 ∧ live.up 0 = true ∧ live.up 1 = true ∧ live.cluUp 0 = true ∧
    (puts [(Reg.PWR.STAT.BUSY, 1)] live).on Reg.PWR.STAT.BUSY = true ∧
    down.mode 1 = 4 ∧ down.up 1 = false ∧ down.on Reg.PWR.STAT.BUSY = false ∧
    live.power.pch = none ∧ live.power.ack = false ∧ live.power.wait = none ∧ live.power.wakes = [] ∧ live.power.timer = false ∧
    (0 : Port) ∈ domPorts 1 ∧ (puts [(Reg.PX.STAT.ENACT 0, 1)] live).on (Reg.PX.STAT.ENACT 0) = true := by decide +kernel

theorem wit_powerModes_handshake : let shake (h : PchSt) (a : Bool) (s : State) : State :=
      { s with power := { s.power with pch := some h, ack := a } }
    (let s := shake ⟨1, 4, false, true⟩ false live
     s.power.wait = none ∧ s.power.pch = some ⟨1, 4, false, true⟩ ∧ s.power.ack = false ∧ s.power.wakes = []) ∧
    (let s := shake ⟨1, 0, true, true⟩ false (puts [(Reg.PWR.STAT.CL0, 2)] live)
     s.mode 1 = 2 ∧ s.power.ack = false) ∧
    (puts [(Reg.PWR.STAT.CL0, 4)] live).mode 1 ≠ 2 ∧
    (let s := shake ⟨0, 0, true, true⟩ false (puts [(Reg.PWR.STAT.MGMT, 3)] live)
     s.mode 0 = 3 ∧ s.on Reg.DBG.LOCK.ERASING = false) ∧
    (let s := shake ⟨1, 4, false, false⟩ true live
     s.power.pch = some ⟨1, 4, false, false⟩ ∧ s.power.ack = true ∧ s.power.wait = none) ∧
    ({ live with power := { live.power with timer := true } } : State).power.timer = true := by decide +kernel
theorem wit_powerModes_wait : let s : State := { live with power := { live.power with wait := some (0, 3) } }
    s.power.pch = none ∧ s.power.ack = false ∧ s.power.wakes = [] ∧ s.up 0 = true ∧ s.power.wait = some (0, 3) ∧
    (∀ k ∈ [⟨2, 0, true, true⟩], let t : State := { puts [(Reg.PWR.STAT.CL0, 4), (Reg.PWR.STAT.CL1, 4)] live with
       power := { live.power with pch := some k } }
     t.power.pch = some k ∧ k.wake = true ∧ k.dom ≠ 0) ∧
    (let t : State := { puts [(Reg.PWR.STAT.MGMT, 3)] live with
       power := { live.power with pch := some ⟨1, 4, false, false⟩, ack := true, wakes := [0, 1] } }
     t.up 0 = false ∧ t.power.wakes.head? = some 0) := by decide +kernel

/-- A request for the mode in force completes at once; the management domain cannot sleep while a cluster runs (R396). -/
theorem run_powerRequest : (after (exec (.powerRequest 1 0) live)).get Reg.PWR.EVT.DONE = 1 ∧
    (after (exec (.powerRequest 0 3) live)).get Reg.PWR.EVT.REFUSED = 1 := by decide +kernel

theorem wit_sleepDepth : let s := (setMode 0 2 live).modPower (fun x => { x with depth := [(0, 3)] })
    s.sleepDepth 0 = 3 ∧ s.up 0 = false ∧ (setMode 2 2 live).sleepDepth 2 = 2 ∧ live.sleepDepth 2 = 0 := by decide +kernel

/-- A request waits for a wake; a wake that nobody asked for; the clusters that a wake event names and that run by then. -/
theorem wit_powerModes_asked : let s : State := { puts [(Reg.PWR.STAT.CL0, 2)] live with
      power := { live.power with pch := some ⟨1, 0, true, true⟩, asked := some (1, 1), depth := [(1, 2)] } }
    s.sleepDepth 1 = 2 ∧ s.power.asked = some (1, 1) ∧ s.power.ack = false ∧ s.power.wait = none ∧ willWake s 1 = true ∧
    (∀ a, live.power.asked = some a → a.1 ≠ 1) ∧ willWake live 1 = false ∧ s.boot.inReset = false ∧
    (setMode 0 3 live).mode 0 ≠ 0 ∧ (setMode 0 3 live).sleepDepth 0 = 3 := by
  refine ⟨by decide +kernel, by decide +kernel, by decide +kernel, by decide +kernel, by decide +kernel, ?_, by decide +kernel,
    by decide +kernel, by decide +kernel, by decide +kernel⟩
  intro a h
  rw [show live.power.asked = none from by decide +kernel] at h
  cases h

theorem wit_debug_lock : let opened := puts [(Reg.DBG.LOCK.OPEN, 1)] live
    let erases := puts [(Reg.DBG.LOCK.ERASING, 1)] live
    live.on Reg.DBG.LOCK.OPEN = false ∧ live.on Reg.DBG.LOCK.ERASING = false ∧ opened.on Reg.DBG.LOCK.OPEN = true ∧
    hasPartner live = false ∧ hasPartner (puts [(Reg.TWN.STAT.STATE, 4)] live) = true ∧
    erases.on Reg.DBG.LOCK.ERASING = true ∧ (∀ d < 5, erases.sleepDepth d ≠ 2) ∧ erases.boot.queued = none ∧ live.boot.inReset = false ∧
    sbyIn (twinState live) = false ∧ live.tap.scanDue = false ∧ live.tap.scan = false ∧ (setMode 2 2 live).sleepDepth 2 = 2 ∧
    (State.reset.boot.inReset = true) ∧
    ({ erases with boot := { erases.boot with queued := some 2 } } : State).boot.queued = some 2 := by decide +kernel

theorem wit_debug_trace : (puts [(Reg.TRC.CTRL.EN, 1)] live).on Reg.TRC.CTRL.EN = true ∧ live.on Reg.TRC.CTRL.EN = false ∧
    live.trace.lost = 0 ∧ live.trace.fifo.length + 4 ≤ 1024 ∧
    ¬ ((0 < live.get Reg.TRC.CTRL.SYNCPER ∧ live.get Reg.TRC.CTRL.SYNCPER * 256 ≤ live.trace.sent) ∨ 32768 ≤ live.trace.quiet) ∧
    live.trace.now = [] ∧ 32768 ≤ ({ live with trace := { live.trace with quiet := 32768 } } : State).trace.quiet := by decide +kernel

theorem wit_debug_engines : let s := puts [(Reg.DBG.LOCK.OPEN, 1), (Reg.FLT.RUN.ENG, 6), (Reg.DBG.E.STAT.HALTED 2, 1), (Reg.DBG.HALTED.ENG, 4), (Reg.HG.CTRL.EN 1, 1)] live
    let t := s.modEng 1 (fun x => { x with haltReq := some 0 })
    s.engRuns 2 = true ∧ s.engRuns 1 = true ∧ s.halted 2 = true ∧ s.halted 1 = false ∧ s.on (Reg.HG.CTRL.EN 1) = true ∧
    s.on Reg.DBG.LOCK.OPEN = true ∧ (s.engine 2).haltReq = none ∧
    (t.engine 1).haltReq = some 0 ∧ (t.engine 1).retry = none ∧ (t.engine 1).undo = none ∧ onLoan t 1 = false ∧ t.halted 1 = false ∧
    onLoan (puts [(Reg.MEMT.STAT.LOAN, 1), (Reg.MEMT.STAT.LENG, 1)] t) 1 = true ∧ (t.engine 1).flow.xfer = none ∧
    (let r := t.modEng 1 (fun x => { x with retry := some (default, none), flow := { x.flow with xfer := some (true, 6) } })
     (r.engine 1).retry.isSome = true ∧ (r.engine 1).flow.xfer = some (true, 6)) ∧
    s.get (Reg.DBG.E.PSEL.PORT 2) < 64 ∧ (s.engine 2).moves = [] ∧ canWrite s 2 (s.get (Reg.DBG.E.PSEL.PORT 2)) = true ∧ t.pinned 1 = false ∧
    (t.modEng 1 (fun x => { x with held := some (0, some default) })).pinned 1 = true ∧
    ((1 : Fin 4) ∈ ({ s with hgDue := [1] } : State).hgDue) ∧ s.hgDue = [] ∧
    canRead (puts [(Reg.DBG.E.PSEL.PORT 2, 0x110)] s) 2 0x110 = false ∧ canWrite (puts [(Reg.DBG.E.PSEL.PORT 2, 0x110)] s) 2 0x110 = false := by
  decide +kernel

/-- A wrong key counts; the right one begins the erase (R445, R446). -/
theorem run_unlock : (after (exec (.debugUnlock 1) live)).get Reg.DBG.LOCK.BADKEY = 1 ∧
    (after (exec (.debugUnlock 0x554E4C4B) live)).get Reg.DBG.LOCK.ERASING = 1 := by decide +kernel

/-- The controller in its states; two packets of one cycle. -/
theorem wit_tap : let at' (c : TapCtl) (ir : BitVec 5) : State := tapAt c ir [true] live
    (at' .shiftDr 4).tap.ctl = .shiftDr ∧ (at' .captureDr 1).tap.ir = 1 ∧ (at' .captureDr 4).tap.ir = 4 ∧ (at' .captureDr 31).tap.ir ≠ 4 ∧
    (at' .captureIr 1).tap.ctl = .captureIr ∧ (at' .exit1Ir 1).tap.ctl = .exit1Ir ∧ (at' .exit2Dr 1).tap.ctl = .exit2Dr ∧
    ({ live with trace := { live.trace with now := [⟨15, 0, [1]⟩, ⟨3, 0, [2]⟩] } } : State).trace.now = [⟨15, 0, [1]⟩, ⟨3, 0, [2]⟩] := by
  decide +kernel

/-- The instruction register captures 0b00001, and five cycles with TMS 1 lead to Test-Logic-Reset (R448, IEEE 1149.1). -/
theorem run_tap : (tapClock false false (tapAt .captureIr 31 [] live)).tap.path = [true, false, false, false, false] ∧
    (tapClock true false (tapClock true false (tapClock true false (tapClock true false (tapClock true false
      (tapAt .shiftDr 31 [true] live)))))).tap.ir = 1 := by decide +kernel



/-- The command answers a next state. -/
def isNext (r : Res) : Bool := match r with
  | .next _ => true
  | _ => false

/-- A step from a canonical memory: a sequencer's command at the front, and the idle tick. -/
theorem wit_memoryStaysCanonical : Memory.wf (live.store 0x640000 [1, 2]).mem ∧
    (after (step { live with pending := [.permitGrant] })).pending = [] ∧ Memory.wf State.reset.mem ∧
    isNext (step { live with pending := [.permitGrant] }) = true := by decide +kernel

/-- A full call stack and a full message queue meet the invariant, and the idle step answers a next state. -/
theorem wit_queuesStayWithinDepth :
    let s := (live.modSeq 0 (fun q => { q with stk := [1, 2, 3, 4] })).modMsg 2 (fun m => { m with queue := List.replicate 8 0 })
    WithinDepth s ∧ isNext (step { s with pending := [.permitGrant] }) = true := by decide +kernel

/-- A permit granted, one queued and one set aside: the grant of the head moves it. -/
theorem wit_permitsStayDistinct : let s : State := { live with permit := ⟨[(10, 40)], [(8, 5)], [(9, 8)]⟩, pending := [.permitGrant] }
    OneEach s.permit ∧ isNext (step s) = true := by decide +kernel

end Sys2Proof.Tests
end

section
/-! PROOFS. Bits of register fields: what a write, a set, a clear and a choice of one bit make of every bit of the field (R5). -/

namespace Sys2Proof.Machine

/-- Half of a cleared number, and its lowest bit: the step of the induction on bits. -/
theorem clearBits_half (v m : Nat) : clearBits v m / 2 = clearBits (v / 2) (m / 2) ∧
    clearBits v m % 2 = v % 2 - v % 2 * (m % 2) := by
  have hle : v &&& m ≤ v := Nat.and_le_left
  have hdiv : (v &&& m) / 2 = v / 2 &&& m / 2 := Nat.and_div_two
  have hmod : (v &&& m) % 2 = v % 2 * (m % 2) := by
    have h : (v &&& m) % 2 = v % 2 &&& m % 2 := Nat.and_mod_two_pow (n := 1)
    rcases Nat.mod_two_eq_zero_or_one v with hv | hv <;> rcases Nat.mod_two_eq_zero_or_one m with hm | hm <;>
      simp [h, hv, hm]
  unfold clearBits
  rw [← hdiv]
  rcases Nat.mod_two_eq_zero_or_one v with hv | hv <;> rcases Nat.mod_two_eq_zero_or_one m with hm | hm <;>
    rw [hv, hm] at hmod ⊢ <;> omega

theorem testBit_clearBits (v m i : Nat) : (clearBits v m).testBit i = (v.testBit i && !m.testBit i) := by
  induction i generalizing v m with
  | zero =>
    simp only [Nat.testBit_zero, (clearBits_half v m).2]
    rcases Nat.mod_two_eq_zero_or_one v with hv | hv <;> rcases Nat.mod_two_eq_zero_or_one m with hm | hm <;> simp [hv, hm]
  | succ i ih => simp only [Nat.testBit_succ, (clearBits_half v m).1, ih]

/-- A field takes the bits written to it. -/
theorem State.bit_put (s : State) (f : Fld) (v i : Nat) (h : i < f.w) : (s.put f v).bit f i = v.testBit i := by
  simp [State.bit, State.get_put, Nat.testBit_mod_two_pow, h]

theorem State.bit_put_ne (s : State) (f g : Fld) (v i : Nat) (h : Fld.key g ≠ Fld.key f) :
    (s.put f v).bit g i = s.bit g i := by
  simp only [State.bit, State.get_put_ne s f g v h]

theorem State.bit_raiseBit (s : State) (f : Fld) (i j : Nat) (h : j < f.w) :
    (s.raiseBit f i).bit f j = (s.bit f j || decide (i = j)) := by
  rw [State.raiseBit, State.bit_put s f _ j h, Nat.testBit_or, Nat.testBit_two_pow]; rfl

/-- A number that has bit `i` meets the power of two in it. -/
theorem and_two_pow_of_testBit {x i : Nat} (h : x.testBit i = true) : x &&& 2 ^ i = 2 ^ i := by
  refine Nat.eq_of_testBit_eq (fun j => ?_)
  rw [Nat.testBit_and, Nat.testBit_two_pow]
  by_cases e : i = j
  · subst e; rw [h, Bool.true_and]
  · rw [decide_eq_false e, Bool.and_false]

theorem State.bit_lowerBit (s : State) (f : Fld) (i j : Nat) (h : j < f.w) :
    (s.lowerBit f i).bit f j = (s.bit f j && !decide (i = j)) := by
  unfold State.lowerBit
  split
  · rename_i hi
    have e : s.get f - 2 ^ i = clearBits (s.get f) (2 ^ i) := by
      rw [clearBits, and_two_pow_of_testBit hi]
    rw [State.bit_put s f _ j h, e, testBit_clearBits, Nat.testBit_two_pow]; rfl
  · rename_i hi
    by_cases e : i = j
    · subst e; simpa using hi
    · simp [e]

/-- Exactly bit `i` of the field takes the value `b`. -/
theorem State.bit_putBit (s : State) (f : Fld) (i j : Nat) (b : Bool) (h : j < f.w) :
    (s.putBit f i b).bit f j = if i = j then b else s.bit f j := by
  cases b
  · simp only [State.putBit, Bool.false_eq_true, if_false, State.bit_lowerBit s f i j h]
    by_cases e : i = j <;> simp [e]
  · simp only [State.putBit, if_true, State.bit_raiseBit s f i j h]
    by_cases e : i = j <;> simp [e]

/-- Clearing one bit changes register fields alone. -/
theorem State.lowerBit_cells (s : State) (f : Fld) (i : Nat) : ∃ c, s.lowerBit f i = { s with cells := c } := by
  unfold State.lowerBit
  split
  · exact ⟨_, rfl⟩
  · exact ⟨_, rfl⟩

theorem State.putBit_cells (s : State) (f : Fld) (i : Nat) (b : Bool) : ∃ c, s.putBit f i b = { s with cells := c } := by
  cases b
  · exact s.lowerBit_cells f i
  · exact ⟨_, rfl⟩

end Sys2Proof.Machine
end

section
/-! PROOFS. Calibration (R102) and PPS outputs (R110). -/

namespace Sys2Proof.Machine

open Reg

/-! ### Calibration (R102) -/

theorem calibrates_iff (s : State) : calibrates s = true ↔ s.on TU.CTRL.CALEN = true ∧ s.on TU.CTRL.FINE = true := by
  simp [calibrates]

theorem overdue_iff (s : State) (p : Fin 9) :
    overdue s p = true ↔ 4 * (max 1 (s.get TU.CTRL.CALPER)) * 4000000000 ≤ 5 * s.calib.counts[p] := by
  simp only [overdue, decide_eq_true_eq]; omega

/-- A released requester holds no permit. -/
theorem holds_dropPermit (r : Nat) (s : State) : (dropPermit r s).holds r = false := by
  simp [dropPermit, State.holds]

/-- The state in which a port has been calibrated in its turn, before a round that is over gives its permit back. -/
def calibrated (p : Fin 9) (s : State) : State :=
  { s.raiseBit TU.STAT.CALOK p with
    calib := { next := if p.val = 8 then none else some (p.val + 1), counts := s.calib.counts.set p 0 } }

theorem execPortCalibrated_turn (p : Fin 9) (s : State) (hc : calibrates s = true) (hh : s.holds 9 = true)
    (hn : s.calib.next = some p.val) :
    execPortCalibrated p s = .next (if p.val = 8 then dropPermit 9 (calibrated p s) else calibrated p s) := by
  simp only [execPortCalibrated, hc, hh, hn, calibrated, Bool.and_self, beq_self_eq_true, if_true, decide_eq_true_eq]
  rfl

theorem execPortCalibrated_idle (p : Fin 9) (s : State)
    (h : ¬ (calibrates s = true ∧ s.holds 9 = true ∧ s.calib.next = some p.val)) :
    execPortCalibrated p s = .next s := by
  have h' : (calibrates s && s.holds 9 && s.calib.next == some p.val) = false := by
    rw [← Bool.not_eq_true]; simpa [and_assoc] using h
  simp only [execPortCalibrated, h', Bool.false_eq_true, if_false]

theorem bit_calibrated (p : Fin 9) (s : State) : (calibrated p s).bit TU.STAT.CALOK p = true := by
  have h : (s.raiseBit TU.STAT.CALOK p).bit TU.STAT.CALOK p = true := by
    rw [State.bit_raiseBit s TU.STAT.CALOK p p p.isLt]; simp
  exact h

/-! ### PPS outputs (R110) -/

/-- In this cycle the domain's TIME has reached the instant at which second `sec` pulses (R110). -/
def ReachesOffs (t : TimeDom) (offs sec : Nat) : Prop :=
  offs < 1000000000 ∧ (t.ago 1).total < sec * secUnits + offs * 2 ^ 50 ∧ sec * secUnits + offs * 2 ^ 50 ≤ t.total

/-- TIME within its second, in units of 2^-50 ns, lies at or after OFFS where the nanosecond field does. -/
theorem offs_le_ns_iff (t : TimeDom) (offs : Nat) :
    offs ≤ t.ns ↔ offs * 2 ^ 50 ≤ t.lo.toNat * 2 ^ 32 + t.ext.toNat := by
  have := t.ext.isLt
  unfold TimeDom.ns
  omega

/-- With the nanosecond field in range, TIME within its second is less than a second. -/
theorem second_lt_secUnits (t : TimeDom) (h : t.ns < 1000000000) : t.lo.toNat * 2 ^ 32 + t.ext.toNat < secUnits := by
  have := t.ext.isLt
  unfold TimeDom.ns at h
  unfold secUnits
  omega

/-- The second whose instant TIME has reached, while that of the next lies ahead, is the one in which the field last stood at OFFS. -/
theorem lastOffs_eq {t : TimeDom} {offs sec : Nat} (hns : t.ns < 1000000000) (h : ReachesOffs t offs sec)
    (hnext : ¬ ReachesOffs t offs (sec + 1)) : lastOffs t offs = sec := by
  obtain ⟨hoffs, hago, hnow⟩ := h
  have hahead : t.total < (sec + 1) * secUnits + offs * 2 ^ 50 := by
    refine Nat.lt_of_not_le (fun hge => hnext ⟨hoffs, ?_, hge⟩)
    rw [Nat.add_mul]; omega
  have hlt := second_lt_secUnits t hns
  have hin := offs_le_ns_iff t offs
  unfold TimeDom.total at hnow hahead
  have hsec : sec ≤ t.hi.toNat := by
    refine Nat.le_of_not_lt (fun hgt => ?_)
    have := Nat.mul_le_mul_right secUnits (show t.hi.toNat + 1 ≤ sec by omega)
    rw [Nat.add_mul] at this
    omega
  have hhi : t.hi.toNat ≤ sec + 1 := by
    refine Nat.le_of_not_lt (fun hgt => ?_)
    have := Nat.mul_le_mul_right secUnits (show sec + 1 + 1 ≤ t.hi.toNat by omega)
    have hoffs' : offs * 2 ^ 50 ≤ secUnits := by unfold secUnits; omega
    rw [Nat.add_mul (sec + 1)] at this
    omega
  unfold lastOffs
  rcases (show t.hi.toNat = sec ∨ t.hi.toNat = sec + 1 by omega) with e | e
  · rw [e] at hnow
    rw [if_pos (hin.mpr (by omega)), e]
  · rw [e] at hahead
    rw [if_neg (fun hle => by have := hin.mp hle; omega), e]
    omega

theorem offsReached_eq {t : TimeDom} {offs sec : Nat} (hns : t.ns < 1000000000) (h : ReachesOffs t offs sec)
    (hnext : ¬ ReachesOffs t offs (sec + 1)) : offsReached t offs = some sec := by
  have hlast := lastOffs_eq hns h hnext
  obtain ⟨hoffs, hago, hnow⟩ := h
  unfold offsReached
  simp only [hlast]
  rw [if_pos ⟨hoffs, by omega, by exact_mod_cast hago, by exact_mod_cast hnow⟩]
  rfl

/-- The instant that a cycle answers has been reached in it. -/
theorem reachesOffs_of_offsReached {t : TimeDom} {offs sec : Nat} (h : offsReached t offs = some sec) : ReachesOffs t offs sec := by
  unfold offsReached at h
  simp only [] at h
  split at h
  · rename_i hc
    obtain ⟨hoffs, hpos, hago, hnow⟩ := hc
    obtain ⟨n, hn⟩ := Int.eq_ofNat_of_zero_le hpos
    rw [hn] at h hago hnow
    obtain rfl : n = sec := by simpa using h
    exact ⟨hoffs, by exact_mod_cast hago, by exact_mod_cast hnow⟩
  · simp at h

theorem ppsHeld_iff (s : State) (k : Nat) : ppsHeld s k = true ↔
    s.on (TU.PPS.CTRL.GATEU k) = true ∧ s.on (TU.D.STAT.UNSYNC (s.get (TU.PPS.CTRL.DOM k))) = true := by
  simp [ppsHeld, unsync]

/-- A pulse starts on an output that is enabled, not held and has not pulsed in the second. -/
theorem startPulse_starts {s : State} {k : Fin 4} {sec : Nat} (hen : s.on (TU.PPS.CTRL.EN k) = true)
    (hheld : ¬ ppsHeld s k = true) (hnew : sec ∉ s.pps[k].pulsed) :
    startPulse s k sec = { s with pps := s.pps.set k ⟨true, 0, sec :: s.pps[k].pulsed⟩ } := by
  unfold startPulse
  rw [if_pos (by simp only [Bool.not_eq_true] at hheld; simpa [hen, hheld] using hnew)]
  rfl

/-- On an output that is disabled or held, or has pulsed in the second, no pulse starts. -/
theorem startPulse_stays {s : State} {k : Fin 4} {sec : Nat}
    (h : s.on (TU.PPS.CTRL.EN k) = false ∨ ppsHeld s k = true ∨ sec ∈ s.pps[k].pulsed) : startPulse s k sec = s := by
  unfold startPulse
  refine if_neg ?_
  rcases h with h | h | h
  · simp [h]
  · simp [h]
  · have h' : s.pps[k].pulsed.contains sec = true := List.contains_iff_mem.mpr h
    rw [h']; simp

theorem execPpsPulse_reached {s : State} {k : Fin 4} {sec : Nat}
    (h : offsReached (s.dom (Fin.ofNat 4 (s.get (TU.PPS.CTRL.DOM k)))) (s.get (TU.PPS.OFFS.NS k)) = some sec) :
    execPpsPulse k s = .next (startPulse s k sec) := by
  simp only [execPpsPulse, h]

theorem execPpsPulse_stays {s : State} {k : Fin 4}
    (h : ∀ sec, offsReached (s.dom (Fin.ofNat 4 (s.get (TU.PPS.CTRL.DOM k)))) (s.get (TU.PPS.OFFS.NS k)) = some sec →
      startPulse s k sec = s) : execPpsPulse k s = .next s := by
  unfold execPpsPulse
  split
  · rename_i sec hsec; rw [h sec hsec]
  · rfl

end Sys2Proof.Machine
end

section
/-! PROOFS. Timer pins under software (R7, R115). -/

namespace Sys2Proof.Machine

open Reg

/-- The states differ in register fields and in the record of the pins' actions of the cycle alone. -/
def PinsOnly (s t : State) : Prop := ∃ c a p, t = { s with cells := c, pinActs := a, pinSets := p }

theorem PinsOnly.trans {s t u : State} (h : PinsOnly s t) (h' : PinsOnly t u) : PinsOnly s u := by
  obtain ⟨_, _, _, rfl⟩ := h
  obtain ⟨_, _, _, rfl⟩ := h'
  exact ⟨_, _, _, rfl⟩

theorem PinsOnly.putBit {s t : State} (h : PinsOnly s t) (f : Fld) (i : Nat) (b : Bool) : PinsOnly s (t.putBit f i b) := by
  obtain ⟨c, hc⟩ := t.putBit_cells f i b
  exact h.trans ⟨_, _, _, hc⟩

theorem softActs_pinsOnly (pin : Nat) (s : State) : PinsOnly s (softActs pin s) := by
  unfold softActs
  split
  · exact ⟨_, _, _, rfl⟩
  · exact ⟨_, _, _, rfl⟩

/-- Software is no hardware source: its record of an action changes no pin's. -/
theorem hwActed_softActs (pin j : Nat) (s : State) : hwActed (softActs pin s) j = hwActed s j := by
  unfold softActs
  split
  · rfl
  · rename_i hnone
    by_cases e : pin = j
    · subst e
      simp only [Option.not_isSome_iff_eq_none] at hnone
      simp [hwActed, hnone]
    · simp [hwActed, e]

theorem softActs_bit (pin : Nat) (s : State) (f : Fld) (j : Nat) : (softActs pin s).bit f j = s.bit f j := by
  unfold softActs
  split <;> rfl

theorem hwActed_putBit (s : State) (f : Fld) (i j : Nat) (b : Bool) : hwActed (s.putBit f i b) j = hwActed s j := by
  obtain ⟨c, hc⟩ := s.putBit_cells f i b
  rw [hc]; rfl

/-- A software action on one pin gives it the level `act` of the pin, of whether a hardware source has acted on it in the cycle, and of
its old level; nothing but the pin and the record of the cycle changes. -/
structure PinStep (act : Nat → Bool → Bool → Bool) (g : State → Nat → State) : Prop where
  only : ∀ s pin, PinsOnly s (g s pin)
  hw : ∀ s pin j, hwActed (g s pin) j = hwActed s j
  level : ∀ s pin j, j < 32 → (g s pin).bit TU.TMO.SET.LVL j =
    if pin = j then act j (hwActed s j) (s.bit TU.TMO.SET.LVL j) else s.bit TU.TMO.SET.LVL j

/-- Software that acts on pins one after another acts on each of them as if alone. -/
theorem PinStep.foldl {act : Nat → Bool → Bool → Bool} {g : State → Nat → State} (hg : PinStep act g) (pins : List Nat)
    (hnodup : pins.Nodup) (s : State) : PinsOnly s (pins.foldl g s) ∧
      ∀ j < 32, (pins.foldl g s).bit TU.TMO.SET.LVL j =
        if j ∈ pins then act j (hwActed s j) (s.bit TU.TMO.SET.LVL j) else s.bit TU.TMO.SET.LVL j := by
  induction pins generalizing s with
  | nil => exact ⟨⟨_, _, _, rfl⟩, fun j _ => by simp⟩
  | cons pin pins ih =>
    obtain ⟨hpin, hrest⟩ := List.nodup_cons.mp hnodup
    obtain ⟨honly, hlevel⟩ := ih hrest (g s pin)
    refine ⟨(hg.only s pin).trans honly, fun j hj => ?_⟩
    rw [List.foldl_cons, hlevel j hj, hg.hw, hg.level s pin j hj]
    by_cases e : pin = j
    · subst e; simp [hpin]
    · simp [e, Ne.symm e]

theorem PinStep.allPins {act : Nat → Bool → Bool → Bool} {g : State → Nat → State} (hg : PinStep act g) (s : State) :
    PinsOnly s ((List.range 32).foldl g s) ∧ ∀ j < 32, (((List.range 32).foldl g s).get TU.TMO.SET.LVL).testBit j =
      act j (hwActed s j) ((s.get TU.TMO.SET.LVL).testBit j) := by
  obtain ⟨honly, hlevel⟩ := hg.foldl (List.range 32) List.nodup_range s
  exact ⟨honly, fun j hj => (hlevel j hj).trans (if_pos (List.mem_range.mpr hj))⟩

theorem setPin_step (v : Nat) : PinStep (fun pin _ old => old || v.testBit pin) (setPin v) where
  only s pin := by
    unfold setPin
    split
    · exact (softActs_pinsOnly pin s).trans ⟨_, _, _, rfl⟩
    · exact ⟨_, _, _, rfl⟩
  hw s pin j := by
    unfold setPin
    split
    · exact hwActed_softActs pin j s
    · rfl
  level s pin j hj := by
    unfold setPin
    split
    · rename_i hv
      rw [State.bit_raiseBit _ _ _ _ hj]
      have e : State.bit { softActs pin s with pinSets := pin :: s.pinSets } TU.TMO.SET.LVL j = s.bit TU.TMO.SET.LVL j :=
        softActs_bit pin s _ j
      rw [e]
      by_cases h : pin = j
      · subst h; simp [hv]
      · simp [h]
    · rename_i hv
      by_cases h : pin = j
      · subst h; simp [hv]
      · simp [h]

theorem clearPin_step (v : Nat) : PinStep (fun pin hw old => old && !(v.testBit pin && !hw)) (clearPin v) where
  only s pin := by
    unfold clearPin
    split
    · exact ((softActs_pinsOnly pin s).trans ⟨_, _, _, rfl⟩).putBit TU.TMO.SET.LVL pin false
    · exact ⟨_, _, _, rfl⟩
  hw s pin j := by
    unfold clearPin
    split
    · exact (hwActed_putBit _ TU.TMO.SET.LVL pin j false).trans (hwActed_softActs pin j s)
    · rfl
  level s pin j hj := by
    unfold clearPin
    split
    · rename_i hv
      rw [State.bit_lowerBit _ _ _ _ hj]
      have e : State.bit { softActs pin s with pinSets := s.pinSets.filter (· != pin) } TU.TMO.SET.LVL j =
          s.bit TU.TMO.SET.LVL j := softActs_bit pin s _ j
      rw [e]
      by_cases h : pin = j
      · subst h; simp [hv]
      · simp [h]
    · rename_i hv
      by_cases h : pin = j
      · subst h; simp [hv]
      · simp [h]

theorem togglePin_step (v : Nat) : PinStep (fun pin hw old => old ^^ (v.testBit pin && !hw)) (togglePin v) where
  only s pin := by
    unfold togglePin
    split
    · exact (softActs_pinsOnly pin s).putBit _ _ _
    · exact ⟨_, _, _, rfl⟩
  hw s pin j := by
    unfold togglePin
    split
    · rw [hwActed_putBit, hwActed_softActs]
    · rfl
  level s pin j hj := by
    unfold togglePin
    split
    · rename_i hv
      rw [State.bit_putBit _ _ _ _ _ hj, softActs_bit]
      by_cases h : pin = j
      · subst h; simp [hv]
      · simp [h]
    · rename_i hv
      by_cases h : pin = j
      · subst h; simp [hv]
      · simp [h]

end Sys2Proof.Machine
end

section
/-! PROOFS. Window tables (R106). -/

namespace Sys2Proof.Machine

open Reg

theorem disjointWins_iff (ws : List (Nat × Nat)) :
    disjointWins ws = true ↔ ws.Pairwise (fun w v => w.1 + w.2 ≤ v.1 ∨ v.1 + v.2 ≤ w.1) := by
  induction ws with
  | nil => simp [disjointWins]
  | cons w ws ih => simp [disjointWins, ih]

theorem validWindows_iff (period phase guard : Nat) (ws : List (Nat × Nat)) :
    validWindows period phase guard ws = true ↔ 1000 ≤ period ∧ 1000000000 % period = 0 ∧ phase < period ∧
      (∀ w ∈ ws, w.1 + w.2 ≤ period ∧ 2 * guard < w.2) ∧ ws.Pairwise (fun w v => w.1 + w.2 ≤ v.1 ∨ v.1 + v.2 ≤ w.1) := by
  simp only [validWindows, Bool.and_eq_true, decide_eq_true_eq, List.all_eq_true, disjointWins_iff, and_assoc]

/-- Line `l` has sampled at a period start: its table in force becomes `x`, and the start joins those that it has seen. -/
def sampled (s : State) (n : Clu) (l : Fin 4) (x : Option WinTab) : State :=
  let g := lineTiming s n l
  s.setClu n { s.clu n with
    win := (s.clu n).win.set l x
    seen := (s.clu n).seen.set l (seeStart g.1 (periodStart (s.dom g.1) g.2.1 g.2.2) (s.clu n).seen[l]) }

/-- Two changes of a cluster make one. -/
theorem State.modClu_modClu (s : State) (n : Clu) (g h : ClusterSt → ClusterSt) :
    (s.modClu n g).modClu n h = s.modClu n (fun c => h (g c)) := by
  simp [State.modClu, State.clu, State.setClu]

/-- The line has sampled, or passed over, the last period start of its domain (R106). -/
def lastStartSeen (s : State) (n : Clu) (l : Fin 4) : Bool :=
  let g := lineTiming s n l
  startSeen s n l g.1 (periodStart (s.dom g.1) g.2.1 g.2.2)

theorem sampleLine_seen {s : State} {n : Clu} {l : Fin 4} (h : lastStartSeen s n l = true) : sampleLine s n l = s := if_pos h

/-- At a period start that it has not seen a line takes a valid table. -/
theorem sampleLine_valid {s : State} {n : Clu} {l : Fin 4} {t : WinTab} (h : lastStartSeen s n l = false)
    (hv : sampleWindows s n l = some t) : sampleLine s n l = sampled s n l (some t) := by
  have hs (g : ClusterSt → ClusterSt) : sampleWindows (s.modClu n g) n l = some t := hv
  refine (if_neg (by rw [← lastStartSeen, h]; decide)).trans ?_
  rw [hs]
  exact State.modClu_modClu s n _ _

/-- At a period start that it has not seen a line with an invalid table closes every window and sets CFGERR. -/
theorem sampleLine_invalid {s : State} {n : Clu} {l : Fin 4} (h : lastStartSeen s n l = false)
    (hv : sampleWindows s n l = none) : sampleLine s n l = (sampled s n l none).raise (TTW.STAT.CFGERR n l) := by
  have hs (g : ClusterSt → ClusterSt) : sampleWindows (s.modClu n g) n l = none := hv
  refine (if_neg (by rw [← lastStartSeen, h]; decide)).trans ?_
  rw [hs]
  exact congrArg (fun t => State.raise t (TTW.STAT.CFGERR n l)) (State.modClu_modClu s n _ _)

theorem execWindowPeriodStart_enabled {s : State} {n : Clu} {l : Fin 4} (h : s.on (TTW.CTRL.EN n l) = true) :
    execWindowPeriodStart n l s = .next (sampleLine s n l) := by
  simp only [execWindowPeriodStart, h, if_true]

end Sys2Proof.Machine
end

section
/-! PROOFS. The time unit's outputs, command by command, and their statement. -/

namespace Sys2Proof.Machine

open Reg

theorem timeOutputs_calibrationRound (s : State) :
    let cal : Prop := s.on TU.CTRL.CALEN = true ∧ s.on TU.CTRL.FINE = true
    (cal → s.calib.next = none →
      exec .calibrationRound s = .next (askPermit 9 0 { s with calib := { s.calib with next := some 0 } })) ∧
    (¬ cal ∨ s.calib.next ≠ none → exec .calibrationRound s = .next s) := by
  intro cal
  have hcal : calibrates s = true ↔ cal := calibrates_iff s
  simp only [exec_calibrationRound, execCalibrationRound]
  refine ⟨fun hc hn => ?_, fun h => ?_⟩
  · rw [if_pos (by simp [hcal.mpr hc, hn])]
  · rw [if_neg]
    rw [Bool.and_eq_true, hcal, Option.isNone_iff_eq_none]
    exact fun ⟨hc, hn⟩ => h.elim (fun hnc => hnc hc) (fun hne => hne hn)

theorem timeOutputs_calibration (s : State) (p : Fin 9) :
    let cal : Prop := s.on TU.CTRL.CALEN = true ∧ s.on TU.CTRL.FINE = true
    let late : Prop := 4 * (max 1 (s.get TU.CTRL.CALPER)) * 4000000000 ≤ 5 * s.calib.counts[p]
    (late → exec (.calstale p) s = .next (s.raiseBit TU.STAT.CALSTALE p)) ∧
    (¬ late → exec (.calstale p) s = .next s) ∧
    let turn : Prop := cal ∧ s.holds 9 = true ∧ s.calib.next = some p.val
    (¬ turn → exec (.portCalibrated p) s = .next s) ∧
    (turn → Completes (.portCalibrated p) s (fun t => t.bit TU.STAT.CALOK p = true ∧ t.calib.counts = s.calib.counts.set p 0 ∧
      (p = 8 → t.holds 9 = false ∧ t.calib.next = none) ∧
      (p ≠ 8 → t.permit = s.permit ∧ t.calib.next = some (p.val + 1)) ∧ t.mem = s.mem ∧ t.time = s.time)) := by
  intro cal late
  have hcal : calibrates s = true ↔ cal := calibrates_iff s
  have hlate : overdue s p = true ↔ late := overdue_iff s p
  have hlast : p.val = 8 ↔ p = 8 := by rw [Fin.ext_iff]; rfl
  simp only [exec_calstale, execCalstale, hlate]
  refine ⟨fun h => by rw [if_pos h], fun h => by rw [if_neg h], fun h => ?_, fun ⟨hc, hh, hn⟩ => ?_⟩
  · exact execPortCalibrated_idle p s (by rw [hcal]; exact h)
  · refine ⟨_, execPortCalibrated_turn p s (hcal.mpr hc) hh hn, ?_⟩
    by_cases h8 : p.val = 8
    · rw [if_pos h8]
      refine ⟨bit_calibrated p s, rfl, fun _ => ⟨holds_dropPermit 9 _, ?_⟩, fun h => absurd (hlast.mp h8) h, rfl, rfl⟩
      simp [dropPermit, calibrated, h8]
    · rw [if_neg h8]
      refine ⟨bit_calibrated p s, rfl, fun h => absurd (hlast.mpr h) h8, fun _ => ⟨rfl, ?_⟩, rfl, rfl⟩
      simp [calibrated, h8]

theorem timeOutputs_pps (s : State) (k : Fin 4) :
    let t := s.dom (Fin.ofNat 4 (s.get (TU.PPS.CTRL.DOM k)))
    let held : Prop := s.on (TU.PPS.CTRL.GATEU k) = true ∧ s.on (TU.D.STAT.UNSYNC (s.get (TU.PPS.CTRL.DOM k))) = true
    let width := if s.get (TU.PPS.WIDTH.NS k) < 10 ∨ 1000000000 ≤ s.get (TU.PPS.WIDTH.NS k) then 100000000
      else s.get (TU.PPS.WIDTH.NS k)
    let reaches (sec : Nat) : Prop := ReachesOffs t (s.get (TU.PPS.OFFS.NS k)) sec
    (∀ sec, t.ns < 1000000000 → reaches sec → ¬ reaches (sec + 1) → s.on (TU.PPS.CTRL.EN k) = true → ¬ held → sec ∉ s.pps[k].pulsed →
      exec (.ppsPulse k) s = .next { s with pps := s.pps.set k ⟨true, 0, sec :: s.pps[k].pulsed⟩ }) ∧
    (∀ sec, t.ns < 1000000000 → reaches sec → ¬ reaches (sec + 1) → sec ∈ s.pps[k].pulsed → exec (.ppsPulse k) s = .next s) ∧
    (s.on (TU.PPS.CTRL.EN k) = false ∨ held ∨ (∀ sec, ¬ reaches sec) → exec (.ppsPulse k) s = .next s) ∧
    (4 * width ≤ 5 * s.pps[k].age → exec (.ppsPulseEnd k) s = .next { s with pps := s.pps.set k { s.pps[k] with active := false } }) ∧
    (5 * s.pps[k].age < 4 * width → exec (.ppsPulseEnd k) s = .next s) := by
  intro t held width reaches
  have hheld : ppsHeld s k = true ↔ held := ppsHeld_iff s k
  have hover : pulseOver s k = true ↔ 4 * width ≤ 5 * s.pps[k].age := decide_eq_true_iff
  simp only [exec_ppsPulse, exec_ppsPulseEnd, execPpsPulseEnd, hover]
  refine ⟨fun sec hns h hnext hen hh hnew => ?_, fun sec hns h hnext hold => ?_, fun h => ?_, fun h => ?_, fun h => ?_⟩
  · rw [execPpsPulse_reached (offsReached_eq hns h hnext), startPulse_starts hen (by rw [hheld]; exact hh) hnew]
  · rw [execPpsPulse_reached (offsReached_eq hns h hnext), startPulse_stays (.inr (.inr hold))]
  · refine execPpsPulse_stays (fun sec hsec => ?_)
    rcases h with hoff | hh | hnever
    · exact startPulse_stays (.inl hoff)
    · exact startPulse_stays (.inr (.inl (hheld.mpr hh)))
    · exact absurd (reachesOffs_of_offsReached hsec) (hnever sec)
  · rw [if_pos h]; rfl
  · rw [if_neg (Nat.not_le.mpr h)]

/-- Software that acts on all pins changes them and nothing else that a statement names. -/
theorem PinStep.completes {act : Nat → Bool → Bool → Bool} {g : State → Nat → State} (hg : PinStep act g) (i : Instr) (s : State)
    (hi : exec i s = .next ((List.range 32).foldl g s)) :
    Completes i s (fun t => (t.mem = s.mem ∧ t.eng = s.eng ∧ t.clusters = s.clusters) ∧
      ∀ j < 32, (t.get TU.TMO.SET.LVL).testBit j = act j (hwActed s j) ((s.get TU.TMO.SET.LVL).testBit j)) := by
  obtain ⟨⟨c, a, p, e⟩, hlevel⟩ := hg.allPins s
  exact ⟨_, hi, by rw [e]; exact ⟨rfl, rfl, rfl⟩, hlevel⟩

theorem timeOutputs_pins (s : State) (v : BitVec 32) :
    let old (i : Nat) := (s.get TU.TMO.SET.LVL).testBit i
    let keeps (t : State) : Prop := t.mem = s.mem ∧ t.eng = s.eng ∧ t.clusters = s.clusters
    (s.boot.inReset = true → exec (.tmoSet v) s = .next s ∧ exec (.tmoClear v) s = .next s ∧ exec (.tmoToggle v) s = .next s) ∧
    (s.boot.inReset = false → Completes (.tmoSet v) s (fun t => keeps t ∧
      ∀ i < 32, (t.get TU.TMO.SET.LVL).testBit i = (old i || v.getLsbD i))) ∧
    (s.boot.inReset = false → Completes (.tmoClear v) s (fun t => keeps t ∧
      ∀ i < 32, (t.get TU.TMO.SET.LVL).testBit i = (old i && !(v.getLsbD i && !hwActed s i)))) ∧
    (s.boot.inReset = false → Completes (.tmoToggle v) s (fun t => keeps t ∧
      ∀ i < 32, (t.get TU.TMO.SET.LVL).testBit i = (old i ^^ (v.getLsbD i && !hwActed s i)))) := by
  refine ⟨fun h => ?_, fun h => ?_, fun h => ?_, fun h => ?_⟩
  · simp only [exec_tmoSet, exec_tmoClear, exec_tmoToggle, execTmoSet, execTmoClear, execTmoToggle, h, if_true, and_self]
  · exact (setPin_step v.toNat).completes _ s (by simp only [exec_tmoSet, execTmoSet, h, Bool.false_eq_true, if_false]; rfl)
  · exact (clearPin_step v.toNat).completes _ s (by simp only [exec_tmoClear, execTmoClear, h, Bool.false_eq_true, if_false]; rfl)
  · exact (togglePin_step v.toNat).completes _ s (by simp only [exec_tmoToggle, execTmoToggle, h, Bool.false_eq_true, if_false]; rfl)

theorem timeOutputs_windows (s : State) (n : Clu) (l : Fin 4) :
    let ws := windowList s n l
    let period := s.get (TTW.PERIOD.NS n l)
    let phase := s.get (TTW.PHASE.NS n l)
    let guard := s.get (TTW.GUARD.NS n l)
    let valid : Prop := 1000 ≤ period ∧ 1000000000 % period = 0 ∧ phase < period ∧
      (∀ w ∈ ws, w.1 + w.2 ≤ period ∧ 2 * guard < w.2) ∧ ws.Pairwise (fun w v => w.1 + w.2 ≤ v.1 ∨ v.1 + v.2 ≤ w.1)
    (s.on (TTW.CTRL.EN n l) = false ∨ lastStartSeen s n l = true → exec (.windowPeriodStart n l) s = .next s) ∧
    (s.on (TTW.CTRL.EN n l) = true → lastStartSeen s n l = false → valid → exec (.windowPeriodStart n l) s =
      .next (sampled s n l (some ⟨Fin.ofNat 4 (s.get (TTW.CTRL.DOM n l)), period, phase, guard, ws⟩))) ∧
    (s.on (TTW.CTRL.EN n l) = true → lastStartSeen s n l = false → ¬ valid →
      exec (.windowPeriodStart n l) s = .next ((sampled s n l none).raise (TTW.STAT.CFGERR n l))) := by
  intro ws period phase guard valid
  have hvalid : validWindows period phase guard ws = true ↔ valid := validWindows_iff period phase guard ws
  simp only [exec_windowPeriodStart]
  refine ⟨fun h => ?_, fun hen hs hv => ?_, fun hen hs hv => ?_⟩
  · by_cases hen : s.on (TTW.CTRL.EN n l) = true
    · rw [execWindowPeriodStart_enabled hen, sampleLine_seen (h.resolve_left (by simp [hen]))]
    · simp only [execWindowPeriodStart, hen, Bool.false_eq_true, if_false]
  · rw [execWindowPeriodStart_enabled hen, sampleLine_valid hs (if_pos (hvalid.mpr hv))]
  · rw [execWindowPeriodStart_enabled hen, sampleLine_invalid hs (if_neg (by rw [hvalid]; exact hv))]

/-- Settles O23: the calibration round and its ports, the PPS outputs, the timer pins and the window tables, each by the lemma on its
command. -/
theorem timeOutputs : Obligations.TimeOutputs := by
  unfold Obligations.TimeOutputs
  intro s
  exact ⟨(timeOutputs_calibrationRound s).1, (timeOutputs_calibrationRound s).2, timeOutputs_calibration s, timeOutputs_pps s,
    timeOutputs_pins s, timeOutputs_windows s⟩

end Sys2Proof.Machine
end

section
/-! PROOFS. Fields by their access type, and the reads that clear (R5, R7). -/

namespace Sys2Proof.Machine

/-! ### Writes of a field (R5) -/

theorem writeField_rw {f : Fld} (h : f.acc = .rw) (v : Nat) (s : State) : writeField v s f = s.put f (Fld.part f v) := by
  simp only [writeField, h]

theorem writeField_w1c {f : Fld} (h : f.acc = .w1c) (v : Nat) (s : State) :
    writeField v s f = s.put f (clearBits (s.get f) (Fld.part f v)) := by
  simp only [writeField, h]

theorem writeField_w1s {f : Fld} (h : f.acc = .w1s) (v : Nat) (s : State) :
    writeField v s f = s.put f (s.get f ||| Fld.part f v) := by
  simp only [writeField, h]

/-- A field that a write does not change: RO, RC, and WO, which triggers an action elsewhere. -/
theorem writeField_inert {f : Fld} (h : f.acc = .ro ∨ f.acc = .wo ∨ f.acc = .rc) (v : Nat) (s : State) : writeField v s f = s := by
  rcases h with h | h | h <;> simp only [writeField, h]

/-- Whatever its access type, a write of a field is a new value of that field or nothing. -/
theorem writeField_put_or_self (v : Nat) (s : State) (f : Fld) : (∃ x, writeField v s f = s.put f x) ∨ writeField v s f = s := by
  cases h : f.acc with
  | rw => exact .inl ⟨_, writeField_rw h v s⟩
  | w1c => exact .inl ⟨_, writeField_w1c h v s⟩
  | w1s => exact .inl ⟨_, writeField_w1s h v s⟩
  | ro => exact .inr (writeField_inert (.inl h) v s)
  | wo => exact .inr (writeField_inert (.inr (.inl h)) v s)
  | rc => exact .inr (writeField_inert (.inr (.inr h)) v s)

theorem get_writeField_ne (v : Nat) (s : State) {f g : Fld} (h : Fld.key g ≠ Fld.key f) : (writeField v s f).get g = s.get g := by
  rcases writeField_put_or_self v s f with ⟨x, e⟩ | e
  · rw [e, State.get_put_ne s f g x h]
  · rw [e]

theorem mem_writeField (v : Nat) (s : State) (f : Fld) : (writeField v s f).mem = s.mem := by
  rcases writeField_put_or_self v s f with ⟨x, e⟩ | e
  · rw [e]; rfl
  · rw [e]

/-- The bits of a written word that fall on a field. -/
theorem testBit_part (f : Fld) (v i : Nat) (h : i < f.w) : (Fld.part f v).testBit i = v.testBit (f.lo + i) := by
  simp [Fld.part, Nat.testBit_mod_two_pow, h, Nat.testBit_div_two_pow, Nat.add_comm]

theorem registerRows_writeField (s : State) (f : Fld) (v : Nat) :
    let u := writeField v s f
    (f.acc = .rw → u.get f = v / 2 ^ f.lo % 2 ^ f.w) ∧
    (f.acc = .w1c → ∀ i < f.w, u.bit f i = (s.bit f i && !v.testBit (f.lo + i))) ∧
    (f.acc = .w1s → ∀ i < f.w, u.bit f i = (s.bit f i || v.testBit (f.lo + i))) ∧
    (f.acc = .ro ∨ f.acc = .wo ∨ f.acc = .rc → u = s) ∧ (∀ g : Fld, Fld.key g ≠ Fld.key f → u.get g = s.get g) ∧ u.mem = s.mem := by
  refine ⟨fun h => ?_, fun h i hi => ?_, fun h i hi => ?_, fun h => writeField_inert h v s,
    fun g hg => get_writeField_ne v s hg, mem_writeField v s f⟩
  · rw [writeField_rw h, State.get_put, Fld.part, Nat.mod_mod]
  · rw [writeField_w1c h, State.bit_put s f _ i hi, testBit_clearBits, testBit_part f v i hi]; rfl
  · rw [writeField_w1s h, State.bit_put s f _ i hi, Nat.testBit_or, testBit_part f v i hi]; rfl

/-! ### Reads that clear (R5, R7) -/

/-- A field that a read does not reach keeps its value. -/
theorem get_clearRc_ne {f : Fld} (fs : List Fld) (hne : ∀ g ∈ fs, Fld.key g ≠ Fld.key f) (s : State) :
    (clearRc false fs s).get f = s.get f := by
  induction fs generalizing s with
  | nil => rfl
  | cons g fs ih =>
    have hg : (if g.acc = .rc then s.lower g else s).get f = s.get f := by
      split
      · exact State.get_put_ne s g f 0 (hne g List.mem_cons_self).symm
      · rfl
    exact (ih (fun x hx => hne x (List.mem_cons_of_mem _ hx)) _).trans hg

/-- A read clears the RC fields of its register and leaves the others. -/
theorem get_clearRc {fs : List Fld} (hfs : fs.Pairwise (fun f g => Fld.key f ≠ Fld.key g)) (s : State) :
    ∀ f ∈ fs, (clearRc false fs s).get f = if f.acc = .rc then 0 else s.get f := by
  induction fs generalizing s with
  | nil => intro f hf; cases hf
  | cons g fs ih =>
    obtain ⟨hhead, htail⟩ := List.pairwise_cons.mp hfs
    intro f hf
    change (clearRc false fs (if g.acc = .rc then s.lower g else s)).get f = _
    rcases List.mem_cons.mp hf with rfl | hf
    · rw [get_clearRc_ne fs (fun x hx => (hhead x hx).symm)]
      split
      · rw [State.lower, State.get_put, Nat.zero_mod]
      · rfl
    · have hg : (if g.acc = .rc then s.lower g else s).get f = s.get f := by
        split
        · exact State.get_put_ne s g f 0 (hhead f hf).symm
        · rfl
      rw [ih htail _ f hf, hg]

end Sys2Proof.Machine
end

section
/-! PROOFS. Who is admitted to a register, and what an access of the host does (R416, R444, R468). -/

namespace Sys2Proof.Machine

open Reg

/-! ### The status by its precedence (R416) -/

theorem regStatus_power {s : State} {a : Nat} (req : Nat) (sec wr : Bool) (h : regUp s a = false) :
    regStatus s req sec wr a = stPower := by
  simp [regStatus, h]

theorem regStatus_security {s : State} {a : Nat} {wr : Bool} (req : Nat) (hup : regUp s a = true) (h : secureOnly a wr = true) :
    regStatus s req false wr a = stSecurity := by
  simp [regStatus, hup, h]

/-- A host write that is neither POWER nor SECURITY, of a register that the lock does not hide: DECODE, READONLY, BUSY, or admitted. -/
theorem regStatus_hostWrite {s : State} {a : Nat} {sec : Bool} (hup : regUp s a = true)
    (hsec : sec = true ∨ secureOnly a true = false) (hopen : lockedAway s a = false) :
    regStatus s 14 sec true a = if fieldsAt a = [] then stDecode
      else if (fieldsAt a).any Fld.writable = false then stReadonly
      else if mailFull s 14 a = true then stBusy else stOkay := by
  have hs : (!sec && secureOnly a true) = false := by rcases hsec with h | h <;> simp [h]
  have hw : regWritable 14 a = (fieldsAt a).any Fld.writable := rfl
  simp only [regStatus, hup, hs, hopen, hw, Bool.not_true, Bool.false_eq_true, if_false, Nat.lt_irrefl, decide_false, Bool.false_and,
    List.isEmpty_iff, Bool.true_and, Bool.not_eq_true']

/-- A refusal for want of power leaves nothing. -/
theorem regRefused_power (wr : Bool) (a : Nat) (s : State) : regRefused stPower wr a s = s := by
  simp [regRefused, show stPower ≠ stSecurity by decide, show stPower ≠ stBusy by decide]

theorem hostWrite_refused {sec : Bool} {a st : Nat} {s : State} (v : Nat) (hst : regStatus s 14 sec true a = st) (h : st ≠ stOkay) :
    hostWrite sec a v s = { regRefused st true a s with ans := ⟨st, 0⟩ } := by
  simp only [hostWrite, regWrite, hst, if_pos h]

theorem hostWrite_admitted {sec : Bool} {a : Nat} {s : State} (v : Nat) (h : regStatus s 14 sec true a = stOkay) :
    hostWrite sec a v s = { writeReg32 14 sec a v s with ans := ⟨stOkay, 0⟩ } := by
  simp only [hostWrite, regWrite, h, ne_eq, not_true_eq_false, if_false]

theorem hostRead_refused {sec : Bool} {a : Nat} {s : State} (quiet : Bool) (h : regStatus s 14 sec false a ≠ stOkay) :
    hostRead sec quiet a s =
      { regRefused (regStatus s 14 sec false a) false a s with ans := ⟨regStatus s 14 sec false a, 0⟩ } := by
  simp only [hostRead, regRead, if_pos h]

/-- A debug register that does not respond while the block is locked reads 0. -/
theorem hostRead_locked {sec : Bool} {a : Nat} {s : State} (quiet : Bool) (h : regStatus s 14 sec false a = stOkay)
    (hl : lockedAway s a = true) : hostRead sec quiet a s = { s with ans := ⟨stOkay, 0⟩ } := by
  simp only [hostRead, regRead, h, hl, ne_eq, not_true_eq_false, if_false, if_true]

theorem hostRead_admitted {sec : Bool} {a : Nat} {s : State} (quiet : Bool) (h : regStatus s 14 sec false a = stOkay)
    (hl : lockedAway s a = false) : hostRead sec quiet a s =
      { (readReg quiet a s).2 with ans := ⟨stOkay, (readReg quiet a s).1 % 2 ^ 32⟩ } := by
  simp only [hostRead, regRead, h, hl, ne_eq, not_true_eq_false, if_false, Bool.false_eq_true]

theorem registerRows_write (s : State) (sec : Bool) (a : BitVec 22) (v : BitVec 32) :
    let st := regStatus s 14 sec true a.toNat
    (regUp s a.toNat = false → st = stPower) ∧
    (regUp s a.toNat = true → sec = false → secureOnly a.toNat true = true → st = stSecurity) ∧
    (regUp s a.toNat = true → sec = true → lockedAway s a.toNat = false → fieldsAt a.toNat = [] → st = stDecode) ∧
    (regUp s a.toNat = true → sec = true → lockedAway s a.toNat = false → fieldsAt a.toNat ≠ [] →
      (fieldsAt a.toNat).any Fld.writable = false → st = stReadonly) ∧
    (st ≠ stOkay → exec (.registerWrite sec a v) s = .next { regRefused st true a.toNat s with ans := ⟨st, 0⟩ }) ∧
    (st = stOkay → exec (.registerWrite sec a v) s =
      .next { writeReg32 14 sec a.toNat v.toNat s with ans := ⟨stOkay, 0⟩ }) := by
  simp only [exec_registerWrite, execRegisterWrite]
  refine ⟨regStatus_power 14 sec true, fun hup hsec h => ?_, fun hup hsec hopen h => ?_, fun hup hsec hopen h hro => ?_,
    fun h => by rw [hostWrite_refused _ rfl h], fun h => by rw [hostWrite_admitted _ h]⟩
  · rw [hsec, regStatus_security 14 hup h]
  · rw [regStatus_hostWrite hup (.inl hsec) hopen, if_pos h]
  · rw [regStatus_hostWrite hup (.inl hsec) hopen, if_neg h, if_pos hro]

theorem registerRows_read (s : State) (sec : Bool) (a : BitVec 22) :
    let st := regStatus s 14 sec false a.toNat
    (st ≠ stOkay → exec (.rcRead sec a) s = .next { regRefused st false a.toNat s with ans := ⟨st, 0⟩ }) ∧
    (st = stOkay → lockedAway s a.toNat = true → exec (.rcRead sec a) s = .next { s with ans := ⟨stOkay, 0⟩ }) ∧
    (st = stOkay → lockedAway s a.toNat = false → exec (.rcRead sec a) s = .next
      { (readReg false a.toNat s).2 with ans := ⟨stOkay, (readReg false a.toNat s).1 % 2 ^ 32⟩ }) := by
  simp only [exec_rcRead, execRcRead]
  exact ⟨fun h => by rw [hostRead_refused _ h], fun h hl => by rw [hostRead_locked _ h hl],
    fun h hl => by rw [hostRead_admitted _ h hl]⟩

end Sys2Proof.Machine
end

section
/-! PROOFS. The mailbox channels as the host writes them: words, doorbells, and what a ring and a clear set off (R339-R345). -/

namespace Sys2Proof.Machine

open Reg

/-! ### Admission to a mailbox channel -/

/-- Below the clusters' windows only MGMT has to run. -/
theorem regUp_below_clusters {a : Nat} (s : State) (h : a < 0x40000) : regUp s a = (!s.boot.inReset && s.up 0) := by
  have hd : ¬ (0x40000 ≤ a ∧ a < 0x80000) := by omega
  simp [regUp, hd]

/-- The lock hides debug registers alone. -/
theorem lockedAway_below_debug {a : Nat} (s : State) (h : a < 0x90000) : lockedAway s a = false := by
  have hd : ¬ (0x90000 ≤ a ∧ a < 0xA0000) := by omega
  simp [lockedAway, hd]

/-- Of the mailbox channels the first two are secure. -/
theorem secureOnly_mailbox {c o a : Nat} (wr : Bool) (hc : c < 4) (ho : o < 0x4000) (ha : a = 0x10000 + 0x4000 * c + o) :
    secureOnly a wr = decide (c < 2) := by
  have h1 : (0x10000 ≤ a ∧ a < 0x18000) ↔ c < 2 := by omega
  have h2 : ¬ (0x8B000 ≤ a ∧ a < 0x8B080) := by omega
  have h3 : ¬ (0x8B400 ≤ a ∧ a < 0x8B500) := by omega
  have h4 : ¬ (0x90000 ≤ a ∧ a < 0xA0000) := by omega
  have h5 : ¬ (0x100 ≤ a ∧ a < 0x11C) := by omega
  simp [secureOnly, h1, h2, h3, h4, h5]

theorem fieldsAt_mailbox {c o a : Nat} (hc : c < 4) (ho : o < 0x4000) (h4 : o % 4 = 0) (ha : a = 0x10000 + 0x4000 * c + o) :
    fieldsAt a = fields_mb c o := by
  have hlow : ¬ a % 4 ≠ 0 := by omega
  have hglb : ¬ a < 0x10000 := by omega
  have hmb : a < 0x20000 := by omega
  have hch : a % 0x10000 / 0x4000 = c := by omega
  have hoff : a % 0x10000 % 0x4000 = o := by omega
  simp only [fieldsAt, if_neg hlow, if_neg hglb, if_pos hmb, hch, hoff]

theorem fields_mb_h2b (c w : Nat) (hw : w < 256) : fields_mb c (4 * w) = [MB.H2B.DATA c w] := by
  unfold fields_mb
  split
  any_goals omega
  rw [if_pos (by omega)]
  congr 2
  omega

theorem inH2b_mailbox {c o a : Nat} (hc : c < 4) (ho : o < 0x400) (ha : a = 0x10000 + 0x4000 * c + o) : inH2b a = true := by
  have h1 : 0x10000 ≤ a ∧ a < 0x20000 := by omega
  have h2 : a % 0x4000 < 0x400 := by omega
  simp [inH2b, h1, h2]

/-- The mailbox of a channel is full for the host while BB bit 0 stands. -/
theorem mailFull_h2b {c o a : Nat} (s : State) (hc : c < 4) (ho : o < 0x400) (ha : a = 0x10000 + 0x4000 * c + o) :
    mailFull s 14 a = s.bit (DB.BB.BITS c) 0 := by
  have hch : (a - 0x10000) / 0x4000 = c := by omega
  simp [mailFull, inH2b_mailbox hc ho ha, hch]

theorem mailFull_doorbells {c o a : Nat} (s : State) (hlo : 0x800 ≤ o) (ho : o < 0x4000)
    (ha : a = 0x10000 + 0x4000 * c + o) : mailFull s 14 a = false := by
  have h1 : ¬ a % 0x4000 < 0x400 := by omega
  have h2 : ¬ a % 0x4000 < 0x800 := by omega
  simp [mailFull, inH2b, inB2h, h1, h2]

/-- The host's write of a channel's register that it can write is admitted, unless the mailbox is full. -/
theorem regStatus_mailbox {c o a : Nat} {s : State} {sec : Bool} (hup : (!s.boot.inReset && s.up 0) = true)
    (hsec : c < 2 → sec = true) (hc : c < 4) (ho : o < 0x4000) (h4 : o % 4 = 0) (ha : a = 0x10000 + 0x4000 * c + o)
    (hw : (fields_mb c o).any Fld.writable = true) :
    regStatus s 14 sec true a = if mailFull s 14 a = true then stBusy else stOkay := by
  have hs : sec = true ∨ secureOnly a true = false := by
    rw [secureOnly_mailbox true hc ho ha]
    by_cases h : c < 2
    · exact .inl (hsec h)
    · exact .inr (by simp [h])
  have hne : fieldsAt a ≠ [] := by
    rw [fieldsAt_mailbox hc ho h4 ha]
    intro h
    simp [h] at hw
  rw [regStatus_hostWrite (by rw [regUp_below_clusters s (by omega)]; exact hup) hs (lockedAway_below_debug s (by omega)),
    if_neg hne, fieldsAt_mailbox hc ho h4 ha, hw, if_neg (by decide)]

theorem writeReg32_mailbox {c o a : Nat} (sec : Bool) (v : Nat) (s : State) (hc : c < 4) (ho : o < 0x4000)
    (ha : a = 0x10000 + 0x4000 * c + o) : writeReg32 14 sec a v s = writeMailbox c a v s := by
  have hglb : ¬ a < 0x10000 := by omega
  have hmb : a < 0x20000 := by omega
  have hch : (a - 0x10000) / 0x4000 = c := by omega
  simp only [writeReg32, if_neg hglb, if_pos hmb, hch]

/-! ### Words (R345) -/

theorem registerRows_h2b (s : State) (sec : Bool) (c : Fin 4) (w : BitVec 8) (v : BitVec 32) :
    let up : Bool := !s.boot.inReset && s.up 0
    (up = false → Completes (.h2bWrite sec c w v) s (fun t => t = { s with ans := ⟨stPower, 0⟩ })) ∧
    (up = true → sec = false → c.val < 2 → Completes (.h2bWrite sec c w v) s (fun t =>
      t.ans = ⟨stSecurity, 0⟩ ∧ t.mem = s.mem ∧ t.eng = s.eng ∧ t.chans = s.chans)) ∧
    (up = true → (c.val < 2 → sec = true) → s.bit (DB.BB.BITS c) 0 = true → Completes (.h2bWrite sec c w v) s (fun t =>
      t = { s.count (MB.BUSYCNT.CNT c) with ans := ⟨stBusy, 0⟩ })) ∧
    (up = true → (c.val < 2 → sec = true) → s.bit (DB.BB.BITS c) 0 = false → Completes (.h2bWrite sec c w v) s (fun t =>
      t = { s with mem := t.mem, ans := ⟨stOkay, 0⟩ } ∧
      t.mem = memSetAll s.mem (0x10000 + 0x4000 * c.val + 4 * w.toNat) (bytesLE 4 v.toNat))) := by
  intro up
  have hc := c.isLt
  have hw := w.isLt
  have ho : 4 * w.toNat < 0x4000 := by omega
  have hup := regUp_below_clusters (a := 0x10000 + 0x4000 * c.val + 4 * w.toNat) s (by omega)
  have hword : (fields_mb c (4 * w.toNat)).any Fld.writable = true := by rw [fields_mb_h2b c _ hw]; rfl
  have hfull := mailFull_h2b (c := c) (o := 4 * w.toNat) s hc (by omega) rfl
  simp only [Completes, exec_h2bWrite, execH2bWrite]
  refine ⟨fun h => ⟨_, rfl, ?_⟩, fun h hsec hlow => ⟨_, rfl, ?_⟩, fun h hsec hbb => ⟨_, rfl, ?_⟩, fun h hsec hbb => ⟨_, rfl, ?_⟩⟩
  · rw [hostWrite_refused _ (regStatus_power 14 sec true (hup.trans h)) (by decide), regRefused_power]
  · have hso : secureOnly (0x10000 + 0x4000 * c.val + 4 * w.toNat) true = true := by
      rw [secureOnly_mailbox true hc ho rfl]; simpa using hlow
    rw [hsec, hostWrite_refused _ (regStatus_security 14 (hup.trans h) hso) (by decide), regRefused, if_pos ⟨rfl, by omega, by omega⟩]
    exact ⟨rfl, rfl, rfl, rfl⟩
  · have hst := regStatus_mailbox h hsec hc ho (by omega) rfl hword
    rw [hfull, if_pos hbb] at hst
    have hch : (0x10000 + 0x4000 * c.val + 4 * w.toNat - 0x10000) / 0x4000 = c.val := by omega
    rw [hostWrite_refused _ hst (by decide), regRefused, if_neg (fun e => absurd e.1 (by decide)), 
      if_pos ⟨rfl, inH2b_mailbox hc (o := 4 * w.toNat) (by omega) rfl⟩, hch]
  · have hst := regStatus_mailbox h hsec hc ho (by omega) rfl hword
    rw [hfull, if_neg (by simp [hbb])] at hst
    have hlow : (0x10000 + 0x4000 * c.val + 4 * w.toNat) % 0x4000 < 0x800 := by omega
    rw [hostWrite_admitted _ hst, writeReg32_mailbox sec _ s hc ho rfl, writeMailbox, if_pos hlow]
    exact ⟨rfl, rfl⟩

/-! ### Doorbells (R342, R344, R347) -/

/-- The crossing timer is a mailbox channel's own. -/
theorem startCross_chans (c : Nat) (s : State) : ∃ x, startCross c s = { s with chans := x } := by
  unfold startCross
  split
  · exact ⟨_, rfl⟩
  · exact ⟨_, rfl⟩

/-- Ringing a block-bound doorbell changes its bits, and in the channel the crossing timer. -/
theorem ringBlock_eq (c m : Nat) (s : State) :
    ∃ x, ringBlock c m s = { s.put (DB.BB.BITS c) (s.get (DB.BB.BITS c) ||| m) with chans := x } := startCross_chans c _

theorem bit_ringBlock (c m : Nat) (s : State) (i : Nat) (hi : i < 32) :
    (ringBlock c m s).bit (DB.BB.BITS c) i = (s.bit (DB.BB.BITS c) i || m.testBit i) := by
  obtain ⟨x, e⟩ := ringBlock_eq c m s
  rw [e]
  exact (State.bit_put s (DB.BB.BITS c) _ i hi).trans (Nat.testBit_or _ _ _)

theorem bit_ringBlock_ne (c m : Nat) (s : State) (f : Fld) (i : Nat) (h : Fld.key f ≠ Fld.key (DB.BB.BITS c)) :
    (ringBlock c m s).bit f i = s.bit f i := by
  obtain ⟨x, e⟩ := ringBlock_eq c m s
  rw [e]
  exact State.bit_put_ne s (DB.BB.BITS c) f _ i h

theorem key_hb_ne_bb (c : Nat) : Fld.key (DB.HB.BITS c) ≠ Fld.key (DB.BB.BITS c) := by
  simp only [Fld.key, DB.HB.BITS, DB.BB.BITS]
  omega

/-- Clearing host-bound doorbells leaves memory and engines alone, clears the bits, and with bit 1 rings FREED. -/
theorem clearHost_spec (c m : Nat) (s : State) :
    (clearHost c m s).mem = s.mem ∧ (clearHost c m s).eng = s.eng ∧
    (∀ i < 32, (clearHost c m s).bit (DB.HB.BITS c) i = (s.bit (DB.HB.BITS c) i && !m.testBit i)) ∧
    (s.bit (DB.HB.BITS c) 1 = true → m.testBit 1 = true → (clearHost c m s).bit (DB.BB.BITS c) 1 = true) := by
  have hbits (i : Nat) (hi : i < 32) : (s.put (DB.HB.BITS c) (clearBits (s.get (DB.HB.BITS c)) m)).bit (DB.HB.BITS c) i =
      (s.bit (DB.HB.BITS c) i && !m.testBit i) :=
    (State.bit_put s (DB.HB.BITS c) _ i hi).trans (testBit_clearBits _ _ _)
  unfold clearHost
  by_cases hfreed : (s.bit (DB.HB.BITS c) 1 && m.testBit 1) = true
  · simp only [hfreed, if_true]
    obtain ⟨x, e⟩ := ringBlock_eq c 2 (rearmCross c (s.put (DB.HB.BITS c) (clearBits (s.get (DB.HB.BITS c)) m)))
    refine ⟨by rw [e]; rfl, by rw [e]; rfl, fun i hi => ?_, fun _ _ => ?_⟩
    · rw [bit_ringBlock_ne c 2 _ _ i (key_hb_ne_bb c)]
      exact hbits i hi
    · rw [bit_ringBlock c 2 _ 1 (by decide)]
      exact Bool.or_eq_true_iff.mpr (.inr (by decide))
  · simp only [hfreed, Bool.false_eq_true, if_false]
    exact ⟨rfl, rfl, hbits, fun h1 h2 => absurd (by rw [h1, h2]; rfl) hfreed⟩

theorem registerRows_doorbells (s : State) (sec : Bool) (c : Fin 4) (v : BitVec 32) (hup : (!s.boot.inReset && s.up 0) = true)
    (hsec : c.val < 2 → sec = true) :
    Completes (.bbRing sec c v) s (fun t => t.ans = ⟨stOkay, 0⟩ ∧ t.mem = s.mem ∧ t.eng = s.eng ∧
      ∀ i < (DB.BB.BITS c).w, t.bit (DB.BB.BITS c) i = (s.bit (DB.BB.BITS c) i || v.getLsbD i)) ∧
    Completes (.hbClear sec c v) s (fun t => t.ans = ⟨stOkay, 0⟩ ∧ t.mem = s.mem ∧ t.eng = s.eng ∧
      (∀ i < (DB.HB.BITS c).w, t.bit (DB.HB.BITS c) i = (s.bit (DB.HB.BITS c) i && !v.getLsbD i)) ∧
      (s.bit (DB.HB.BITS c) 1 = true → v.getLsbD 1 = true → t.bit (DB.BB.BITS c) 1 = true)) := by
  have hc := c.isLt
  have hab : 0x10810 + 0x4000 * c.val = 0x10000 + 0x4000 * c.val + 0x810 := by omega
  have hah : 0x10800 + 0x4000 * c.val = 0x10000 + 0x4000 * c.val + 0x800 := by omega
  simp only [Completes, exec_bbRing, exec_hbClear, execBbRing, execHbClear]
  refine ⟨⟨_, rfl, ?_⟩, ⟨_, rfl, ?_⟩⟩
  · have hst := regStatus_mailbox hup hsec hc (by decide) (by decide) hab rfl
    rw [mailFull_doorbells s (by decide) (by decide) hab, if_neg (by decide)] at hst
    have hoff : (0x10810 + 0x4000 * c.val) % 0x4000 = 0x810 := by omega
    rw [hostWrite_admitted _ hst, writeReg32_mailbox sec _ s hc (by decide) hab]
    simp only [writeMailbox, hoff]
    obtain ⟨x, e⟩ := ringBlock_eq c v.toNat s
    exact ⟨trivial, by rw [e]; rfl, by rw [e]; rfl, fun i hi => bit_ringBlock c v.toNat s i hi⟩
  · have hst := regStatus_mailbox hup hsec hc (by decide) (by decide) hah rfl
    rw [mailFull_doorbells s (by decide) (by decide) hah, if_neg (by decide)] at hst
    have hoff : (0x10800 + 0x4000 * c.val) % 0x4000 = 0x800 := by omega
    rw [hostWrite_admitted _ hst, writeReg32_mailbox sec _ s hc (by decide) hah]
    simp only [writeMailbox, hoff]
    obtain ⟨hmem, heng, hhb, hbb⟩ := clearHost_spec c v.toNat s
    exact ⟨trivial, hmem, heng, hhb, hbb⟩

end Sys2Proof.Machine
end

section
/-! PROOFS. GLB.BOOT.CTRL: CLRFAIL and GO (R380, R381, R387). -/

namespace Sys2Proof.Machine

open Reg

/-! ### The write of GLB.BOOT.CTRL -/

/-- The host's secure write of GLB.BOOT.CTRL is admitted while MGMT runs. -/
theorem regStatus_bootCtrl {s : State} (hup : (!s.boot.inReset && s.up 0) = true) : regStatus s 14 true true 0x104 = stOkay := by
  rw [regStatus_hostWrite (by rw [regUp_below_clusters s (by omega)]; exact hup) (.inl rfl) (lockedAway_below_debug s (by omega))]
  rfl

/-- Of the register's fields a write changes PREF alone. -/
theorem plainWrite_bootCtrl (v : Nat) (s : State) :
    plainWrite [] 0x104 v s = s.put GLB.BOOT.CTRL.PREF (Fld.part GLB.BOOT.CTRL.PREF v) := rfl

theorem writeReg32_bootCtrl (v : Nat) (s : State) : writeReg32 14 true 0x104 v s =
    let t := s.put GLB.BOOT.CTRL.PREF (Fld.part GLB.BOOT.CTRL.PREF v)
    let t := if v.testBit 2 then clearFail t else t
    if v.testBit 0 then bootGo t else t := rfl

/-- A written PREF that equals the old one leaves every field as it reads. -/
theorem get_putPref {s : State} {v : Nat} (hv : v = s.get GLB.BOOT.CTRL.PREF) (hp : s.get GLB.BOOT.CTRL.PREF < 2) (f : Fld)
    (hf : Fld.key f ≠ Fld.key GLB.BOOT.CTRL.PREF ∨ f = GLB.BOOT.CTRL.PREF) : (s.put GLB.BOOT.CTRL.PREF v).get f = s.get f := by
  rcases hf with hf | rfl
  · exact State.get_put_ne s GLB.BOOT.CTRL.PREF f v hf
  · rw [State.get_put, hv]
    exact Nat.mod_eq_of_lt hp

/-- A number of one bit is 0 or 1. -/
theorem eq_zero_or_one_of_lt_two {p : Nat} (hp : p < 2) : p = 0 ∨ p = 1 := by omega

/-- The part of the written word that PREF takes, in CLRFAIL's word and in GO's. -/
theorem part_pref {p k : Nat} (hp : p < 2) (hk : k = 1 ∨ k = 4) : Fld.part GLB.BOOT.CTRL.PREF (2 * p + k) = p := by
  change (2 * p + k) / 2 ^ 1 % 2 ^ 1 = p
  omega

/-! ### CLRFAIL (R387) -/

theorem get_clearFail_ne (s : State) (f : Fld) (ha : Fld.key f ≠ Fld.key GLB.BOOT.STAT.FAILA)
    (hb : Fld.key f ≠ Fld.key GLB.BOOT.STAT.FAILB) : (clearFail s).get f = s.get f := by
  rw [clearFail, State.lower, State.get_put_ne _ _ _ _ hb, State.lower, State.get_put_ne _ _ _ _ ha]

theorem get_clearFail_failA (s : State) : (clearFail s).get GLB.BOOT.STAT.FAILA = 0 := by
  rw [clearFail, State.lower, State.get_put_ne _ _ _ _ (by decide), State.lower, State.get_put]; rfl

theorem get_clearFail_failB (s : State) : (clearFail s).get GLB.BOOT.STAT.FAILB = 0 := by
  rw [clearFail, State.lower, State.get_put]; rfl

theorem execClrfail_up {s : State} (hup : (!s.boot.inReset && s.up 0) = true) (hp : s.get GLB.BOOT.CTRL.PREF < 2) :
    execClrfail s = .next { clearFail (s.put GLB.BOOT.CTRL.PREF (s.get GLB.BOOT.CTRL.PREF)) with ans := ⟨stOkay, 0⟩ } := by
  have h2 : (2 * s.get GLB.BOOT.CTRL.PREF + 4).testBit 2 = true := by
    rcases eq_zero_or_one_of_lt_two hp with h | h
    · rw [h]; rfl
    · rw [h]; rfl
  have h0 : (2 * s.get GLB.BOOT.CTRL.PREF + 4).testBit 0 = false := by
    rw [Nat.testBit_zero, decide_eq_false_iff_not]; omega
  rw [execClrfail, hostWrite_admitted _ (regStatus_bootCtrl hup), writeReg32_bootCtrl, part_pref hp (.inr rfl)]
  simp only [h2, h0, if_true, Bool.false_eq_true, if_false]

/-! ### GO (R381) -/

theorem bootGo_ignored {s : State} (h : s.get GLB.BOOT.STAT.STAGE ≠ 1 ∧ s.get GLB.BOOT.STAT.STAGE ≠ 7 ∨ s.bootRuns = false) :
    bootGo s = s := by
  refine if_neg ?_
  rcases h with ⟨h1, h7⟩ | h
  · simp [h1, h7]
  · simp [h]

theorem bootGo_begins {s : State} (hr : s.bootRuns = true)
    (hg : s.get GLB.BOOT.STAT.STAGE = 1 ∨ s.get GLB.BOOT.STAT.STAGE = 7) (hs : hostSource (hostImage s) = true) :
    bootGo s = { (s.raise GLB.BOOT.STAT.SRC).put GLB.BOOT.STAT.STAGE 2 with boot := { s.boot with staging := true } } :=
  (if_pos (by simp [hr, hg])).trans (if_pos hs)

theorem bootGo_refuses {s : State} (hr : s.bootRuns = true)
    (hg : s.get GLB.BOOT.STAT.STAGE = 1 ∨ s.get GLB.BOOT.STAT.STAGE = 7) (hs : hostSource (hostImage s) = false) :
    bootGo s = (s.put GLB.BOOT.STAT.RESULT 12).put GLB.BOOT.STAT.STAGE 7 :=
  (if_pos (by simp [hr, hg])).trans (if_neg (by simp [hs]))

/-- GO leaves memory, engines and PREF alone. -/
theorem bootGo_keeps (s : State) : (bootGo s).mem = s.mem ∧ (bootGo s).eng = s.eng ∧
    (bootGo s).get GLB.BOOT.CTRL.PREF = s.get GLB.BOOT.CTRL.PREF := by
  by_cases hi : s.get GLB.BOOT.STAT.STAGE ≠ 1 ∧ s.get GLB.BOOT.STAT.STAGE ≠ 7 ∨ s.bootRuns = false
  · rw [bootGo_ignored hi]
    exact ⟨rfl, rfl, rfl⟩
  · have hg : s.get GLB.BOOT.STAT.STAGE = 1 ∨ s.get GLB.BOOT.STAT.STAGE = 7 := by omega
    have hr : s.bootRuns = true := by simpa using fun h => hi (.inr h)
    cases hs : hostSource (hostImage s)
    · rw [bootGo_refuses hr hg hs]
      exact ⟨rfl, rfl, by rw [State.get_put_ne _ _ _ _ (by decide), State.get_put_ne _ _ _ _ (by decide)]⟩
    · rw [bootGo_begins hr hg hs]
      have hpref : ((s.raise GLB.BOOT.STAT.SRC).put GLB.BOOT.STAT.STAGE 2).get GLB.BOOT.CTRL.PREF = s.get GLB.BOOT.CTRL.PREF := by
        rw [State.get_put_ne _ _ _ _ (by decide), State.get_raise_ne _ _ _ (by decide)]
      exact ⟨rfl, rfl, hpref⟩

/-- What GO makes of STAGE, SRC and RESULT. -/
theorem bootGo_result (s : State) :
    let g := s.get GLB.BOOT.STAT.STAGE
    (g ≠ 1 ∧ g ≠ 7 ∨ s.bootRuns = false → (bootGo s).get GLB.BOOT.STAT.STAGE = g) ∧
    (s.bootRuns = true → g = 1 ∨ g = 7 → hostSource (hostImage s) = true →
      (bootGo s).get GLB.BOOT.STAT.STAGE = 2 ∧ (bootGo s).get GLB.BOOT.STAT.SRC = 1) ∧
    (s.bootRuns = true → g = 1 ∨ g = 7 → hostSource (hostImage s) = false →
      (bootGo s).get GLB.BOOT.STAT.STAGE = 7 ∧ (bootGo s).get GLB.BOOT.STAT.RESULT = 12) := by
  refine ⟨fun h => by rw [bootGo_ignored h], fun hr hg hs => ?_, fun hr hg hs => ?_⟩
  · rw [bootGo_begins hr hg hs]
    have hstage : ((s.raise GLB.BOOT.STAT.SRC).put GLB.BOOT.STAT.STAGE 2).get GLB.BOOT.STAT.STAGE = 2 := State.get_put _ _ _
    have hsrc : ((s.raise GLB.BOOT.STAT.SRC).put GLB.BOOT.STAT.STAGE 2).get GLB.BOOT.STAT.SRC = 1 := by
      rw [State.get_put_ne _ _ _ _ (by decide), State.get_raise _ _ rfl]
    exact ⟨hstage, hsrc⟩
  · rw [bootGo_refuses hr hg hs]
    refine ⟨State.get_put _ _ _, ?_⟩
    rw [State.get_put_ne _ _ _ _ (by decide)]
    exact State.get_put _ _ _

theorem execBootGo_up {s : State} (hup : (!s.boot.inReset && s.up 0) = true) (hp : s.get GLB.BOOT.CTRL.PREF < 2) :
    execBootGo s = .next { bootGo (s.put GLB.BOOT.CTRL.PREF (s.get GLB.BOOT.CTRL.PREF)) with ans := ⟨stOkay, 0⟩ } := by
  have h2 : (2 * s.get GLB.BOOT.CTRL.PREF + 1).testBit 2 = false := by
    rcases eq_zero_or_one_of_lt_two hp with h | h
    · rw [h]; rfl
    · rw [h]; rfl
  have h0 : (2 * s.get GLB.BOOT.CTRL.PREF + 1).testBit 0 = true := by
    rw [Nat.testBit_zero, decide_eq_true_eq]; omega
  rw [execBootGo, hostWrite_admitted _ (regStatus_bootCtrl hup), writeReg32_bootCtrl, part_pref hp (.inl rfl)]
  simp only [h2, h0, if_true, Bool.false_eq_true, if_false]

theorem registerRows_bootCtrl (s : State) (hup : (!s.boot.inReset && s.up 0) = true) (hp : s.get GLB.BOOT.CTRL.PREF < 2) :
    Completes .clrfail s (fun t => t.ans = ⟨stOkay, 0⟩ ∧ t.get GLB.BOOT.STAT.FAILA = 0 ∧ t.get GLB.BOOT.STAT.FAILB = 0 ∧
      t.get GLB.BOOT.CTRL.PREF = s.get GLB.BOOT.CTRL.PREF ∧ t.get GLB.BOOT.STAT.STAGE = s.get GLB.BOOT.STAT.STAGE ∧
      t.mem = s.mem ∧ t.eng = s.eng) ∧
    Completes .bootGo s (fun t => t.ans = ⟨stOkay, 0⟩ ∧ t.mem = s.mem ∧ t.eng = s.eng ∧
      t.get GLB.BOOT.CTRL.PREF = s.get GLB.BOOT.CTRL.PREF ∧
      (let g := s.get GLB.BOOT.STAT.STAGE
       (g ≠ 1 ∧ g ≠ 7 ∨ s.bootRuns = false → t.get GLB.BOOT.STAT.STAGE = g) ∧
       (s.bootRuns = true → g = 1 ∨ g = 7 → hostSource (hostImage s) = true →
         t.get GLB.BOOT.STAT.STAGE = 2 ∧ t.get GLB.BOOT.STAT.SRC = 1) ∧
       (s.bootRuns = true → g = 1 ∨ g = 7 → hostSource (hostImage s) = false → t.get GLB.BOOT.STAT.STAGE = 7 ∧
         t.get GLB.BOOT.STAT.RESULT = 12))) := by
  have hget := get_putPref (s := s) rfl hp
  have hpref := hget GLB.BOOT.CTRL.PREF (.inr rfl)
  have hstage := hget GLB.BOOT.STAT.STAGE (.inl (by decide))
  refine ⟨⟨_, execClrfail_up hup hp, rfl, get_clearFail_failA _, get_clearFail_failB _, ?_, ?_, rfl, rfl⟩,
    ⟨_, execBootGo_up hup hp, rfl, ?_⟩⟩
  · exact (get_clearFail_ne _ GLB.BOOT.CTRL.PREF (by decide) (by decide)).trans hpref
  · exact (get_clearFail_ne _ GLB.BOOT.STAT.STAGE (by decide) (by decide)).trans hstage
  · obtain ⟨hmem, heng, hkeep⟩ := bootGo_keeps (s.put GLB.BOOT.CTRL.PREF (s.get GLB.BOOT.CTRL.PREF))
    have hresult := bootGo_result (s.put GLB.BOOT.CTRL.PREF (s.get GLB.BOOT.CTRL.PREF))
    have hruns : (s.put GLB.BOOT.CTRL.PREF (s.get GLB.BOOT.CTRL.PREF)).bootRuns = s.bootRuns := by
      simp only [State.bootRuns, State.on, hget DBG.LOCK.ERASING (.inl (by decide)), hget DBG.LOCK.OPEN (.inl (by decide))]
      rfl
    have himage : hostImage (s.put GLB.BOOT.CTRL.PREF (s.get GLB.BOOT.CTRL.PREF)) = hostImage s := by
      simp only [hostImage, hget GLB.BOOT.HADDR_L.ADDR (.inl (by decide)), hget GLB.BOOT.HADDR_H.ADDR (.inl (by decide))]
    rw [hstage, hruns, himage] at hresult
    exact ⟨hmem, heng, hkeep.trans hpref, hresult⟩

theorem registerRows_bootCtrl_down (s : State) (hup : (!s.boot.inReset && s.up 0) = false) :
    exec .clrfail s = .next { s with ans := ⟨stPower, 0⟩ } ∧ exec .bootGo s = .next { s with ans := ⟨stPower, 0⟩ } := by
  have hst : regStatus s 14 true true 0x104 = stPower :=
    regStatus_power 14 true true (by rw [regUp_below_clusters s (by omega)]; exact hup)
  constructor
  · rw [exec_clrfail, execClrfail, hostWrite_refused _ hst (by decide), regRefused_power]
  · rw [exec_bootGo, execBootGo, hostWrite_refused _ hst (by decide), regRefused_power]

end Sys2Proof.Machine
end

section
/-! PROOFS. The slave port's command buffer and credits, and the debug TAP's access behind it (R413-R416, R449). -/

namespace Sys2Proof.Machine

open Reg

/-! ### The buffer (R415) -/

/-- The command at the front waits while 16 of its kind have no answer. -/
theorem serveAll_waits {u : State} {c : SlCmd} {t : List SlCmd} (hc : u.slCmds = c :: t) (h : 16 ≤ unanswered u c.write) (k : Nat) :
    serveAll (k + 1) u = u := by
  simp only [serveAll, hc, if_pos h]

/-- The command at the front is served once there is room for its answer, and what is behind it follows. -/
theorem serveAll_serves {u : State} {c : SlCmd} {t : List SlCmd} (hc : u.slCmds = c :: t) (h : unanswered u c.write < 16) (k : Nat) :
    serveAll (k + 1) u = serveAll k (serveCmd c (returnCredits c { u with slCmds := t })) := by
  simp only [serveAll, hc, if_neg (Nat.not_le.mpr h)]

theorem serveAll_empty {u : State} (h : u.slCmds = []) (k : Nat) : serveAll k u = u := by
  cases k with
  | zero => rfl
  | succ k => simp only [serveAll, h]

/-- An access of the TAP waits behind a command in the buffer. -/
theorem tapGoes_waits {u : State} (h : u.slCmds ≠ []) : tapGoes u = u := by
  unfold tapGoes
  split
  · exact if_neg (by simpa using h)
  · rfl

theorem tapGoes_idle {u : State} (h : u.tap.busy = none) : tapGoes u = u := by
  simp only [tapGoes, h]

theorem tapGoes_goes {u : State} {r : TapReq} (hr : u.tap.busy = some r) (h : u.slCmds = []) : tapGoes u = tapPerform r u := by
  simp only [tapGoes, hr, h, List.isEmpty_nil, if_true]

/-! ### Commands of the slave port -/

/-- Beats that are missing are filled up to the count, and those beyond it are cut off. -/
theorem length_filledBeats {α : Type} (l : List α) (x : α) (n : Nat) :
    (l.take n ++ List.replicate (n - l.length) x).length = n := by
  simp only [List.length_append, List.length_take, List.length_replicate]
  omega

theorem SlCmd.status_power {c : SlCmd} {s : State} (h : s.up 0 = false) : c.status s = stPower := by
  simp [SlCmd.status, h]

/-- A command for a memory window that would be admitted is refused for its form. -/
theorem SlCmd.status_malformed {c : SlCmd} {s : State} (hup : s.up 0 = true) (ha : 0x400000 ≤ c.addr.toNat)
    (hw : windowStatus s 14 c.write c.addr.toNat = stOkay) (hm : c.malformed = true) : c.status s = stDecode := by
  simp [SlCmd.status, hup, Nat.not_lt.mpr ha, hw, hm, show stOkay ≠ stPower by decide, show stOkay ≠ stSecurity by decide]

theorem slaveWrite_refused {c : SlCmd} {s : State} (h : c.status s ≠ stOkay) :
    slaveWrite c s = (c.status s, c.refused (c.status s) s) := if_pos h

/-- A refused read answers its status on every beat, with data 0. -/
theorem slaveRead_refused {c : SlCmd} {s : State} (quiet : Bool) (h : c.status s ≠ stOkay) :
    (slaveRead quiet c s).1 = c.addrs.map (fun _ => (c.status s, List.replicate c.size 0)) :=
  congrArg Prod.fst (if_pos h)

theorem registerRows_slave (s : State) (write : Bool) (cnt : Fin 16) (sz : Fin 8) (wrap : Bool) (tag : BitVec 8) (sec : Bool)
    (addr : BitVec 27) (beats : List (BitVec 128 × BitVec 16)) (credit : Bool) :
    let n := if write then cnt.val + 1 else 0
    let c : SlCmd := ⟨write, cnt, sz, wrap, tag, sec, addr, beats.take n ++ List.replicate (n - beats.length) (0, 0)⟩
    let i : Instr := .slaveAccess write cnt sz wrap tag sec addr beats credit
    let k := s.credits
    let u : State := { s with slCmds := s.slCmds ++ [c], credits := { k with slCmd := k.slCmd - 1, slWd := k.slWd - n } }
    (s.boot.inReset = true → exec i s = .next (if credit && decide (addr.toNat / 0x10000 = 1) then serveCmd c s else s)) ∧
    (s.boot.inReset = false → credit = false ∨ k.slCmd = 0 ∨ k.slWd < n →
      exec i s = .next (s.count GLB.SYS.CRDERR.SLAVE (1 + n))) ∧
    (s.boot.inReset = false → credit = true → 0 < k.slCmd → n ≤ k.slWd → exec i s = .next (serveBuffer u)) ∧
    (s.slCmds = [] → 16 ≤ unanswered s write → serveBuffer u = u) ∧
    (s.slCmds = [] → unanswered s write < 16 → serveBuffer u = tapGoes (serveAll 16 (serveCmd c
      { s with credits := { k with slCmd := k.slCmd - 1 + 1, slWd := k.slWd - n + n } }))) ∧
    (s.up 0 = false → c.status s = stPower) ∧
    (s.up 0 = true → s.boot.inReset = false → 0x400000 ≤ addr.toNat → windowStatus s 14 write addr.toNat = stOkay →
      c.malformed = true → c.status s = stDecode) ∧
    (c.status s ≠ stOkay → write = true → slaveWrite c s = (c.status s, c.refused (c.status s) s)) ∧
    (c.status s ≠ stOkay → write = false →
      (slaveRead false c s).1 = c.addrs.map (fun _ => (c.status s, List.replicate c.size 0))) := by
  intro n c i k u
  have hexec : exec i s = execSlaveAccess write cnt sz wrap tag sec addr beats credit s := rfl
  rw [hexec]
  refine ⟨fun hr => if_pos hr, fun hr h => (if_neg (by simp [hr])).trans (if_pos ?_),
    fun hr hcr hk hn => (if_neg (by simp [hr])).trans (if_neg ?_), fun he h => ?_, fun he h => ?_,
    SlCmd.status_power, fun hup _ ha hw hm => SlCmd.status_malformed hup ha hw hm,
    fun h _ => slaveWrite_refused h, fun h _ => slaveRead_refused false h⟩
  · rcases h with h | h | h
    · rw [h]; rfl
    · rw [decide_eq_true h, Bool.or_true]; rfl
    · rw [decide_eq_true h, Bool.or_true]
  · rw [hcr, decide_eq_false (Nat.ne_of_gt hk), decide_eq_false (Nat.not_lt.mpr hn)]
    decide
  · have hu : u.slCmds = c :: [] := by rw [show u.slCmds = s.slCmds ++ [c] from rfl, he]; rfl
    rw [serveBuffer, serveAll_waits hu h, tapGoes_waits (by rw [hu]; simp)]
  · have hu : u.slCmds = c :: [] := by rw [show u.slCmds = s.slCmds ++ [c] from rfl, he]; rfl
    have hlen : c.beats.length = n := length_filledBeats beats (0, 0) n
    have hback : returnCredits c { u with slCmds := [] } =
        { s with credits := { k with slCmd := k.slCmd - 1 + 1, slWd := k.slWd - n + n } } := by
      rw [returnCredits, hlen, ← he]
    rw [serveBuffer, serveAll_serves hu h, hback]

/-! ### Credits (R413) -/

/-- System ports on which nothing waits send nothing. -/
theorem sendPorts_idle {s : State} (hm : s.mlQueue = []) (hl : s.slQueue = []) : s.sendPorts = s := by
  have hmaster (b : Bool) (c w r k : Nat) :
      (if b = true then masterDrain s.mlQueue c w r k else ([], s.mlQueue, 0, 0)) = ([], s.mlQueue, 0, 0) := by
    rw [hm]; cases b <;> rfl
  have hslave (a b : Nat) : drain s.slQueue a b = ([], s.slQueue, a, b) := by rw [hl]; rfl
  unfold State.sendPorts
  simp only [hmaster, hslave]
  rfl

/-- With nothing that waits on the system ports, in the buffer or at the TAP, new credits set nothing off. -/
theorem serveBuffer_sendPorts_idle {s : State} (hm : s.mlQueue = []) (hl : s.slQueue = []) (hc : s.slCmds = [])
    (ht : s.tap.busy = none) : serveBuffer s.sendPorts = s := by
  rw [sendPorts_idle hm hl, serveBuffer, serveAll_empty hc, tapGoes_idle ht]

/-- A pulse on a CRD input adds one credit to its lane. -/
def CreditSt.grant (k : CreditSt) (lane : Fin 4) : CreditSt :=
  { k with rd := k.rd + (if lane = 0 then 1 else 0), wc := k.wc + (if lane = 1 then 1 else 0),
           cmd := k.cmd + (if lane = 2 then 1 else 0), wd := k.wd + (if lane = 3 then 1 else 0) }

theorem execCreditGrant_eq (s : State) (lane : Fin 4) (hr : s.boot.inReset = false) :
    execCreditGrant lane s = .next (serveBuffer (State.sendPorts { s with credits := s.credits.grant lane })) := by
  refine (if_neg (by simp [hr])).trans ?_
  match lane with
  | 0 => rfl
  | 1 => rfl
  | 2 => rfl
  | 3 => rfl

theorem registerRows_credit (s : State) (lane : Fin 4) :
    (s.boot.inReset = true → exec (.creditGrant lane) s = .next s) ∧
    (s.boot.inReset = false → s.slCmds = [] → s.mlQueue = [] → s.slQueue = [] → s.tap.busy = none →
      exec (.creditGrant lane) s = .next { s with credits := s.credits.grant lane }) := by
  rw [exec_creditGrant]
  refine ⟨fun hr => if_pos hr, fun hr hc hm hl ht => ?_⟩
  exact (execCreditGrant_eq s lane hr).trans (congrArg Host.Outcome.next (serveBuffer_sendPorts_idle hm hl hc ht))

/-! ### The TAP's access (R444, R449) -/

/-- The TAP has asked for an access. -/
def tapAsked (r : TapReq) (s : State) : State := { s with tap := { s.tap with busy := some r } }

theorem tapAsk_ignored {s : State} (r : TapReq) (h : s.tap.busy.isSome = true) : tapAsk r s = s := if_pos h

theorem tapAsk_waits {s : State} (r : TapReq) (h : s.tap.busy = none) (hc : s.slCmds ≠ []) : tapAsk r s = tapAsked r s :=
  (if_neg (by simp [h])).trans (tapGoes_waits (u := tapAsked r s) hc)

theorem tapAsk_performs {s : State} (r : TapReq) (h : s.tap.busy = none) (hc : s.slCmds = []) :
    tapAsk r s = tapPerform r (tapAsked r s) :=
  (if_neg (by simp [h])).trans (tapGoes_goes (u := tapAsked r s) rfl hc)

theorem tapPerform_locked {s : State} (r : TapReq) (h : s.on DBG.LOCK.OPEN = false) :
    tapPerform r s = tapDone stSecurity 0 s := if_pos (by simp [h])

theorem tapPerform_write {s : State} {r : TapReq} (h : s.on DBG.LOCK.OPEN = true) (hw : r.write = true) :
    tapPerform r s = tapDone (slaveWrite r.cmd s).1 0 (slaveWrite r.cmd s).2 :=
  (if_neg (by simp [h])).trans (if_pos hw)

theorem tapPerform_read {s : State} {r : TapReq} (h : s.on DBG.LOCK.OPEN = true) (hw : r.write = false) :
    tapPerform r s = tapDone ((slaveRead (!r.active) r.cmd s).1.getD 0 (0, [])).1
      (BitVec.ofNat 32 (natLE ((slaveRead (!r.active) r.cmd s).1.getD 0 (0, [])).2)) (slaveRead (!r.active) r.cmd s).2 :=
  (if_neg (by simp [h])).trans (if_neg (by simp [hw]))

theorem registerRows_tap (s : State) (a : BitVec 27) (write active : Bool) (v : BitVec 32) :
    let i : Instr := .tapAccess a write active v
    let word := a.toNat / 4 * 4
    let r : TapReq := ⟨a, write, active, v⟩
    let u := tapAt .updateDr 4 (bitList 64 (a.toNat + 2 ^ 27 * write.toNat + 2 ^ 28 * active.toNat + 2 ^ 32 * v.toNat)) s
    let asked : State := { u with tap := { u.tap with busy := some r } }
    r.cmd = ⟨write, 0, 2, false, 0, true, BitVec.ofNat 27 word, if write then
      [(BitVec.ofNat 128 (v.toNat * 2 ^ (8 * (word % 16))), BitVec.ofNat 16 (15 * 2 ^ (word % 16)))] else []⟩ ∧
    (s.tap.busy.isSome = true → exec i s = .next u) ∧
    (s.tap.busy = none → s.slCmds ≠ [] → exec i s = .next asked) ∧
    (s.tap.busy = none → s.slCmds = [] → s.on DBG.LOCK.OPEN = false →
      exec i s = .next { u with tap := { u.tap with code := stSecurity, data := 0, busy := none } }) ∧
    (s.tap.busy = none → s.slCmds = [] → s.on DBG.LOCK.OPEN = true → write = true →
      let w := slaveWrite r.cmd asked
      exec i s = .next { w.2 with tap := { w.2.tap with code := w.1, data := 0, busy := none } }) ∧
    (s.tap.busy = none → s.slCmds = [] → s.on DBG.LOCK.OPEN = true → write = false →
      let q := slaveRead (!active) r.cmd asked
      let beat := q.1.getD 0 (0, [])
      exec i s = .next { q.2 with tap := { q.2.tap with code := beat.1, data := BitVec.ofNat 32 (natLE beat.2), busy := none } }) := by
  intro i word r u asked
  have hexec : exec i s = .next (tapAsk r u) := rfl
  have hgoes (hb : s.tap.busy = none) (hc : s.slCmds = []) : tapAsk r u = tapPerform r asked := tapAsk_performs (s := u) r hb hc
  rw [hexec]
  refine ⟨?_, fun hb => ?_, fun hb hc => ?_, fun hb hc hl => ?_, fun hb hc hl hw => ?_, fun hb hc hl hw => ?_⟩
  · simp only [TapReq.cmd, r, word]
  · exact congrArg Host.Outcome.next (tapAsk_ignored (s := u) r hb)
  · exact congrArg Host.Outcome.next (tapAsk_waits (s := u) r hb hc)
  · exact congrArg Host.Outcome.next ((hgoes hb hc).trans (tapPerform_locked (s := asked) r hl))
  · exact congrArg Host.Outcome.next ((hgoes hb hc).trans (tapPerform_write (s := asked) hl hw))
  · exact congrArg Host.Outcome.next ((hgoes hb hc).trans (tapPerform_read (s := asked) hl hw))

/-- Settles O4: the access types and the reads that clear, the host's register accesses, mailboxes and GLB.BOOT.CTRL, the slave port
and the TAP, each by the lemma on its part. -/
theorem registerRows : Obligations.RegisterRows := by
  unfold Obligations.RegisterRows
  refine ⟨registerRows_writeField, fun s fs hfs => ⟨rfl, get_clearRc hfs s⟩, fun s => ?_⟩
  exact ⟨registerRows_write s, registerRows_read s, registerRows_h2b s, registerRows_doorbells s, registerRows_bootCtrl s,
    registerRows_bootCtrl_down s, registerRows_slave s, registerRows_credit s, registerRows_tap s⟩

end Sys2Proof.Machine
end
